-- ==== Sys2Proof/Word.lean ====
section
/-! DEFINITION. The word types of the tile and their plainest arithmetic: times in MT, exact division and bit fields of
numbers. Registers are 32 bits (00 R7); times count Milepost ticks of 1/1024 ns (00 R9). -/

namespace Sys2Proof

/-- A 32-bit register word (00 R7). -/
abbrev Word := BitVec 32
/-- A byte. -/
abbrev Byte := BitVec 8
/-- A 64-byte line of tile DRAM (11 R265), byte 0 in bits 7 to 0. -/
abbrev Line := BitVec 512

/-- MT of one nanosecond (00 R9 Table 0.3). -/
def nsMT : Nat := 1024
/-- MT of one microsecond. -/
def usMT : Nat := 1024000
/-- MT of one millisecond. -/
def msMT : Nat := 1024000000

/-- Bits `lo` to `lo + w - 1` of a number. -/
def bits (n lo w : Nat) : Nat := n / 2 ^ lo % 2 ^ w
/-- Bit `i` of a number. -/
def bit (n i : Nat) : Bool := n / 2 ^ i % 2 = 1
/-- A truth value as the number 0 or 1. -/
def ofBool (b : Bool) : Nat := if b then 1 else 0

end Sys2Proof
end

