-- ==== Sys2Proof/Syntax.lean ====
section
/-! DEFINITION. The commands the tile takes, one constructor per row of spec/opcode_table.json. The table gives the rows no
operands: each constructor carries what the step of its row needs from outside (unit numbers, written values, message
fields, measured values). -/

namespace Sys2Proof

/-- What a pin group's comparators show at its next scheduled strobe (07 R166): CMPH and CMPL of its channels, the region's reflex
inputs, and for WINDOW strobes how long each channel differed, in MT. -/
structure Levels where
  group : Nat
  cmph  : Nat
  cmpl  : Nat
  rctl  : Nat
  win   : List Nat
deriving DecidableEq, Repr

/-- A calibration measurement of a pin group (07 R180): temperature, drive and compare trim of each channel. -/
structure GroupCal where
  group : Nat
  temp  : Int
  trims : List (Int × Int)
deriving DecidableEq, Repr

/-- Response codes of the junction network (14 Table 14.2). -/
inductive Resp where
  | ok | decode | denied | poison | closed | timeout
deriving DecidableEq, Repr

/-- The trunk messages (17 Table 17.2). -/
inductive MsgKind where
  | idle | sync | delayReq | followUp | launch | cancel | report | eventFwd | hello | enrolReq | enrolGrant | enrolRefuse
  | quoteReq | quote | lost | sleep | powerfail | mailbox | control | testReq
deriving DecidableEq, Repr

/-- The sources that read 64-bit and 72-bit values, each with its own capture (00 R15). -/
inductive Src where
  | host | firmware | twivel
deriving DecidableEq, Repr

/-- Who sends a request on the junction network or is answered one (13 Table 13.4): a fabric DRAM port by region, a streamer, a
fail log, a cluster, a DMA channel, the host through BAR2, firmware, the configuration loader, other hub hardware, and the
debug port. -/
inductive Agent where
  | fabric (r : Nat) | streamer (n : Nat) | failLog (q : Nat) | cluster (j : Nat) | dma (c : Nat)
  | bar2 | firmware | config | hub | debug
deriving DecidableEq, Repr

/-- How the verification of a protected line ends (13 Table 13.1): verified, the line's tag differs, or the path fails in a
node (uncorrectable, or its tag differs) or in a root counter. -/
inductive TagRes where
  | ok | tag | nodeUe (level : Nat) | nodeTag (level : Nat) | rootUe
deriving DecidableEq, Repr

/-- What a closure closes (14 Table 14.5): a region's ports, a cluster's port, a quarter's, the hub's. -/
inductive Closure where
  | region (r : Fin 64) | cluster (j : Fin 512) | quarter (q : Fin 4) | hub
deriving DecidableEq, Repr

/-- A payload flit: 64 bytes and a poison bit for each of its eight words (14 R326). -/
abbrev Flit := Line × BitVec 8

/-- What a write of the MSI-X state sets (16 R373): a vector's mask, or the capability's enable and function mask. -/
inductive MsixSet where
  | vector (v : Fin 2048) (masked : Bool) | function (enable mask : Bool)
deriving DecidableEq, Repr

/-- The answer to a request of a DMA channel (15 R355): of the tile, with the line of a READ; or the host's completion of a
read: successful or not, its EP bit, its bytes. -/
inductive DmaAns where
  | tile (resp : Resp) (line : Line) | host (ok ep : Bool) (data : Nat)
deriving DecidableEq, Repr

/-- How a training attempt or a recovery ends (17 R384 to R387): it reaches ACTIVE, or fails in a step; FEC asked for by the
peer; the peer's serial and epoch; the peaking found for D0 to D3 and CK; and the coefficients (pre, post) of each lane. -/
structure TrainEnd where
  ok     : Bool
  step   : Nat
  fec    : Bool
  serial : Nat
  epoch  : Nat
  peak   : List Nat
  coeff  : List (Nat × Nat)
deriving DecidableEq, Repr

/-- Causeway segment data, as the manager's messages carry it (17 Table 17.2, 18 R413, R418): the segment, a key with its
generation, and the members' tile numbers and epochs. -/
structure SegData where
  segment : Nat
  gen     : Bool
  key     : Nat
  members : List (Nat × Nat)
deriving DecidableEq, Repr

/-- A frame as the Causeway port receives it (18 Table 18.1): symbols, end symbol and CRC good; sender, epoch, sequence number,
key generation; its tag agrees with the one the key of that generation gives; its payload bytes. -/
structure RxFrame where
  good    : Bool
  sender  : Nat
  epoch   : Nat
  seq     : Nat
  gen     : Bool
  tagOk   : Bool
  payload : List Nat
deriving DecidableEq, Repr

/-- An image header as the configuration controller reads it (20 Table 20.3): its magic, version and unlisted bytes as laid down;
kind, readback flag, speed grade, key select, frame and chunk counts, identity and base identity; region descriptors present
(region, FILL, match_live, GCK mask); the outcome of the signature check, and the digest H. -/
structure ImgHeader where
  formOk   : Bool
  kind     : Nat
  readback : Bool
  grade    : Nat
  keySel   : Nat
  frames   : Nat
  chunks   : Nat
  identity : Nat
  base     : Nat
  descs    : List (Nat × Bool × Bool × Nat)
  sigOk    : Bool
  digest   : Nat
deriving DecidableEq, Repr

/-- A Kerb record (20 Table 20.4): region, CRC good, its 64 words, read-back from the value store equal. -/
structure KerbRec where
  region : Nat
  crcOk  : Bool
  words  : List Nat
  backOk : Bool
deriving DecidableEq, Repr

/-- A frame record (20 Table 20.4): address, live and contents flags, CRC good, live flag agreeing with the logic blocks'
modes, avenues meeting 04 R122, and the 4,096 payload bytes as a number. -/
structure FrameRec where
  addr     : Nat
  live     : Bool
  contents : Bool
  crcOk    : Bool
  liveOk   : Bool
  avenueOk : Bool
  payload  : Nat
deriving DecidableEq, Repr

/-- What the source of a load delivers (20 R446): the header, chunk 0, a later chunk with the outcome of its tag, or a failed
read. -/
inductive CfgData where
  | header (h : ImgHeader) | kerb (tagOk : Bool) (recs : List KerbRec) | chunk (tagOk : Bool) (recs : List FrameRec) | readFail
deriving DecidableEq, Repr

/-- How an image configures one block memory (06 R146): block, port mode, protection, widths, FIFO levels. -/
structure BlockImage where
  block : Nat
  mode  : Nat
  prot  : Nat
  wa    : Nat
  wb    : Nat
  lvlLo : Nat
  lvlHi : Nat
deriving DecidableEq, Repr

/-- What the frames of a region mean (their layout is not in the manual, 20 R439): modes of logic blocks, match entries
(LB times 64 plus entry, valid, mask, value), reflex terms, block memories, initial values of user registers. -/
structure RegionImage where
  region  : Nat
  lbMode  : List (Nat × Nat)
  entries : List (Nat × Bool × Nat × Nat)
  reflex  : List (Nat × Nat × Nat)
  blocks  : List BlockImage
  user    : List (Nat × Nat)
deriving DecidableEq, Repr

/-- A failure a self-test finds (21 Table 21.4): unit, number, address, bit. -/
structure BistFail where
  unit   : Nat
  number : Nat
  addr   : Nat
  bit    : Nat
deriving DecidableEq, Repr

/-- What the boot ROM finds of one copy of the firmware (22 Table 22.3): `check` is 0 when every check passes, 1 the signature
fails, 2 the security version, 3 the body digest; the digests it measures. -/
structure BootTry where
  check  : Fin 4
  header : Nat
  body   : Nat
deriving DecidableEq, Repr

/-- A run of the boot chain (22 R487): whether the fuses check, the digest MR0 takes, the hub flash, copy A and copy B in turn,
the digest firmware extends MR3 with. -/
structure Boot where
  fuses  : Bool
  rom    : Nat
  tries  : List BootTry
  config : Nat
deriving DecidableEq, Repr

/-- What an action started by a register write, and a read of CL_LM_DATA, takes from outside: comparator levels, calibration results
and the answer to the summary of a crossing (03 R90); a run of the boot chain for a tile reset; whether an unlock's signature
verifies and the next challenge (22 R491); the check of a recovery image and its digests (22 R487); the halted cores' address (25
R536); a lane test's errors and bits compared (17 R392); cells of the local-memory word upset (10 R253). -/
structure CsrEnv where
  ls       : List Levels
  cals     : List GroupCal
  resp     : Resp
  boot     : Boot
  sigOk    : Bool
  nonce    : Nat
  check    : Fin 4
  header   : Nat
  body     : Nat
  config   : Nat
  pc       : Word
  errs     : List Nat
  compared : Nat
  flips    : Nat
deriving DecidableEq, Repr

/-- Channels of a controller that fail the training of a set point in a step (11 R275). -/
structure TrainFail where
  ctl   : Nat
  sp    : Nat
  chans : Nat
  step  : Nat
deriving DecidableEq, Repr

/-- What steps 3 to 9 of Table 5.3 find (05 R139): the boot chain, whether the epoch record reads and programs (02 R40), quarters
that become offline (true when the self-test finds them so, else the bridge), failures and time of the power-up self-test (21 R469),
training failures. -/
structure PowerUp where
  boot    : Boot
  epochOk : Bool
  offline : List (Fin 4 × Bool)
  bist    : List BistFail
  us      : Nat
  trains  : List TrainFail
deriving DecidableEq, Repr
/-- The commands of the tile, one constructor per row of spec/opcode_table.json (the row's own name in capitals). -/
inductive Instr where
  /-- REGISTER_WRITE. R11: A write to a register that has no row of its own sets its value according to the field's access type. -/
  | registerWrite (a : BitVec 24) (src : Src) (v : Word) (x : CsrEnv)
  /-- UNASSIGNED_ACCESS. R14: An access to an unassigned offset, or a write whose byte enables are not all set, is discarded or read as zero and completes normally on PCIe. -/
  | unassignedAccess (a : BitVec 24) (src : Src) (w : Option (Word × BitVec 4))
  /-- LO_READ_CAPTURE. R15: A read of a _LO word captures the matching _HI (and _TOP) word for the requesting source. -/
  | loReadCapture (a : BitVec 24) (src : Src) (x : CsrEnv)
  /-- HI_WRITE_APPLY. R15: A write of a _HI word makes the whole 64-bit value take effect with the _LO word held. -/
  | hiWriteApply (a : BitVec 24) (src : Src) (v : Word) (x : CsrEnv)
  /-- TOP_WRITE_APPLY. R65: A write of a _TOP word makes the whole 72-bit value take effect with the _LO and _HI words held. -/
  | topWriteApply (a : BitVec 24) (src : Src) (v : Word) (x : CsrEnv)
  /-- RC_READ. R11: A read of an RC field returns its value and clears it. -/
  | rcRead (a : BitVec 24) (src : Src) (x : CsrEnv)
  /-- REF_CYCLE. R36: Each REF cycle advances the Milepost counter by the rate word, including any slew. -/
  | refCycle (upset : Option (Fin 3)) (steer : Option Int)
  /-- SYNC_TIMER. R45: Every 1 ms an upstream port starts a time-transfer exchange and sends SYNC carrying t1. -/
  | syncTimer (u : Fin 8)
  /-- SYNC. R45: A downstream port receives SYNC and stamps t2. -/
  | sync (u : Fin 8) (x t1 hops : Nat)
  /-- DELAY_REQ_SEND. R45: The downstream sends DELAY_REQ and stamps t3, no later than 100 µs after t2. -/
  | delayReqSend
  /-- DELAY_REQ. R45: The upstream receives DELAY_REQ, stamps t4 and returns it in FOLLOW_UP. -/
  | delayReq (u : Fin 8) (x : Nat)
  /-- FOLLOW_UP. R46: The downstream receives FOLLOW_UP, computes theta and d, and accepts or discards the exchange. -/
  | followUp (u : Fin 8) (x t4 : Nat)
  /-- EXCHANGE_MISSING. R48: An exchange that is missing or discarded is counted, and the third in a row puts the tile in HOLDOVER. -/
  | exchangeMissing
  /-- HOLDOVER_TICK. R58: Every 1 ms in HOLDOVER or FREERUN after acquisition, MP_HOLD_EST grows by MP_HOLD_PPT. -/
  | holdoverTick
  /-- MP_CTRL_WRITE. R43: A write of MP_CTRL selects the time source and starts or stops discipline. -/
  | mpCtrlWrite (v : Word)
  /-- MP_UPSTREAM_WRITE. R66: A change of MP_UPSTREAM restarts the path-delay mean and takes effect at the next exchange. -/
  | mpUpstreamWrite (v : Word)
  /-- MP_SET. R57: MP_CMD.set on a manager applies MP_SET as a correction, or is ignored when it lies below the counter. -/
  | mpSet
  /-- MP_RESYNC. R54: MP_CMD.resync drops lock and reacquires, treating the time before the next launch as a crossing. -/
  | mpResync
  /-- ABSORB_COMPLETE. R53: An absorption ends when the counter has lost |c|, raising event 34 and letting the crossing complete. -/
  | absorbComplete (cals : List GroupCal) (resp : Resp)
  /-- REF_IN_LOSS. R68: Loss of REF_IN in REFIN mode puts the manager in HOLDOVER with event 36. -/
  | refInLoss
  /-- OCXO_LOSS. R68: Loss of the OCXO is detected within 1 µs and stamps the power-fail mark. -/
  | ocxoLoss (ls : List Levels)
  /-- LAUNCH_PUSH. R71: A write of LQ_NEW_PUSH inserts a launch entry and reports its identifier and disposition. -/
  | launchPush (v : Word)
  /-- LAUNCH_CANCEL. R72: A write of LQ_CANCEL removes a waiting entry, and on the manager forwards a cancel. -/
  | launchCancel (v : Word)
  /-- MARK. R70: A MARK entry executes and raises event 55 with its user value. -/
  | mark
  /-- START_LEG. R70: A START_LEG entry executes and every armed pin group in the masked quarters presents vector 0. -/
  | startLeg
  /-- COMMIT. R84: A COMMIT entry commits its set all or nothing, refusing it if any group is bad. -/
  | commit
  /-- HALT. R70: A HALT entry stops legs in the masked quarters at the next vector boundary, with event 54. -/
  | halt
  /-- ABORT. R70: An ABORT entry stops legs in the masked quarters at once in the abort state, with event 53. -/
  | abort
  /-- CAPTURE. R140: A CAPTURE entry starts a state capture of the masked quarters. -/
  | capture
  /-- TRIGGER. R70: A TRIGGER entry pulses a fabric trigger line of each masked quarter, stamped at the time port. -/
  | trigger
  /-- CROSSING. R87: A CROSSING entry runs the drain, seal, clear, step and release of Table 3.7. -/
  | crossing (ls : List Levels) (cals : List GroupCal) (resp : Resp)
  /-- COMMIT_NOW. R83: LQ_CMD.commit_now commits the named set immediately. -/
  | commitNow (n : Fin 16)
  /-- ABORT_NOW. R92: LQ_CMD.abort_now aborts all quarters at the current instant, outside the queue. -/
  | abortNow
  /-- CROSSING_NOW. R87: LQ_CMD.crossing_now starts a crossing, or queues one more after those running. -/
  | crossingNow (ls : List Levels) (cals : List GroupCal) (resp : Resp)
  /-- GROUP_SWITCH. R85: A committed group running a leg switches to its staged values at the first vector boundary, and the commit reaches DONE with event 45. -/
  | groupSwitch (gp : Fin 136)
  /-- LAUNCH. R77: A received LAUNCH message is forwarded downstream and queued where its scope matches, with a first report upstream. -/
  | launch (u : Fin 8) (seq ack ep id t action arg scope target : Nat)
  /-- CANCEL. R81: A received CANCEL message is forwarded and cancels the entry or answers TOO_LATE. -/
  | cancel (u : Fin 8) (seq ack id : Nat)
  /-- REPORT. R80: A received REPORT is passed upstream or, on the manager, counted against LQ_SYS_ID. -/
  | report (u : Fin 8) (seq ack tile id code : Nat)
  /-- MATCH_PORT_WRITE. R110: A write-port write replaces a match entry, visible two edges later, or is discarded. -/
  | matchPortWrite (r : Fin 64) (cluster : Fin 1536) (lb : Fin 8) (entry : BitVec 6) (valid : Bool) (mask value : BitVec 40) (edge : Nat)
  /-- MATCH_LOOKUP. R108: A key is matched against all entries of a match-mode LB, producing hit, multi, index and group hits. -/
  | matchLookup (r : Fin 64) (lb : Fin 12288) (key : BitVec 160) (edge : Nat) (upset : List Nat)
  /-- AVENUE_CONTENTION. R124: Two or more active drivers for 0.5 ns disable the avenue's drivers and fault the region. -/
  | avenueContention (r : Fin 64) (avenue : Fin 640) (active : List Nat) (duration onset : Nat)
  /-- CLEAR_FLAGS. R117: FAB_CMD.clear_flags clears the named reflex flags. -/
  | clearFlags (r : Fin 64) (v : BitVec 4)
  /-- CPLL_CONFIG_WRITE. R131: A write of QC_CPLLp_CFG is checked and takes effect at the CPLL's next start. -/
  | cpllConfigWrite (q p : Fin 4) (v : Word)
  /-- GCK_SELECT_WRITE. R134: A write of QC_GCKg_SEL changes the GCK's source, divider or enable glitch-free, or is refused above 1,000 MHz. -/
  | gckSelectWrite (q : Fin 4) (g : Fin 16) (v : Word)
  /-- CPLL_LOCK. R132: A started CPLL locks and the GCKs that select it start. -/
  | cpllLock (q p : Fin 4)
  /-- CPLL_LOCK_LOST. R133: A CPLL losing lock stops its GCKs, raises event 24 + q and cuts affected legs. -/
  | cpllLockLost (q p : Fin 4)
  /-- CLK_RESTART. R133: QC_CMD.clk_restart restarts GCKs stopped by a lock loss. -/
  | clkRestart (q : Fin 4)
  /-- QUARTER_RESET. R138: QC_CMD.quarter_reset cuts legs, drains DRAM to self-refresh and holds the quarter in reset. -/
  | quarterReset (q : Fin 4)
  /-- QUARTER_RELEASE. R138: A quarter reset ends with stored training loaded, mirrors reloaded and the quarter released. -/
  | quarterRelease (q : Fin 4)
  /-- CAP_NOW. R140: QC_CMD.cap_now starts an immediate capture, or is refused. -/
  | capNow (q : Fin 4)
  /-- CAPTURE_EDGE. R140: At the capture edge the selected regions' state is copied into shadow cells, with event 196 + q. -/
  | captureEdge (q : Fin 4) (edge : Nat) (vals : List (Nat × List (Nat × Nat)))
  /-- CAPTURE_TIMEOUT. R143: No capture edge within 1 µs abandons the capture with cause NOEDGE. -/
  | captureTimeout (q : Fin 4)
  /-- CAP_FREE. R143: QC_CMD.cap_free empties the shadow cells and ends a freeze. -/
  | capFree (q : Fin 4)
  /-- CAP_RESUME. R142: QC_CMD.cap_resume resumes frozen regions at the next GCK edge. -/
  | capResume (q : Fin 4)
  /-- COLD_START. R139: Good input power starts the release sequence of Table 5.3. -/
  | coldStart (x : PowerUp)
  /-- TILE_RESET. R137: A tile reset resets the hub core, all quarters and the launch queue entries. -/
  | tileReset (b : Boot)
  /-- GC_TILE_RESET. R569: GC_CMD.tile_reset with the right key starts a tile reset within 1 µs, or sets bad_value. -/
  | gcTileReset (v : Word) (b : Boot)
  /-- PCIE_RESET. R364: PERST#, hot reset, function-level reset or surprise link down resets the host interface. -/
  | pcieReset (kind : Fin 4)
  /-- BM_PORT_READ. R150: A block-memory port read returns stored, corrected or poisoned data. -/
  | bmPortRead (b : Fin 10240) (port : Fin 2) (addr edge : Nat) (flips : List Nat)
  /-- BM_PORT_WRITE. R148: A block-memory port write stores data, by read-modify-write for narrow SECDED widths. -/
  | bmPortWrite (b : Fin 10240) (port : Fin 2) (addr : Nat) (v : BitVec 144) (edge : Nat) (flips : List Nat)
  /-- BM_WRITEBACK. R151: A corrected word is written back at the next cycle with neither port accessing the block. -/
  | bmWriteback (b : Fin 10240)
  /-- CLEAR_BLOCK. R154: BM_CMD.clear_block clears every valid bit of the named block. -/
  | clearBlock (r : Fin 64) (ix : Byte)
  /-- CLEAR_FIRST. R157: BM_CMD.clear_first empties BM_FIRST_ERR. -/
  | clearFirst (r : Fin 64)
  /-- BM_REPAIR_WRITE. R155: A write to a repair entry sets a soft spare, or is discarded while the region is released. -/
  | bmRepairWrite (b : Fin 10240) (col : Bool) (v : Word)
  /-- VECTOR_START. R160: At each vector start the pin group takes the symbols and timing set from its sources, or stalls. -/
  | vectorStart (g : Fin 64) (crc : Bool)
  /-- DRIVE_EDGE. R160: A drive edge or DEN change is placed at its rounded instant. -/
  | driveEdge (n : Fin 1024)
  /-- COMPARE_STROBE. R166: An enabled strobe compares CMPH and CMPL with the expect code and sends the result to reflex block, fabric and fail log. -/
  | compareStrobe (g : Fin 64) (cmph cmpl : BitVec 16) (rctl : Byte) (win : List Nat)
  /-- LEG_END. R205: A leg ends after its last vector and the group returns to IDLE with its armed flag cleared. -/
  | legEnd (g : Fin 64)
  /-- PGR_ENABLE_WRITE. R172: A write of PGR_CTRL.enable moves the group between SAFE and IDLE. -/
  | pgrEnableWrite (g : Fin 64) (v : Word)
  /-- TO_IDLE. R172: PGR_CMD.to_idle returns an ABORTED group to IDLE, or sets bad_value for LOAD and FAULT. -/
  | toIdle (g : Fin 64)
  /-- CAL_NOW. R181: PGR_CMD.cal_now forces a calibration measurement, refused while RUNNING. -/
  | calNow (g : Fin 64)
  /-- CAL_MEASURE. R180: Every 1 ms in RUN and IDLE the group measures its replica delay line against Milepost. -/
  | calMeasure (g : Fin 64)
  /-- CAL_MEASURE_DONE. R181: A finished measurement updates the live trims, or holds them while RUNNING. -/
  | calMeasureDone (g : Fin 64) (temp : Int) (trims : List (Int × Int))
  /-- CAL_STALE. R183: Die temperature leaving PGR_CAL_LIMIT during a leg sets cal_stale and raises the group event. -/
  | calStale (g : Fin 64) (temp : Int)
  /-- STREAMER_LINE_RESPONSE. R194: A fetched line arrives in the lookahead buffer, and the streamer becomes PRIMED when the prime condition holds. -/
  | streamerLineResponse (n : Fin 72) (addr : Nat) (resp : Resp) (data : Line)
  /-- REPRIME. R189: STR_CMD.reprime takes the streamer to LOADING from IDLE or STOPPED. -/
  | reprime (n : Fin 72)
  /-- STR_NOP. R192: The streamer executes NOP. -/
  | strNop (n : Fin 72)
  /-- STR_VEC. R193: The streamer executes VEC, presenting count vectors from addr. -/
  | strVec (n : Fin 72)
  /-- STR_LOOP. R198: The streamer executes LOOP, pushing a frame. -/
  | strLoop (n : Fin 72)
  /-- STR_ENDL. R198: The streamer executes ENDL, looping back or popping the frame. -/
  | strEndl (n : Fin 72)
  /-- STR_MATCH. R199: The streamer executes MATCH, pushing a match frame. -/
  | strMatch (n : Fin 72)
  /-- STR_ENDM. R199: The streamer executes ENDM, closing a match iteration. -/
  | strEndm (n : Fin 72)
  /-- STR_BRF. R200: The streamer executes BRF, branching if the flag was set in time. -/
  | strBrf (n : Fin 72)
  /-- STR_JMP. R192: The streamer executes JMP. -/
  | strJmp (n : Fin 72)
  /-- STR_END. R205: The streamer executes END, ending the leg after the last vector. -/
  | strEnd (n : Fin 72)
  /-- STR_RESERVED_OP. R206: A reserved op ends the leg with program error OPCODE and stops the streamer. -/
  | strReservedOp (n : Fin 72)
  /-- APG_PUSH. R202: A beat pushed into an APG port is queued or discarded. -/
  | apgPush (g : Fin 64) (sym : BitVec 1024) (count : BitVec 5) (ts : Byte) (base : Word) (last void poison : Bool)
  /-- APG_CTRL_WRITE. R210: A write to APG_CTRL or APG_STEP takes effect, or is discarded while RUNNING. -/
  | apgCtrlWrite (g : Fin 64) (step : Bool) (v : Word)
  /-- TAINT_NOTICE. R312: A taint notice reaches a streamer, cluster or fabric port and marks results tainted. -/
  | taintNotice (who : Agent) (req line f : Nat)
  /-- INTAKE_EMIT. R213: After its hold, a result leaves the intake queue as a record, OR-write or count. -/
  | intakeEmit (q : Fin 4)
  /-- FL_RECORD_RESPONSE. R227: A record-buffer write is answered, advancing FL_WR_PTR or being retried or dropped with cause WRITE. -/
  | flRecordResponse (q : Fin 4) (resp : Resp)
  /-- FL_ORWRITE_RESPONSE. R220: A bitmap OR-write is answered, and non-OK results become FAIL records. -/
  | flOrwriteResponse (q : Fin 4) (k : Nat) (resp : Resp)
  /-- DIRTY_LINE_AGE. R221: FL_BM_AGE after insertion, a dirty line is harvested. -/
  | dirtyLineAge (q : Fin 4)
  /-- HARVEST_ALL. R221: FL_CMD.harvest_all harvests every dirty line. -/
  | harvestAll (q : Fin 4)
  /-- HARVEST_READ_RESPONSE. R222: A harvest read is answered, producing a HARVEST record or a retry or zero payload. -/
  | harvestReadResponse (q : Fin 4) (k : Nat) (resp : Resp) (data : Line)
  /-- FL_ACK_WRITE. R216: A software write of FL_ACK_PTR advances the acknowledgement, or is ignored. -/
  | flAckWrite (q : Fin 4) (v : BitVec 64)
  /-- CL_NOP. R244: The cluster executes NOP. -/
  | clNop (j : Fin 512)
  /-- CL_MAC. R236: The cluster executes MAC on all slices. -/
  | clMac (j : Fin 512) (flips : List Nat)
  /-- CL_MSU. R236: The cluster executes MSU on all slices. -/
  | clMsu (j : Fin 512) (flips : List Nat)
  /-- CL_MUL. R236: The cluster executes MUL on all slices. -/
  | clMul (j : Fin 512) (flips : List Nat)
  /-- CL_CLR. R237: The cluster executes CLR, zeroing accumulators and poison. -/
  | clClr (j : Fin 512)
  /-- CL_ST. R238: The cluster executes ST, converting the accumulator to a width with shift and rounding. -/
  | clSt (j : Fin 512)
  /-- CL_ACCSV. R244: The cluster executes ACCSV, saving accumulators to three elements. -/
  | clAccsv (j : Fin 512)
  /-- CL_ACCLD. R244: The cluster executes ACCLD, loading accumulators from three elements. -/
  | clAccld (j : Fin 512) (flips : List Nat)
  /-- CL_HIST. R244: The cluster executes HIST, incrementing a histogram bin. -/
  | clHist (j : Fin 512) (flips : List Nat)
  /-- CL_SIG. R244: The cluster executes SIG, updating a CRC-32C signature. -/
  | clSig (j : Fin 512) (flips : List Nat)
  /-- CL_ADDA. R244: The cluster executes ADDA. -/
  | clAdda (j : Fin 512) (flips : List Nat)
  /-- CL_LDI. R244: The cluster executes LDI. -/
  | clLdi (j : Fin 512)
  /-- CL_ALU. R244: The cluster executes an ALU function into a scalar. -/
  | clAlu (j : Fin 512)
  /-- CL_AGSET. R239: The cluster executes AGSET, setting a generator and clearing its pointer. -/
  | clAgset (j : Fin 512)
  /-- CL_AGGET. R244: The cluster executes AGGET. -/
  | clAgget (j : Fin 512)
  /-- CL_LDX. R244: The cluster executes LDX. -/
  | clLdx (j : Fin 512) (flips : List Nat)
  /-- CL_STX. R244: The cluster executes STX. -/
  | clStx (j : Fin 512)
  /-- CL_LOOP. R242: The cluster executes LOOP, pushing a hardware loop frame. -/
  | clLoop (j : Fin 512)
  /-- CL_LPOP. R244: The cluster executes LPOP. -/
  | clLpop (j : Fin 512)
  /-- CL_LPUSH. R244: The cluster executes LPUSH. -/
  | clLpush (j : Fin 512)
  /-- CL_JMP. R243: The cluster executes JMP. -/
  | clJmp (j : Fin 512)
  /-- CL_BR. R243: The cluster executes BR on a scalar condition. -/
  | clBr (j : Fin 512)
  /-- CL_RETI. R251: The cluster executes RETI, leaving handler mode. -/
  | clReti (j : Fin 512)
  /-- CL_IN. R245: The cluster executes IN, popping an input beat or stalling. -/
  | clIn (j : Fin 512)
  /-- CL_OUT. R245: The cluster executes OUT, pushing an output beat or stalling. -/
  | clOut (j : Fin 512) (flips : List Nat)
  /-- CL_XFER. R246: The cluster executes XFER, starting a DRAM transfer. -/
  | clXfer (j : Fin 512)
  /-- CL_WAITX. R246: The cluster executes WAITX, waiting for the transfer engine. -/
  | clWaitx (j : Fin 512)
  /-- CL_TIME. R244: The cluster executes TIME, reading the full stamp. -/
  | clTime (j : Fin 512)
  /-- CL_MSG. R247: The cluster executes MSG, posting one word to a Waystation. -/
  | clMsg (j : Fin 512)
  /-- CL_WAIT. R244: The cluster executes WAIT until an enabled interrupt is pending. -/
  | clWait (j : Fin 512)
  /-- CL_HALT. R244: The cluster executes HALT and may raise DONE. -/
  | clHalt (j : Fin 512)
  /-- CL_ILLEGAL. R244: A reserved opcode or field code raises the ILLEGAL trap. -/
  | clIllegal (j : Fin 512)
  /-- CL_INTERRUPT. R250: A pending enabled interrupt is taken at an instruction boundary, entering handler mode at 0xF40. -/
  | clInterrupt (j : Fin 512)
  /-- CL_FABRIC_PUSH. R245: Region logic pushes a beat into a cluster input queue. -/
  | clFabricPush (j : Fin 512) (lanes : Line) (poison : BitVec 16)
  /-- CL_FABRIC_POP. R245: Region logic pops a beat from a cluster output queue. -/
  | clFabricPop (j : Fin 512)
  /-- CL_REGION_IRQ. R250: A rising region interrupt line sets its pending bit. -/
  | clRegionIrq (j : Fin 512) (line : Fin 4) (level : Bool)
  /-- CL_XFER_RESPONSE. R246: A transfer line is answered, and the last answer completes the transfer and sets interrupt source 1. -/
  | clXferResponse (j : Fin 512) (k : Nat) (resp : Resp) (data : Line)
  /-- CL_CMD_START. R252: CL_CMD.start starts the cluster at CL_START. -/
  | clCmdStart (j : Fin 512)
  /-- CL_CMD_RESUME. R252: CL_CMD.resume continues a halted cluster. -/
  | clCmdResume (j : Fin 512)
  /-- CL_CMD_HALT. R252: CL_CMD.halt halts the cluster at the next boundary. -/
  | clCmdHalt (j : Fin 512)
  /-- CL_CMD_IRQ. R250: CL_CMD.irq sets interrupt pending bit 0. -/
  | clCmdIrq (j : Fin 512)
  /-- CL_CMD_LOAD_UCODE. R248: CL_CMD.load_ucode starts copying the microcode master into the shadow. -/
  | clCmdLoadUcode (j : Fin 512)
  /-- CL_UCODE_LOAD_DONE. R248: A microcode copy ends, setting ucode_valid or ucode_load. -/
  | clUcodeLoadDone (j : Fin 512) (words : List (BitVec 64)) (fail : Option (Nat × Resp))
  /-- CL_UCODE_REFETCH. R249: A shadow line with a bad CRC is refetched from the master, or the UFETCH trap is raised. -/
  | clUcodeRefetch (j : Fin 512) (resp : Resp) (data : Line)
  /-- CL_LM_DATA_READ. R253: A read of CL_LM_DATA reads local memory and increments CL_LM_ADDR. -/
  | clLmDataRead (j : Fin 512) (src : Src) (flips : Nat)
  /-- CL_LM_DATA_WRITE. R253: A write of CL_LM_DATA writes local memory and increments CL_LM_ADDR. -/
  | clLmDataWrite (j : Fin 512) (v : Word)
  /-- CL_REG_WRITE. R253: A write to cluster state registers takes effect only in RESET or HALTED. -/
  | clRegWrite (j : Fin 512) (off : BitVec 10) (v : Word)
  /-- DRAM_READ. R265: A READ request arrives at a controller and is queued or answered. -/
  | dramRead (who : Agent) (id addr len : Nat) (urgent : Bool)
  /-- DRAM_WRITE. R265: A WRITE request arrives at a controller and is queued. -/
  | dramWrite (who : Agent) (id addr len : Nat) (data : Line) (bad urgent : Bool)
  /-- DRAM_PARTIAL. R266: A PARTIAL request arrives and is queued as a read-modify-write. -/
  | dramPartial (who : Agent) (id addr len : Nat) (data : Line) (be : BitVec 64) (bad urgent : Bool)
  /-- DRAM_OR_WRITE. R266: An OR_WRITE request arrives and is queued or merged. -/
  | dramOrWrite (who : Agent) (id addr len : Nat) (mask : BitVec 64) (urgent : Bool)
  /-- CHECK_REQUEST. R263: A check-ring request for check bytes is served from the check-line cache or DRAM. -/
  | checkRequest (k : Fin 36)
  /-- BANK_SERVICE. R267: A bank queue serves its next request under the row and ordering rules. -/
  | bankService (k : Fin 36) (ch : Fin 4) (bank : Fin 32) (flips : Line) (cflips : BitVec 64)
  /-- CHECK_RING_TIMEOUT. R281: A check-ring request unanswered in 10 µs answers the waiting request TIMEOUT. -/
  | checkRingTimeout (k : Fin 36)
  /-- REFRESH_TICK. R271: Each refresh interval a per-bank refresh is issued or postponed. -/
  | refreshTick (k : Fin 36) (ch : Fin 4) (rank : Fin 2)
  /-- REFRESH_RATE_POLL. R272: Every 16 ms the controller reads device refresh status and raises HOT or COOL. -/
  | refreshRatePoll (k : Fin 36) (rates : BitVec 8)
  /-- POWERDOWN_IDLE. R273: After pd_idle with no request, the controller enters power-down. -/
  | powerdownIdle (k : Fin 36) (phase : Fin 3)
  /-- TRAINING_CHECKPOINT. R275: A training step reaches a checkpoint, advancing, retrying or storing results. -/
  | trainingCheckpoint (k : Fin 36) (ends : Bool) (pass : BitVec 4)
  /-- RETRAIN. R276: DMC_CMD.retrain retrains the active set point at once. -/
  | retrain (k : Fin 36)
  /-- AUTO_RETRAIN. R276: A temperature drift beyond DMC_RETRAIN_DT starts a retrain when no leg runs and the launch is far. -/
  | autoRetrain (k : Fin 36) (temp : BitVec 16)
  /-- SP_CFG_WRITE. R277: A write to DMC_SPn_CFG changes an inactive set point and discards its results, or is discarded. -/
  | spCfgWrite (k : Fin 36) (n : Fin 3) (v : Word)
  /-- SETPOINT_SWITCH_DONE. R278: A set-point switch ends and requests are admitted again. -/
  | setpointSwitchDone (k : Fin 36)
  /-- PPR. R280: DMC_CMD.ppr starts a post-package repair, or refuses it. -/
  | ppr (k : Fin 36)
  /-- PPR_DONE. R280: A post-package repair ends, the row is written back and the channel released. -/
  | pprDone (k : Fin 36) (ok : Bool)
  /-- MAP_APPLY. R261: DMC_MAP_CMD.apply stops admitting changed extents and starts their zero fill. -/
  | mapApply (q : Fin 4)
  /-- MAP_APPLY_DONE. R261: An apply fill ends, requests are admitted and MAP_DONE is raised. -/
  | mapApplyDone
  /-- INIT_FILL_EXTENT. R571: The initial fill of one extent ends and its waiting requests are served. -/
  | initFillExtent
  /-- ECC_WRITEBACK. R289: A corrected line is written back and read once more to verify. -/
  | eccWriteback (k : Fin 36) (flips : Line) (cflips : BitVec 64)
  /-- PATROL_VISIT. R295: The patrol decodes one data line in an idle cycle. -/
  | patrolVisit (k : Fin 36) (ch : Fin 4) (flips : Line) (cflips : BitVec 64)
  /-- ECC_CLEAR_LOG. R292: ECC_CMD.clear_log empties the controller's log. -/
  | eccClearLog (k : Fin 36)
  /-- KID_ACTIVATE. R314: PR_KID_CMD.activate starts key generation in a slot, or is refused. -/
  | kidActivate (slot : Fin 16) (kid : BitVec 8)
  /-- KID_GENERATED. R314: Key generation ends and the slot becomes ACTIVE. -/
  | kidGenerated (slot : Fin 16)
  /-- KID_RETIRE. R314: PR_KID_CMD.retire zeroises and empties a slot, or is refused. -/
  | kidRetire (slot : Fin 16)
  /-- ZEROISE. R315: PR_CMD.zeroise starts zeroising a range. -/
  | zeroise (n : Fin 16)
  /-- ZEROISE_DONE. R315: A zeroise ends, the range becomes READY and event 9 is raised. -/
  | zeroiseDone (n : Fin 16)
  /-- REKEY. R316: PR_CMD.rekey starts walking a range to a new slot, or is refused. -/
  | rekey (n slot : Fin 16)
  /-- REKEY_DONE. R316: A rekey walk ends and the range is bound to the target slot. -/
  | rekeyDone (n : Fin 16) (bad : List Nat)
  /-- TAG_CHECK_DONE. R311: Tag verification of a line ends, and a mismatch poisons it and sends taint notices. -/
  | tagCheckDone (k : Fin 36) (ix : Nat) (res : TagRes)
  /-- PR_CLEAR_LOG. R319: PR_CMD_LOG.clear_log empties the alarm log. -/
  | prClearLog
  /-- JUNCTION_PACKET. R330: A packet entering a junction is routed by coordinates toward its destination. -/
  | junctionPacket (j : Fin 260) (port : Fin 11) (head : Line) (payload : List Flit)
  /-- LINK_CRC_ERROR. R326: A flit failing its CRC is replayed from the sender's buffer. -/
  | linkCrcError (j : Fin 260) (port : Fin 11) (again : Bool)
  /-- REQUEST_TIMEOUT. R334: A non-posted request unanswered after timeout_ms completes locally with TIMEOUT. -/
  | requestTimeout (j : Fin 260) (n : Fin 6) (tag : BitVec 10)
  /-- PORT_CLOSE. R338: A domain's local ports start closing, answering new requests CLOSED. -/
  | portClose (d : Closure)
  /-- PORT_CLOSED. R338: A closing port has drained and becomes CLOSED. -/
  | portClosed (d : Closure)
  /-- PORT_REOPEN. R337: A closed port reopens once its domain is powered and out of reset. -/
  | portReopen (d : Closure)
  /-- SWAP. R340: NOC_JCMD.swap holds new heads and starts taking the shadow settings. -/
  | swap (j : Fin 260)
  /-- SWAP_PORT_DONE. R340: A port's wormhole ends and it takes the shadow settings. -/
  | swapPortDone (j : Fin 260) (port : Fin 11)
  /-- BAR2_READ. R346: A host read through BAR2 becomes line READs of tile DRAM. -/
  | bar2Read (id o n : Nat) (ans : List (Resp × Line))
  /-- BAR2_WRITE. R346: A host write through BAR2 becomes WRITE or PARTIAL requests. -/
  | bar2Write (o : Nat) (bytes : List Nat) (ans : List Resp)
  /-- BAR2_TIMEOUT. R347: A BAR2 read unanswered within HIF_BAR2_TMO completes with Completer Abort. -/
  | bar2Timeout (id : Nat)
  /-- WIN_BASE_WRITE. R346: A write of HIF_WIN_BASE moves the window for later BAR2 requests. -/
  | winBaseWrite (v : Word)
  /-- RING_CFG_WRITE. R350: A write of RING_CFG enables, disables or is refused for a ring. -/
  | ringCfgWrite (r : Fin 256) (v : Word)
  /-- DOORBELL_PI. R351: A PI doorbell write posts descriptors, or is ignored as bad. -/
  | doorbellPi (r : Fin 256) (v : Word)
  /-- DOORBELL_CI. R361: A CI doorbell write releases entries and may advance FL_ACK_PTR. -/
  | doorbellCi (r : Fin 256) (v : Word)
  /-- DESC_FETCH. R353: A fetched descriptor is checked for ownership, or a failed fetch halts the channel. -/
  | descFetch (r : Fin 256) (ans : Option Line)
  /-- DESC_NOP. R356: A NOP descriptor completes OK with no access. -/
  | descNop (n : Fin 64)
  /-- H2T. R354: An H2T descriptor moves host data into tile DRAM. -/
  | h2t (n : Fin 64)
  /-- T2H. R354: A T2H descriptor moves tile data to the host. -/
  | t2h (n : Fin 64)
  /-- T2T. R354: A T2T descriptor moves data within tile DRAM. -/
  | t2t (n : Fin 64)
  /-- FAIL. R360: A FAIL descriptor drains the quarter's record buffer under pacing. -/
  | fail (n : Fin 64)
  /-- DESC_RESERVED_OP. R355: A descriptor with a reserved op ends BAD_DESC and halts the channel. -/
  | descReservedOp (n : Fin 64)
  /-- DMA_DATA_RESPONSE. R355: A DMA tile or host request is answered, and a failure halts the channel. -/
  | dmaDataResponse (n : Fin 64) (slot : Fin 5) (ix : Nat) (ans : DmaAns)
  /-- DESC_WRITEBACK. R352: A finished descriptor is written back in ring order and RING_HEAD advances. -/
  | descWriteback (r : Fin 256)
  /-- DRAIN_WAIT. R360: A non-zero drain level waiting DMA_PACE_WAIT starts draining. -/
  | drainWait (n : Fin 64) (q : Fin 4)
  /-- DMA_ABORT. R357: DMA_CMD.abort writes executing descriptors back ABORTED. -/
  | dmaAbort (n : Fin 64)
  /-- DMA_RESTART. R357: DMA_CMD.restart continues a halted channel after the failed descriptor. -/
  | dmaRestart (n : Fin 64)
  /-- DMA_SKIP. R357: DMA_CMD.skip advances the drain pointer to the next line boundary. -/
  | dmaSkip (n : Fin 64)
  /-- T2_START. R363: DMA_CMD.t2_start runs a register-programmed T2 transfer. -/
  | t2Start (n : Fin 64)
  /-- DMA_CTRL_WRITE. R357: A write of DMA_CTRL enables, stops or changes a channel. -/
  | dmaCtrlWrite (n : Fin 64) (v : Word)
  /-- IRQ_HOLDOFF. R359: A ring's holdoff ends and merged completions send one interrupt. -/
  | irqHoldoff (r : Fin 256)
  /-- LINK_UP. R369: The PCIe link comes up and event 112 is raised. -/
  | linkUp (speed : Fin 6) (width : Nat)
  /-- D3HOT_ENTRY. R365: The host places the function in D3hot. -/
  | d3hotEntry
  /-- D3HOT_EXIT. R365: The function returns to D0 and pending messages are sent. -/
  | d3hotExit
  /-- BUS_MASTER_ENABLE. R373: A change of Bus Master Enable holds or releases host requests and pending messages. -/
  | busMasterEnable (on : Bool)
  /-- GET_VERSION. R489: The SPDM GET_VERSION request is answered. -/
  | getVersion
  /-- GET_CAPABILITIES. R489: The SPDM GET_CAPABILITIES request is answered. -/
  | getCapabilities
  /-- NEGOTIATE_ALGORITHMS. R489: The SPDM NEGOTIATE_ALGORITHMS request offers only SHA-384 and P-384. -/
  | negotiateAlgorithms
  /-- GET_MEASUREMENTS. R489: The SPDM GET_MEASUREMENTS request returns MR values signed by the device key. -/
  | getMeasurements (index : Fin 256) (sign : Bool) (nonce : Nat)
  /-- CHALLENGE. R489: The SPDM CHALLENGE request is answered with a device-key signature. -/
  | challenge (slot : Fin 8) (nonce : Nat)
  /-- GET_DIGESTS. R489: The SPDM GET_DIGESTS request serves slot 0. -/
  | getDigests
  /-- GET_CERTIFICATE. R489: The SPDM GET_CERTIFICATE request returns the slot 0 chain. -/
  | getCertificate (slot : Fin 8) (offset len : Nat)
  /-- SPDM_UNSUPPORTED. R489: Any other SPDM request is answered ERROR UnsupportedRequest. -/
  | spdmUnsupported
  /-- EVENT_PACKET. R372: A raised event reaches the router, which latches it and may record, forward and signal it. -/
  | eventPacket
  /-- EVENT_FLUSH. R375: flush_us after a buffer's first record, the buffer is written back. -/
  | eventFlush (r : Fin 256)
  /-- EV_ROUTE_WRITE. R372: A write of EV_ROUTE clearing mask while the latch is set asks for the vector once. -/
  | evRouteWrite (e : Fin 768) (v : Word)
  /-- MSIX_UNMASK. R373: Unmasking a vector with its pending bit set sends the message once. -/
  | msixUnmask (x : MsixSet)
  /-- EVENT_FWD. R377: A received EVENT_FWD record is passed up, or written to EV_FWD_RING on the manager with event 13. -/
  | eventFwd (u : Fin 8) (seq ack num tile epoch cause flags rseq stamp : Nat) (payload : List Nat)
  /-- TRK_CTRL_WRITE. R394: A write of TRK_CTRL enables a port or sets its role, or is discarded. -/
  | trkCtrlWrite (u : Fin 8) (v : Word)
  /-- CK_DETECT. R384: The peer's CK is detected and training enters STARTUP. -/
  | ckDetect (u : Fin 8) (serial : Nat)
  /-- TRK_TRAINING_END. R384: A training attempt ends ACTIVE with HELLO sent, or fails and is retried or goes FAILED. -/
  | trkTrainingEnd (u : Fin 8) (e : TrainEnd) (cable : Option (Int × Int))
  /-- TRK_RETRY. R384: Every 1 s a FAILED port starts a new training attempt. -/
  | trkRetry (u : Fin 8)
  /-- BLOCK_LOCK_LOSS. R388: A lane losing block lock puts an ACTIVE port in RECOVERY. -/
  | blockLockLoss (u : Fin 8) (lane : Fin 4)
  /-- TRK_ERROR_WINDOW. R388: Errors exceeding TRK_ERR_LIMIT in 1 ms put the port in RECOVERY. -/
  | trkErrorWindow (u : Fin 8) (corrected : Nat)
  /-- RECOVERY_TIMEOUT. R388: A recovery not ended in 1.5 ms falls back to full training with link_down. -/
  | recoveryTimeout (u : Fin 8)
  /-- TRK_RETRAIN. R387: TRK_CMD.retrain discards stored coefficients and runs full training. -/
  | trkRetrain (u : Fin 8)
  /-- TEST_START. R392: TRK_CMD.test_start sends TEST_REQ and enters TEST, or is refused. -/
  | testStart (u : Fin 8)
  /-- TEST_STOP. R392: TRK_CMD.test_stop ends a lane test and retrains. -/
  | testStop (u : Fin 8) (errs : List Nat) (compared : Nat)
  /-- TRK_TEST_TIMEOUT. R392: A lane test ends after TRK_TEST.ms and retrains. -/
  | trkTestTimeout (u : Fin 8) (errs : List Nat) (compared : Nat)
  /-- INJECT. R393: TRK_CMD.inject starts error injection on a lane, or is ignored. -/
  | inject (u : Fin 8)
  /-- INJECT_TICK. R393: Every 1 µs one injected error is applied until count is reached. -/
  | injectTick (u : Fin 8)
  /-- RESEND_TIMER. R391: 10 µs without acknowledgement resends reliable messages from the oldest. -/
  | resendTimer (u : Fin 8)
  /-- IDLE. R389: A received IDLE message carries acknowledgements. -/
  | idle (u : Fin 8) (ack : Nat)
  /-- HELLO. R395: A received HELLO gives the peer's serial, epoch, number and hop count. -/
  | hello (u : Fin 8) (seq ack serial epoch tile hops role : Nat)
  /-- ENROL_REQ. R395: A received ENROL_REQ is passed up with the path, refused, or decided by the manager. -/
  | enrolReq (u : Fin 8) (seq ack serial epoch : Nat) (path : List Nat) (alt : Bool) (nonce mask : Nat)
  /-- ENROL_GRANT. R395: A received ENROL_GRANT sets HY_SELF and starts discipline over the trunk. -/
  | enrolGrant (u : Fin 8) (seq ack serial tile hops : Nat) (d : SegData) (cable : Option (Int × Int))
  /-- ENROL_REFUSE. R395: A received ENROL_REFUSE leaves the member unenrolled with the reason. -/
  | enrolRefuse (u : Fin 8) (seq ack serial code : Nat)
  /-- QUOTE_REQ. R489: A received QUOTE_REQ makes the tile sign a quote and return it. -/
  | quoteReq (u : Fin 8) (seq ack serial nonce mask : Nat)
  /-- QUOTE. R490: A received QUOTE is verified by the manager's firmware during enrolment. -/
  | quote (u : Fin 8) (seq ack serial : Nat) (last : Bool) (bytes : List Nat) (verified : Bool) (d : SegData)
  /-- QUOTE_TIMEOUT. R395: A quote not returned within 200 ms refuses the enrolment with QUOTE. -/
  | quoteTimeout (serial : Nat)
  /-- LOST. R398: A received LOST makes the manager mark the entry LOST. -/
  | lost (u : Fin 8) (seq ack tile serial : Nat)
  /-- SLEEP. R400: A received SLEEP marks the port ASLEEP with a wake detector. -/
  | sleep (u : Fin 8) (seq ack : Nat)
  /-- POWERFAIL. R389: A received POWERFAIL is passed to the manager and raises event 168. -/
  | powerfail (u : Fin 8) (seq ack tile mark : Nat)
  /-- MAILBOX. R435: A received MAILBOX delivers a Waystation word or credits from a trunk peer. -/
  | mailbox (u : Fin 8) (seq ack : Nat) (n : Fin 32) (flags credits epoch word bells : Nat)
  /-- CONTROL. R389: A received CONTROL message is handed to firmware. -/
  | control (u : Fin 8) (seq ack : Nat) (payload : List Nat) (seg : Option SegData)
  /-- TEST_REQ. R392: A received TEST_REQ puts the port in TEST. -/
  | testReq (u : Fin 8) (seq ack v : Nat)
  /-- TRK_BAD_MESSAGE. R389: A message with a reserved type or bad CRC is discarded and counted. -/
  | trkBadMessage (u : Fin 8) (kind : Fin 3) (timed : Nat)
  /-- FAILOVER. R397: The UP port inactive for failover_ms with an alternate ready switches the upstream. -/
  | failover (cable : Option (Int × Int))
  /-- DOWN_PORT_LOST. R398: A DOWN link out of ACTIVE for 1 s without SLEEP sends LOST upstream. -/
  | downPortLost (u : Fin 8)
  /-- TRK_WAKE. R400: A peer driving CK on an ASLEEP port wakes the tile. -/
  | trkWake (u : Fin 8)
  /-- HY_TAB_WRITE. R402: A write to the hierarchy table window reserves an entry, or is discarded. -/
  | hyTabWrite (word : Fin 3) (v : Word)
  /-- CW_PUSH. R410: A write of CW_TX_PUSH queues an ACTION or NOTE frame, or refuses it. -/
  | cwPush (v : Word)
  /-- CW_BUS_IDLE. R407: 1 µs without a symbol makes the bus idle and opens a contention window. -/
  | cwBusIdle (draw : Fin 4)
  /-- CW_SLOT. R407: A frame's chosen slot arrives and it starts sending if no other start was sensed. -/
  | cwSlot (other : Bool)
  /-- CW_COLLISION. R408: A read-back mismatch stops driving and retries in the next window. -/
  | cwCollision
  /-- CW_FRAME_SENT. R412: A frame reaches its end symbol, and an ACTION naming the sender queues its own entry. -/
  | cwFrameSent
  /-- CW_JABBER. R409: The driver active over 3 µs is shut off with event 182. -/
  | cwJabber (mt : Nat)
  /-- CW_BUS_STUCK. R409: The bus busy over 3 µs counts a bus fault with event 182. -/
  | cwBusStuck (mt : Nat)
  /-- ACTION_FRAME. R415: A received ACTION frame is checked and inserted into the launch queue where its scope matches. -/
  | actionFrame (x : RxFrame)
  /-- BEACON_FRAME. R417: A received BEACON is checked and its offset computed and judged. -/
  | beaconFrame (x : RxFrame) (rx : Nat)
  /-- NOTE_FRAME. R415: A received NOTE is checked and raises event 181. -/
  | noteFrame (x : RxFrame)
  /-- CW_RESERVED_FRAME. R413: A frame of reserved type or bad coding is dropped and counted. -/
  | cwReservedFrame (x : RxFrame) (ftype : Fin 16)
  /-- CW_BEACON_TIMER. R417: Every CW_BEACON_MS a beacon source queues a BEACON. -/
  | cwBeaconTimer
  /-- STRANGER_WINDOW. R416: Each 1 ms window judges the stranger count for entering or leaving QUARANTINE. -/
  | strangerWindow
  /-- TX_RESET. R409: CW_CMD.tx_reset lets a silenced port transmit again. -/
  | txReset
  /-- Q_EXIT. R416: CW_CMD.q_exit leaves QUARANTINE with event 179. -/
  | qExit
  /-- CW_MEMBER_WRITE. R414: A write to a member entry clears its seq_valid. -/
  | cwMemberWrite (m : Fin 64) (word : Fin 2) (v : Word)
  /-- WS_TX. R424: A write of WS_x_TX adds a word to the open message, or is refused. -/
  | wsTx (n : Fin 32) (x : Fin 2) (src : Src) (v : Word)
  /-- WS_SEND. R424: A write of WS_x_SEND closes and stamps the message and rings doorbells. -/
  | wsSend (n : Fin 32) (x : Fin 2) (src : Src) (bells : Word)
  /-- WS_RXDATA. R427: A read of WS_x_RXDATA returns and removes the next word, raising EMPTY when the queue empties. -/
  | wsRxdata (n : Fin 32) (x : Fin 2) (src : Src)
  /-- WS_LOCK_READ. R431: A read of WS_LOCK takes a free lock or returns the owner. -/
  | wsLockRead (n : Fin 32) (src : Src)
  /-- WS_LOCK_WRITE. R431: A write of 0 by the owner frees the lock; any other write is discarded. -/
  | wsLockWrite (n : Fin 32) (src : Src) (v : Word)
  /-- LOCK_BREAK. R432: WS_CMD.lock_break frees the lock with LOCK_BROKEN. -/
  | lockBreak (n : Fin 32)
  /-- WS_FLUSH. R434: WS_CMD.flush empties both queues and clears doorbells. -/
  | wsFlush (n : Fin 32) (src : Src)
  /-- WS_CFG_WRITE. R437: A write of WS_CFG binds parties while disabled, or is discarded. -/
  | wsCfgWrite (n : Fin 32) (v : Word)
  /-- CFG_LOAD. R445: CFG_CMD.load starts a region or full load, or reports BUSY. -/
  | cfgLoad
  /-- CFG_CHUNK. R448: Source data of a chunk arrives, is authenticated and its frames are checked and written. -/
  | cfgChunk (p : Fin 5) (d : CfgData)
  /-- CFG_CLAMP. R446: At K the region is clamped, held, its group aborted and its ports start closing. -/
  | cfgClamp (p : Fin 5)
  /-- CFG_RELEASE. R449: After the last chunk the region is initialised and released, with events 184 and LOADED. -/
  | cfgRelease (p : Fin 5) (imgs : List RegionImage)
  /-- CFG_ABORT. R450: CFG_CMD.abort ends the quarter's load with reason ABORTED. -/
  | cfgAbort (q : Fin 4)
  /-- CFG_READBACK. R454: CFG_CMD.readback copies frames of a region to tile DRAM. -/
  | cfgReadback
  /-- SWEEP_VISIT. R462: The Sweeper reads and decodes one frame and corrects it. -/
  | sweepVisit (q : Fin 4) (upset : Nat) (avenueBad : Bool)
  /-- SWEEP_RELOAD. R463: A frame beyond correction is reloaded from its flash slot, or left and the region marked suspect. -/
  | sweepReload (result : Fin 5)
  /-- SWEEP_LAP_END. R465: A Sweeper lap ends, is checked and reported, and the watchdog restarts. -/
  | sweepLapEnd (differs : Option (Fin 4 × Nat × Nat))
  /-- SWEEP_LAP_LATE. R466: A lap reaching twice the target sets lap_late. -/
  | sweepLapLate
  /-- SWEEP_WATCHDOG. R467: The hub watchdog expiring forces the Sweeper into RESTART, and after three disables it. -/
  | sweepWatchdog
  /-- RESTART_LAP. R477: SW_CMD.restart_lap discards the lap and starts again. -/
  | restartLap
  /-- CLEAR_SUSPECT. R463: SW_CMD.clear_suspect clears SW_SUSPECT. -/
  | clearSuspect
  /-- BIST_SLICE. R472: BIST_CMD.slice starts a slice test of the target, or is refused. -/
  | bistSlice
  /-- BIST_PERIODIC. R472: Every BIST_INTERVAL a slice test starts on the next eligible target. -/
  | bistPeriodic
  /-- BIST_SLICE_DONE. R473: A slice test ends, applying spares and logging, with event 209. -/
  | bistSliceDone (fails : List BistFail)
  /-- DRAM_FULL. R474: BIST_CMD.dram_full starts a full DRAM march, or is refused. -/
  | dramFull
  /-- DRAM_FULL_DONE. R474: The full DRAM march ends with DRAM zeroed and event 208. -/
  | dramFullDone (rows : List BistFail) (us : Nat)
  /-- PPR_APPLY. R470: BIST_CMD.ppr_apply runs a repair for each row pending PPR. -/
  | pprApply
  /-- BIST_CLEAR_LOG. R478: BIST_CMD.clear_log empties the BIST log. -/
  | bistClearLog
  /-- EXTEND. R484: SEC_CMD.extend extends the selected software MR, or is refused for MR0–MR7. -/
  | extend
  /-- NEW_CHALLENGE. R491: SEC_CMD.new_challenge draws a fresh unlock nonce. -/
  | newChallenge (nonce : Nat)
  /-- UNLOCK. R491: SEC_CMD.unlock checks the response and raises the debug level, or counts a failure. -/
  | unlock (sigOk : Bool)
  /-- RELOCK. R491: SEC_CMD.relock returns the debug level to LOCKED. -/
  | relock
  /-- RECOVER. R487: SEC_CMD.recover checks and starts the firmware image in recovery SRAM. -/
  | recover (check : Fin 4) (header body config : Nat)
  /-- LOCKOUT_END. R491: 60 s after the third failure, unlocks are accepted again. -/
  | lockoutEnd
  /-- TAMPER. R483: VBAT, lid or temperature out of range erases the battery-backed store. -/
  | tamper (flag : Fin 3)
  /-- KEY_IMPORT. R481: A firmware service imports a wrapped fuse or battery-backed key, or refuses it. -/
  | keyImport (fuse tagOk : Bool) (key : Nat)
  /-- QUOTE_SERVICE. R489: A Waystation quote request makes firmware write a signed quote and reply. -/
  | quoteService (n : Fin 32) (x : Fin 2)
  /-- SIGNPOST_JUDGE. R498: Signpost re-judges the quarters and tile and chooses each power state. -/
  | signpostJudge
  /-- SIGNPOST_WAKE. R498: Signpost starts a timed wake before the next launch. -/
  | signpostWake
  /-- WAKE_DONE. R497: A wake ends and the domain's waiting entries become ready. -/
  | wakeDone (dom : Fin 5) (cals : List GroupCal) (x : PowerUp)
  /-- WAKE_NOW. R500: PWR_CMD.wake_now wakes domains in IDLE or STANDBY. -/
  | wakeNow
  /-- SEAL_NOW. R505: PWR_CMD.seal_now starts a controlled seal with cause COMMAND. -/
  | sealNow (ls : List Levels)
  /-- RESTORE. R510: PWR_CMD.restore copies the latest unreleased vault slot into DRAM, or is refused. -/
  | restore
  /-- RESTORE_DONE. R510: A restore ends and event 6 is raised with RESTORED. -/
  | restoreDone (pages : List (Fin 16384))
  /-- VAULT_RELEASE. R510: PWR_CMD.release marks the restored slot released. -/
  | vaultRelease
  /-- VAULT_ERASE_DONE. R507: Firmware finishes erasing the next vault slot and vault_ready becomes 1. -/
  | vaultEraseDone (spare : Bool)
  /-- RAIL_FAULT. R496: A rail out of regulation for 10 µs takes a quarter offline or starts a RAIL seal. -/
  | railFault (rail : Fin 11) (ls : List Levels)
  /-- THERMAL_WARN. R512: PWR_TEMP reaching PWR_TEMP_WARN raises event 4 with WARN. -/
  | thermalWarn (temp : BitVec 16)
  /-- THERMAL_CRIT. R512: PWR_TEMP reaching PWR_TEMP_CRIT starts a THERMAL seal. -/
  | thermalCrit (temp : BitVec 16) (ls : List Levels)
  /-- THERMAL_CLEAR. R512: The temperature falling below PWR_TEMP_WARN raises event 4 with CLEAR. -/
  | thermalClear (temp : BitVec 16)
  /-- INPUT_LOSS. R502: Input out of range for the debounce time stamps the power-fail mark. -/
  | inputLoss (ls : List Levels)
  /-- INPUT_RIDE_THROUGH. R502: Input returning within the debounce time is a ride-through with event 1. -/
  | inputRideThrough (us : Nat)
  /-- BUS_UNDERVOLTAGE. R502: The 48 V bus falling below 40 V stamps the power-fail mark. -/
  | busUndervoltage (mv : BitVec 16) (ls : List Levels)
  /-- INPUT_RETURN. R506: Input returning during a seal completes it and performs a tile reset. -/
  | inputReturn (us : Nat)
  /-- OPERATION. R505: PMBus OPERATION turns the tile on, or off by a controlled seal. -/
  | operation (v : Option (BitVec 8)) (ls : List Levels)
  /-- CLEAR_FAULTS. R513: PMBus CLEAR_FAULTS clears inactive STATUS bits. -/
  | clearFaults
  /-- CAPABILITY. R513: PMBus CAPABILITY returns 0xB0. -/
  | capability
  /-- STATUS_WORD. R513: PMBus STATUS_WORD returns the summary status bits. -/
  | statusWord
  /-- STATUS_INPUT. R513: PMBus STATUS_INPUT returns the input status. -/
  | statusInput
  /-- STATUS_TEMPERATURE. R513: PMBus STATUS_TEMPERATURE returns the temperature status. -/
  | statusTemperature
  /-- READ_VIN. R513: PMBus READ_VIN returns the input voltage. -/
  | readVin
  /-- READ_IIN. R513: PMBus READ_IIN returns the input current. -/
  | readIin
  /-- READ_PIN. R513: PMBus READ_PIN returns the input power. -/
  | readPin
  /-- READ_TEMPERATURE_1. R513: PMBus READ_TEMPERATURE_1 returns the base-plate temperature. -/
  | readTemperature1
  /-- PMBUS_REVISION. R513: PMBus PMBUS_REVISION returns 0x44. -/
  | pmbusRevision
  /-- MFR_ID. R513: PMBus MFR_ID returns LRVN. -/
  | mfrId
  /-- MFR_MODEL. R513: PMBus MFR_MODEL returns RHT4-2T1K. -/
  | mfrModel
  /-- MFR_SERIAL. R513: PMBus MFR_SERIAL returns the 8-byte serial. -/
  | mfrSerial
  /-- PMBUS_UNSUPPORTED. R513: Any other PMBus command or value is not acknowledged. -/
  | pmbusUnsupported (code : BitVec 8)
  /-- OD_MEASURE. R517: OD_INTERVAL after the last measurement, a measurement starts in the next window. -/
  | odMeasure (q : Fin 4)
  /-- MEASURE_NOW. R517: OD_CMD.measure_now makes a quarter's measurement due at once. -/
  | measureNow (q : Fin 4)
  /-- OD_MEASURE_DONE. R519: A measurement ends and margins and equivalent age are computed. -/
  | odMeasureDone (q : Fin 4) (reps : List (Nat × Nat)) (rings : List Nat) (temp : Int) (dlm : List Int)
  /-- OD_OVERDUE. R517: A quarter unmeasured at twice OD_INTERVAL raises OVERDUE. -/
  | odOverdue (q : Fin 4)
  /-- OD_STORE. R520: Every 24 h firmware stores the code and equivalent age. -/
  | odStore
  /-- TWIVEL_PEEK. R533: A PEEK frame reads a register with no side effect. -/
  | twivelPeek (a : BitVec 24) (quick : Bool) (x : CsrEnv)
  /-- TWIVEL_TAKE. R533: A TAKE frame reads a register with its side effects as firmware. -/
  | twivelTake (a : BitVec 24) (quick : Bool) (x : CsrEnv)
  /-- TWIVEL_WRITE. R533: A WRITE frame writes a register as firmware. -/
  | twivelWrite (a : BitVec 24) (v : Word) (quick : Bool) (x : CsrEnv)
  /-- TWIVEL_RESULT. R530: A RESULT frame returns the held outcome or WAIT. -/
  | twivelResult
  /-- TWIVEL_BAD_OP. R529: A frame with a reserved op or bad parity is answered FAULT. -/
  | twivelBadOp (op : BitVec 4) (a : BitVec 24) (parity : Bool)
  /-- TWIVEL_ACCESS_DONE. R530: A held access completes and its outcome is kept for RESULT. -/
  | twivelAccessDone (x : CsrEnv)
  /-- TWIVEL_PROTOCOL_RESET. R531: TWIO held at 1 for 64 cycles resets the frame protocol. -/
  | twivelProtocolReset
  /-- HALT_CORE. R535: DBG_CMD.halt_core asks the management cores to halt. -/
  | haltCore
  /-- CORES_HALTED. R535: The cores halt once firmware frees its locks or 1,024 cycles pass, with event 216. -/
  | coresHalted (pc : Word)
  /-- RESUME_CORE. R536: DBG_CMD.resume_core resumes the cores with event 217. -/
  | resumeCore
  /-- STEP_CORE. R536: DBG_CMD.step_core runs one instruction and halts. -/
  | stepCore (pc : Word)
  /-- HALT_CL. R537: DBG_CMD.halt_cl halts the selected cluster. -/
  | haltCl
  /-- RESUME_CL. R537: DBG_CMD.resume_cl resumes the selected cluster. -/
  | resumeCl
  /-- STEP_CL. R537: DBG_CMD.step_cl steps the selected cluster one boundary. -/
  | stepCl
  /-- SD_RESET. R531: DBG_CMD.sd_reset resets the standby domain. -/
  | sdReset
  /-- WDG_KICK. R538: A firmware write of WDG_KICK reloads the watchdog. -/
  | wdgKick (src : Src)
  /-- WDG_EXPIRE. R538: The watchdog expires and restarts the management cores. -/
  | wdgExpire
  /-- DETOUR_BREAK. R539: A fetch of a BREAK word at FULL halts the cores with event 218. -/
  | detourBreak (a : Fin 0x800000) (pc : Word)
  /-- DTR_WRITE. R540: A write to Detour registers changes a unit and extends MR6, or is discarded. -/
  | dtrWrite (src : Src) (d : Fin 32) (w : Fin 4) (v : Word)
  /-- REF_IN_RETURN. R43: REF_IN returns on a manager in REFIN mode that was in HOLDOVER, so it reacquires and leaves HOLDOVER. -/
  | refInReturn
  /-- COMPLETION_TIMEOUT. R355: A host read issued by a DMA channel gets no completion within the PCIe completion timeout, and the descriptor ends HOST_ERR. -/
  | completionTimeout (n : Fin 64) (slot : Fin 5) (ix : Nat)
  /-- HOST_LINK_TRAINING. R500: The host starts PCIe link training while the tile is DORMANT or SEALED, which wakes the tile with wake cause host link. -/
  | hostLinkTraining
  /-- RECOVERY_REQUEST. R388: The peer's training sets ask for recovery, and the ACTIVE port enters RECOVERY. -/
  | recoveryRequest (u : Fin 8)
  /-- READBACK_DONE. R454: A configuration readback finishes its last destination write, ends or fails, and raises event 186. -/
  | readbackDone (q : Fin 4) (ok : Bool)
  /-- SEAL_COMPLETE. R504: Vault programming of a seal ends: the record is checked, event 2 DONE is raised, and the tile enters SEALED or takes the tile reset of R506. -/
  | sealComplete (ok : Bool) (b : Boot)
  /-- SWEEPER_COPY_VOTE. R465: A disagreeing copy of the Sweeper's triplicated control state is found in the per-hub-cycle vote and rewritten, with SW_TMR_CNT and event 194. -/
  | sweeperCopyVote (copy : Fin 3)
deriving DecidableEq, Repr

end Sys2Proof
end

