-- ==== Sys2Proof/Decode.lean ====
section
/-! DEFINITION. The opcode table gives no row any bits: commands are register accesses, messages, pins and events, so no word spells
one and there is nothing to decode. -/

namespace Sys2Proof

/-- No word of any width spells a command of the table. -/
def decodeTableWord (_nbits _w : Nat) : Option Instr := none

end Sys2Proof
end

