-- ==== Sys2Proof/Machine/Operands.lean ====
section
/-! DEFINITION. Operand forms: signed values held in fields of fixed width, words as bytes in little-endian order (00 R7),
and the two checksums of the manual. -/

namespace Sys2Proof.Machine

/-- The signed value of the `w`-bit pattern `n`. -/
def signedOf (w n : Nat) : Int := if n % 2 ^ w < 2 ^ (w - 1) then (n % 2 ^ w : Int) else (n % 2 ^ w : Int) - 2 ^ w
/-- The `w`-bit two's complement pattern of `v`. -/
def patternOf (w : Nat) (v : Int) : Nat := (v % (2 ^ w : Nat)).toNat
/-- `v` held within the signed range of `w` bits. -/
def clampS (w : Nat) (v : Int) : Int := max (-(2 ^ (w - 1) : Nat)) (min v (2 ^ (w - 1) - 1 : Nat))
/-- `v` held within `-b` and `b`. -/
def clampAbs (b : Nat) (v : Int) : Int := max (-(b : Int)) (min v b)
/-- `n` held below `2^w`. -/
def satN (w n : Nat) : Nat := min n (2 ^ w - 1)

/-- Ones among the `k` low bits of `n`. -/
def onesN : Nat → Nat → Nat
  | 0, _ => 0
  | k + 1, n => n % 2 + onesN k (n / 2)

/-- The `k` low bytes of `n`, least significant first (00 R7). -/
def bytesLE : Nat → Nat → List Nat
  | 0, _ => []
  | k + 1, n => n % 256 :: bytesLE k (n / 256)
/-- The number whose bytes, least significant first, are given. -/
def numLE : List Nat → Nat
  | [] => 0
  | b :: bs => b % 256 + 256 * numLE bs
/-- The bytes cut into 32-bit words, for as many words as `k`. -/
def wordsLE : Nat → List Nat → List Nat
  | 0, _ => []
  | k + 1, bs => numLE (bs.take 4) :: wordsLE k (bs.drop 4)

/-- One bit step of the reflected CRC-32C (Castagnoli). -/
def crc32cBit (c : Nat) : Nat := if c % 2 = 1 then (c / 2) ^^^ 0x82F63B78 else c / 2
/-- One byte of CRC-32C. -/
def crc32cByte (c b : Nat) : Nat :=
  crc32cBit (crc32cBit (crc32cBit (crc32cBit (crc32cBit (crc32cBit (crc32cBit (crc32cBit (c ^^^ (b % 256)))))))))
/-- CRC-32C of a byte string: initial value and final inversion all ones. -/
def crc32c (bs : List Nat) : Nat := (bs.foldl crc32cByte 0xFFFFFFFF) ^^^ 0xFFFFFFFF

/-- One bit step of the CRC-16 of 06 R153: polynomial 0x1021, most significant bit first. -/
def crc16Bit (c : Nat) : Nat := if c / 0x8000 % 2 = 1 then (2 * c) % 0x10000 ^^^ 0x1021 else (2 * c) % 0x10000
/-- One byte of CRC-16. -/
def crc16Byte (c b : Nat) : Nat :=
  crc16Bit (crc16Bit (crc16Bit (crc16Bit (crc16Bit (crc16Bit (crc16Bit (crc16Bit (c ^^^ (b % 256 * 256)))))))))
/-- CRC-16 of a byte string: initial value 0xFFFF, no reflection, no final inversion (06 R153). -/
def crc16 (bs : List Nat) : Nat := bs.foldl crc16Byte 0xFFFF

end Sys2Proof.Machine
end

