-- ==== Sys2Proof/Machine/Logic.lean ====
section
/-! DEFINITION. The logic block as functions of its configuration and inputs (04 R95 to R109, R122): product terms, sums,
the XOR stage and carry, register modes and controls, wide-AND spines, match entries, the avenue rule. The frame layout that
selects them is not part of the manual (20 R439); these functions are what a loaded image is made of. -/

namespace Sys2Proof.Machine

/-- R96: a product term over the array inputs. `pos` and `neg` are the true and complement columns connected; a disabled
term is 0, an enabled one with no columns is 1, one with both columns of an input is 0. -/
def productTerm (enabled : Bool) (pos neg inputs : Nat) : Bool :=
  enabled && (pos &&& neg) = 0 && (inputs &&& pos) = pos && (inputs &&& neg) = 0

/-- R98: the sum of a macrocell is the OR of the terms routed to it; none routed gives 0. -/
def macrocellSum (terms : List Bool) : Bool := terms.any id

/-- R99: dedicated term `t` can be steered to macrocell `m` from macrocells m - 2 to m + 2 of its own LB. -/
def steerable (t m : Nat) : Bool := t < 48 && t / 3 ≤ m + 2 && m ≤ t / 3 + 2

/-- The XOR stage modes (Table 4.2). -/
inductive XorMode where
  | pos | neg | toggle | arith
deriving DecidableEq, Repr

/-- R100: the data value from the sum, the register output, dedicated term 3m + 2 and the carry-in. -/
def xorStage (m : XorMode) (s q b cin : Bool) : Bool :=
  match m with
  | .pos => s
  | .neg => !s
  | .toggle => s != q
  | .arith => (s != b) != cin

/-- R100, R101: the carry a macrocell passes on: the majority in ARITH mode, its carry-in otherwise. -/
def carryOut (m : XorMode) (s b cin : Bool) : Bool :=
  match m with
  | .arith => (s && b) || (s && cin) || (b && cin)
  | _ => cin

/-- The register modes (Table 4.3). -/
inductive RegMode where
  | d | t | latch | bypass
deriving DecidableEq, Repr

/-- What acts on a register at an instant (R103): region hold or region reset with the initial value, the asynchronous
controls, the synchronous reset, the clock enable, an active edge, an active clock level. -/
structure RegControls where
  hold   : Bool
  arst   : Bool
  aset   : Bool
  srst   : Bool
  ce     : Bool
  edge   : Bool
  level  : Bool
deriving DecidableEq, Repr

/-- R102 to R104: the register's next value, the highest control of R103 winning. -/
def nextReg (mode : RegMode) (k : RegControls) (q d : Bool) : Bool :=
  match mode with
  | .bypass => q
  | _ =>
    if k.hold then q
    else if k.arst then false
    else if k.aset then true
    else if k.srst && k.edge then false
    else if !k.ce then q
    else match mode with
      | .d => if k.edge then d else q
      | .t => if k.edge && d then !q else q
      | .latch => if k.level then d else q
      | .bypass => q

/-- R102: what the macrocell drives: its data value in BYPASS, its register otherwise. -/
def macrocellOut (mode : RegMode) (q d : Bool) : Bool :=
  match mode with
  | .bypass => d
  | _ => q

/-- R106, R107: pool term p of spine-group LB 3: the AND of the terms of those LBs 0 to 2 whose pool term is in SPINE with
its own; in SPINE itself it is constant 0. -/
def spineTerm (own : Bool) (ownInSpine : Bool) (others : List (Bool × Bool)) : Bool :=
  !ownInSpine && own && others.all fun o => !o.1 || o.2

/-- R108: an entry matches when it is valid and every masked key bit equals its value bit (Table 4.4). -/
def entryMatches (valid : Bool) (mask value key : Nat) : Bool :=
  valid && (key &&& mask) % 2 ^ 40 = (value &&& mask) % 2 ^ 40

/-- R109: the results of a lookup, from the match of each of the 56 entries: hit, multi, index (63 when none), group hits. -/
structure MatchResult where
  hit    : Bool
  multi  : Bool
  index  : Nat
  groups : Nat
deriving DecidableEq, Repr

/-- Results for the list of matching entry numbers, lowest first. -/
def matchResult (l : List Nat) : MatchResult :=
  ⟨!l.isEmpty, 1 < l.length, l.headD 63, l.foldl (fun m e => m ||| 2 ^ (e / 7)) 0⟩

/-- R122: at most one STATIC driver and no KEYED one, or no STATIC driver. -/
def avenueExclusive (statics keyed : Nat) : Bool := (statics ≤ 1 && keyed = 0) || statics = 0

/-- R121: a KEYED driver drives when the select value is its position and its output-enable term is 1. -/
def keyedDrives (select position : Nat) (oe : Bool) : Bool := oe && select = position

end Sys2Proof.Machine
end

