-- ==== Sys2Proof/Config.lean ====
section
/-! DEFINITION. What an implementation fixes and what the manual leaves open: constants with no body, so that nothing can be
proved of their values. A free value is applied to the state's count of free values used, or to the operands it depends on. -/

namespace Sys2Proof.Config

/-- Whether a window mismatch shorter than 48 MT is detected (07 R167: it may go undetected). -/
opaque shortMismatchSeen : Nat → Bool

/-- Syndrome of the (72,64) code for a pattern of upset cells (06 R149, 12: the code's columns are not in the manual). -/
opaque syndrome : Nat → Nat

/-- Result of a cluster shift by 64 or more: function code, value, amount (10 R244 states none). -/
opaque clusterShift : Nat → Nat → Nat → Nat

/-- Byte `i` of AES-256 of a 16-byte block under the encryption key generated as the `key`-th (13 R304): keys come from a true random
number generator and are never readable (R314). -/
opaque cipherByte : Nat → List Nat → Nat → Nat

/-- Byte of a range's metadata area after the range is turned off: key, address (13 R303, R317). -/
opaque metaByte : Nat → Nat → Nat

/-- Which of the lines of a full check-line cache gives way (11 R263 names no choice). -/
opaque checkVictim : Nat → Nat

/-- The 4 tag bytes of a Causeway frame as a number (18 R406): the segment key, none while its slot is not loaded, the 12 bytes
of the IV and the header and payload bytes. AES-GCM itself is not in the manual. -/
opaque causewayTag : Option Nat → List Nat → List Nat → Nat

/-- SHA-384 of a byte string, as a number with byte 0 least significant (the function itself is not in the manual). -/
opaque sha384 : List Nat → Nat

/-- The 96 signature bytes r then s the device key gives a byte string (22 R480, R488: the key never leaves the tile). -/
opaque deviceSign : List Nat → List Nat

/-- The bytes of the device certificate and the vendor intermediate of slot 0 (22 R480, R489). -/
opaque deviceCert : List Nat

/-- The fixed digest that extends MR4 at a state change (22 Table 22.2): 1 fuse-key import, 2 battery-key import, 3 store erase,
4 debug unlock, 5 relock. The manual gives no values. -/
opaque stateDigest : Nat → Nat

/-- The payload a readback returns for a LOGIC or AVENUE frame (20 R454): whether the image allows readback, frame index, stored
payload, user registers (captured or present), match entries of a live frame. The frames' layout is not in the manual. -/
opaque frameReadback : Bool → Nat → Nat → List (Nat × Nat) → List Nat → Nat

/-- Comparator levels of a strobe whose samples a command does not carry: bits 15 to 0 CMPH, 31 to 16 CMPL, 39 to 32 the region's
reflex inputs. -/
opaque freeLevels : Nat → Nat

/-- The 24 payload bytes of the record of an event (16 Table 16.3) as a number: its number and the values its chapter lists, whose places
in the payload the manual does not give. -/
opaque eventPayload : Nat → List Nat → Nat

/-- The data bits of a RESULT frame that returns the outcome of a write (25 Table 25.1 has the field, no rule its value). -/
opaque resultWord : Nat → Nat

end Sys2Proof.Config
end

