-- ==== Sys2Proof/Machine/Regs.lean ====
section
/-! DEFINITION. The registers of the CSR space, one name per field, taken from the register tables of spec/
(the table is cited at each field). A field is its register's CSR address, its lowest bit, its width and its reset value.
Units are numbered globally (00 R16). -/

namespace Sys2Proof.Machine

/-- A register field: CSR address of its word, lowest bit, width, reset value (00 R10). -/
structure Fld where
  addr  : Nat
  lo    : Nat
  width : Nat
  reset : Nat
deriving DecidableEq, Repr

/-- The number the register file keeps a field under: its word's CSR bit address plus its lowest bit. -/
def Fld.key (f : Fld) : Nat := f.addr * 8 + f.lo

/-- Start of quarter `q` in the CSR space (27 R563 Table 27.1). -/
def qBase (q : Nat) : Nat := 0x02000000 + q * 0x00800000
/-- Quarter block start: unit `u` of `n` units of `stride` bytes per quarter, at `off` (27 R565 Table 27.3). -/
def unitBase (off n stride u : Nat) : Nat := qBase (u / n) + off + (u % n) * stride
/-- Local ports of junction `j` with an endpoint (14 Table 14.1, R322, R323). -/
def nocPorts (j : Nat) : Nat :=
  if 256 ≤ j then (if j = 259 then 7 else 3)
  else
    let q := j / 64
    let mx := if q % 2 = 0 then j % 8 else 7 - j % 8
    let my := if q / 2 = 0 then j % 64 / 8 else 7 - j % 64 / 8
    if (mx = 0 ∧ my = 0) ∨ (my = 0 ∧ mx % 2 = 1) ∨ (mx = 0 ∧ my % 2 = 1) then 63
    else if mx = 1 ∧ my = 1 then 15
    else if mx = 7 ∧ my = 7 then 55
    else 7
/-- Mesh junction `j` (0 to 255, quarter times 64 plus junction) or hub junction 256 + h (27 Tables 27.2, 27.3). -/
def nocBase (j : Nat) : Nat := if j < 256 then unitBase 0x10000 64 0x100 j else 0x00110100 + (j - 256) * 0x100
/-- DRAM controller `c`, 0 to 35. -/
def dmcBase (c : Nat) : Nat := unitBase 0x20000 9 0x4000 c
/-- ECC and patrol of controller `c`. -/
def eccBase (c : Nat) : Nat := unitBase 0x50000 9 0x400 c
/-- Streamer `s`, 0 to 71. -/
def strBase (s : Nat) : Nat := unitBase 0x60000 18 0x400 s
/-- APG port of global pin group `g`. -/
def apgBase (g : Nat) : Nat := unitBase 0x68000 16 0x40 g
/-- Fail log of quarter `q`. -/
def flBase (q : Nat) : Nat := qBase q + 0x70000
/-- Pin channel `n`, 0 to 1023. -/
def pchBase (n : Nat) : Nat := unitBase 0x80000 256 0x100 n
/-- Pin group `g`, 0 to 63. -/
def pgrBase (g : Nat) : Nat := unitBase 0x90000 16 0x1000 g
/-- Cluster `j`, 0 to 511. -/
def clBase (j : Nat) : Nat := unitBase 0xA0000 128 0x400 j
/-- Block memory of region `r`, 0 to 63. -/
def bmBase (r : Nat) : Nat := unitBase 0xC0000 16 0x100 r
/-- Repair entry of memory block `b`, 0 to 10239 (region times 160 plus block). -/
def repBase (b : Nat) : Nat := unitBase 0xC8000 2560 0x8 b
/-- Region page of region `r`: load registers, fabric at +0x800. -/
def rgBase (r : Nat) : Nat := unitBase 0xD0000 16 0x1000 r
/-- Odometer sensors of quarter `q`. -/
def odqBase (q : Nat) : Nat := qBase q + 0xE0000
/-- BIST block of quarter `q`. -/
def qbBase (q : Nat) : Nat := qBase q + 0xF0000

/-- MP_CTRL[1:0] source, RW; Table 2.6. -/
def MP_CTRL.source : Fld := ⟨0x00010000, 0, 2, 0⟩
/-- MP_CTRL[2] en, RW; Table 2.6. -/
def MP_CTRL.en : Fld := ⟨0x00010000, 2, 1, 0⟩
/-- MP_CTRL[10:4] slew_limit, RW; Table 2.6. -/
def MP_CTRL.slew_limit : Fld := ⟨0x00010000, 4, 7, 100⟩
/-- MP_STATUS[2:0] state, RO; Table 2.6. -/
def MP_STATUS.state : Fld := ⟨0x00010000 + 0x4, 0, 3, 0⟩
/-- MP_STATUS[3] in_tol, RO; Table 2.6. -/
def MP_STATUS.in_tol : Fld := ⟨0x00010000 + 0x4, 3, 1, 0⟩
/-- MP_STATUS[4] slewing, RO; Table 2.6. -/
def MP_STATUS.slewing : Fld := ⟨0x00010000 + 0x4, 4, 1, 0⟩
/-- MP_STATUS[5] pending, RO; Table 2.6. -/
def MP_STATUS.pending : Fld := ⟨0x00010000 + 0x4, 5, 1, 0⟩
/-- MP_STATUS[6] acquired, RO; Table 2.6. -/
def MP_STATUS.acquired : Fld := ⟨0x00010000 + 0x4, 6, 1, 0⟩
/-- MP_STATUS[10:8] hops, RO; Table 2.6. -/
def MP_STATUS.hops : Fld := ⟨0x00010000 + 0x4, 8, 3, 0⟩
/-- MP_ERR[0] upstream_lost, W1C; Table 2.6. -/
def MP_ERR.upstream_lost : Fld := ⟨0x00010000 + 0x8, 0, 1, 0⟩
/-- MP_ERR[1] out_of_tol, W1C; Table 2.6. -/
def MP_ERR.out_of_tol : Fld := ⟨0x00010000 + 0x8, 1, 1, 0⟩
/-- MP_ERR[2] hop_limit, W1C; Table 2.6. -/
def MP_ERR.hop_limit : Fld := ⟨0x00010000 + 0x8, 2, 1, 0⟩
/-- MP_ERR[3] systime_behind, W1C; Table 2.6. -/
def MP_ERR.systime_behind : Fld := ⟨0x00010000 + 0x8, 3, 1, 0⟩
/-- MP_ERR[4] counter_fault, W1C; Table 2.6. -/
def MP_ERR.counter_fault : Fld := ⟨0x00010000 + 0x8, 4, 1, 0⟩
/-- MP_ERR[5] set_backward, W1C; Table 2.6. -/
def MP_ERR.set_backward : Fld := ⟨0x00010000 + 0x8, 5, 1, 0⟩
/-- MP_ERR[6] bad_value, W1C; Table 2.6. -/
def MP_ERR.bad_value : Fld := ⟨0x00010000 + 0x8, 6, 1, 0⟩
/-- MP_EPOCH[15:0] epoch, RO; Table 2.6. -/
def MP_EPOCH.epoch : Fld := ⟨0x00010000 + 0xC, 0, 16, 0⟩
/-- MP_NOW_LO[31:0] now_lo, RO; Table 2.6. -/
def MP_NOW_LO.now_lo : Fld := ⟨0x00010000 + 0x10, 0, 32, 0⟩
/-- MP_NOW_HI[31:0] now_hi, RO; Table 2.6. -/
def MP_NOW_HI.now_hi : Fld := ⟨0x00010000 + 0x14, 0, 32, 0⟩
/-- MP_NOW_TOP[7:0] now_top, RO; Table 2.6. -/
def MP_NOW_TOP.now_top : Fld := ⟨0x00010000 + 0x18, 0, 8, 0⟩
/-- MP_RATE_LO[31:0] rate_frac, RO; Table 2.6. -/
def MP_RATE_LO.rate_frac : Fld := ⟨0x00010000 + 0x20, 0, 32, 0⟩
/-- MP_RATE_HI[13:0] rate_int, RO; Table 2.6. -/
def MP_RATE_HI.rate_int : Fld := ⟨0x00010000 + 0x24, 0, 14, 10240⟩
/-- MP_OFFSET[31:0] offset, RO; Table 2.6. -/
def MP_OFFSET.offset : Fld := ⟨0x00010000 + 0x28, 0, 32, 0⟩
/-- MP_SLEW_REMAIN[31:0] remain, RO; Table 2.6. -/
def MP_SLEW_REMAIN.remain : Fld := ⟨0x00010000 + 0x2C, 0, 32, 0⟩
/-- MP_ALIGN_LIMIT[15:0] limit, RW; Table 2.6. -/
def MP_ALIGN_LIMIT.limit : Fld := ⟨0x00010000 + 0x30, 0, 16, 20⟩
/-- MP_HOLD_PPT[15:0] ppt, RW; Table 2.6. -/
def MP_HOLD_PPT.ppt : Fld := ⟨0x00010000 + 0x34, 0, 16, 100⟩
/-- MP_HOLD_EST[31:0] est, RO; Table 2.6. -/
def MP_HOLD_EST.est : Fld := ⟨0x00010000 + 0x38, 0, 32, 0⟩
/-- MP_DELAY_GATE[15:0] gate, RW; Table 2.6. -/
def MP_DELAY_GATE.gate : Fld := ⟨0x00010000 + 0x3C, 0, 16, 64⟩
/-- MP_UPSTREAM[2:0] trunk, RW; Table 2.6. -/
def MP_UPSTREAM.trunk : Fld := ⟨0x00010000 + 0x40, 0, 3, 0⟩
/-- MP_UPSTREAM[3] valid, RW; Table 2.6. -/
def MP_UPSTREAM.valid : Fld := ⟨0x00010000 + 0x40, 3, 1, 0⟩
/-- MP_SERVO[4:0] ki_shift, RW; Table 2.6. -/
def MP_SERVO.ki_shift : Fld := ⟨0x00010000 + 0x44, 0, 5, 6⟩
/-- MP_PATH_DELAY[31:0] delay, RO; Table 2.6. -/
def MP_PATH_DELAY.delay : Fld := ⟨0x00010000 + 0x48, 0, 32, 0⟩
/-- MP_REJECT_CNT[31:0] count, RC; Table 2.6. -/
def MP_REJECT_CNT.count : Fld := ⟨0x00010000 + 0x4C, 0, 32, 0⟩
/-- MP_SET_LO[31:0] set_lo, RW; Table 2.6. -/
def MP_SET_LO.set_lo : Fld := ⟨0x00010000 + 0x50, 0, 32, 0⟩
/-- MP_SET_HI[31:0] set_hi, RW; Table 2.6. -/
def MP_SET_HI.set_hi : Fld := ⟨0x00010000 + 0x54, 0, 32, 0⟩
/-- MP_SET_TOP[7:0] set_top, RW; Table 2.6. -/
def MP_SET_TOP.set_top : Fld := ⟨0x00010000 + 0x58, 0, 8, 0⟩
/-- MP_CMD[0] set, WO; Table 2.6. -/
def MP_CMD.set : Fld := ⟨0x00010000 + 0x5C, 0, 1, 0⟩
/-- MP_CMD[1] resync, WO; Table 2.6. -/
def MP_CMD.resync : Fld := ⟨0x00010000 + 0x5C, 1, 1, 0⟩
/-- MP_PENDING_LO[31:0] pend_lo, RO; Table 2.6. -/
def MP_PENDING_LO.pend_lo : Fld := ⟨0x00010000 + 0x60, 0, 32, 0⟩
/-- MP_PENDING_HI[31:0] pend_hi, RO; Table 2.6. -/
def MP_PENDING_HI.pend_hi : Fld := ⟨0x00010000 + 0x64, 0, 32, 0⟩
/-- MP_LASTSTEP_LO[31:0] step_lo, RO; Table 2.6. -/
def MP_LASTSTEP_LO.step_lo : Fld := ⟨0x00010000 + 0x68, 0, 32, 0⟩
/-- MP_LASTSTEP_HI[31:0] step_hi, RO; Table 2.6. -/
def MP_LASTSTEP_HI.step_hi : Fld := ⟨0x00010000 + 0x6C, 0, 32, 0⟩
/-- MP_TRUNK_ASYM[15:0] asym, RW; Table 2.6. -/
def MP_TRUNK_ASYM.asym (u : Nat) : Fld := ⟨0x00010000 + 0x80 + 4 * u, 0, 16, 0⟩
/-- LQ_CTRL[0] en, RW; Table 3.10. -/
def LQ_CTRL.en : Fld := ⟨0x00020000, 0, 1, 0⟩
/-- LQ_CTRL[1] reject_untol, RW; Table 3.10. -/
def LQ_CTRL.reject_untol : Fld := ⟨0x00020000, 1, 1, 0⟩
/-- LQ_STATUS[10:0] depth, RO; Table 3.10. -/
def LQ_STATUS.depth : Fld := ⟨0x00020000 + 0x4, 0, 11, 0⟩
/-- LQ_STATUS[13:11] xstate, RO; Table 3.10. -/
def LQ_STATUS.xstate : Fld := ⟨0x00020000 + 0x4, 11, 3, 0⟩
/-- LQ_ERR[0] queue_full, W1C; Table 3.10. -/
def LQ_ERR.queue_full : Fld := ⟨0x00020000 + 0x8, 0, 1, 0⟩
/-- LQ_ERR[1] bad_action, W1C; Table 3.10. -/
def LQ_ERR.bad_action : Fld := ⟨0x00020000 + 0x8, 1, 1, 0⟩
/-- LQ_ERR[2] late_reject, W1C; Table 3.10. -/
def LQ_ERR.late_reject : Fld := ⟨0x00020000 + 0x8, 2, 1, 0⟩
/-- LQ_ERR[3] commit_refused, W1C; Table 3.10. -/
def LQ_ERR.commit_refused : Fld := ⟨0x00020000 + 0x8, 3, 1, 0⟩
/-- LQ_ERR[4] no_summary, W1C; Table 3.10. -/
def LQ_ERR.no_summary : Fld := ⟨0x00020000 + 0x8, 4, 1, 0⟩
/-- LQ_ERR[5] cancel_late, W1C; Table 3.10. -/
def LQ_ERR.cancel_late : Fld := ⟨0x00020000 + 0x8, 5, 1, 0⟩
/-- LQ_ERR[6] bad_value, W1C; Table 3.10. -/
def LQ_ERR.bad_value : Fld := ⟨0x00020000 + 0x8, 6, 1, 0⟩
/-- LQ_ERR[7] dup_seen, W1C; Table 3.10. -/
def LQ_ERR.dup_seen : Fld := ⟨0x00020000 + 0x8, 7, 1, 0⟩
/-- LQ_ERR[8] sum_write, W1C; Table 3.10. -/
def LQ_ERR.sum_write : Fld := ⟨0x00020000 + 0x8, 8, 1, 0⟩
/-- LQ_GUARD[31:0] guard, RW; Table 3.10. -/
def LQ_GUARD.guard : Fld := ⟨0x00020000 + 0xC, 0, 32, 2048000⟩
/-- LQ_LATE_TOL[15:0] tol, RW; Table 3.10. -/
def LQ_LATE_TOL.tol : Fld := ⟨0x00020000 + 0x10, 0, 16, 0⟩
/-- LQ_GROUP[7:0] group, RW; Table 3.10. -/
def LQ_GROUP.group : Fld := ⟨0x00020000 + 0x14, 0, 8, 0⟩
/-- LQ_BATCH[31:0] batch, RO; Table 3.10. -/
def LQ_BATCH.batch : Fld := ⟨0x00020000 + 0x18, 0, 32, 0⟩
/-- LQ_NEW_T_LO[31:0] t_lo, RW; Table 3.10. -/
def LQ_NEW_T_LO.t_lo : Fld := ⟨0x00020000 + 0x20, 0, 32, 0⟩
/-- LQ_NEW_T_HI[31:0] t_hi, RW; Table 3.10. -/
def LQ_NEW_T_HI.t_hi : Fld := ⟨0x00020000 + 0x24, 0, 32, 0⟩
/-- LQ_NEW_T_TOP[7:0] t_top, RW; Table 3.10. -/
def LQ_NEW_T_TOP.t_top : Fld := ⟨0x00020000 + 0x28, 0, 8, 0⟩
/-- LQ_NEW_ACTION[3:0] type, RW; Table 3.10. -/
def LQ_NEW_ACTION.type : Fld := ⟨0x00020000 + 0x2C, 0, 4, 0⟩
/-- LQ_NEW_ACTION[5:4] scope, RW; Table 3.10. -/
def LQ_NEW_ACTION.scope : Fld := ⟨0x00020000 + 0x2C, 4, 2, 0⟩
/-- LQ_NEW_ACTION[17:6] target, RW; Table 3.10. -/
def LQ_NEW_ACTION.target : Fld := ⟨0x00020000 + 0x2C, 6, 12, 0⟩
/-- LQ_NEW_ARG[31:0] arg, RW; Table 3.10. -/
def LQ_NEW_ARG.arg : Fld := ⟨0x00020000 + 0x30, 0, 32, 0⟩
/-- LQ_NEW_PUSH[0] push, WO; Table 3.10. -/
def LQ_NEW_PUSH.push : Fld := ⟨0x00020000 + 0x34, 0, 1, 0⟩
/-- LQ_NEW_RESULT[2:0] disp, RO; Table 3.10. -/
def LQ_NEW_RESULT.disp : Fld := ⟨0x00020000 + 0x38, 0, 3, 0⟩
/-- LQ_NEW_ID[31:0] id, RO; Table 3.10. -/
def LQ_NEW_ID.id : Fld := ⟨0x00020000 + 0x3C, 0, 32, 0⟩
/-- LQ_NEXT_T_LO[31:0] n_lo, RO; Table 3.10. -/
def LQ_NEXT_T_LO.n_lo : Fld := ⟨0x00020000 + 0x40, 0, 32, 0⟩
/-- LQ_NEXT_T_HI[31:0] n_hi, RO; Table 3.10. -/
def LQ_NEXT_T_HI.n_hi : Fld := ⟨0x00020000 + 0x44, 0, 32, 0⟩
/-- LQ_NEXT_T_TOP[8:0] n_top, RO; Table 3.10. -/
def LQ_NEXT_T_TOP.n_top : Fld := ⟨0x00020000 + 0x48, 0, 9, 256⟩
/-- LQ_CANCEL[31:0] id, WO; Table 3.10. -/
def LQ_CANCEL.id : Fld := ⟨0x00020000 + 0x4C, 0, 32, 0⟩
/-- LQ_CNT_EXEC[31:0] count, RC; Table 3.10. -/
def LQ_CNT_EXEC.count : Fld := ⟨0x00020000 + 0x50, 0, 32, 0⟩
/-- LQ_CNT_LATE[31:0] count, RC; Table 3.10. -/
def LQ_CNT_LATE.count : Fld := ⟨0x00020000 + 0x54, 0, 32, 0⟩
/-- LQ_CNT_REJECT[31:0] count, RC; Table 3.10. -/
def LQ_CNT_REJECT.count : Fld := ⟨0x00020000 + 0x58, 0, 32, 0⟩
/-- LQ_CNT_DUP[31:0] count, RC; Table 3.10. -/
def LQ_CNT_DUP.count : Fld := ⟨0x00020000 + 0x5C, 0, 32, 0⟩
/-- LQ_LAST_LATE[15:0] late, RO; Table 3.10. -/
def LQ_LAST_LATE.late : Fld := ⟨0x00020000 + 0x60, 0, 16, 0⟩
/-- LQ_SYS_ID[31:0] id, RO; Table 3.10. -/
def LQ_SYS_ID.id : Fld := ⟨0x00020000 + 0x64, 0, 32, 0⟩
/-- LQ_SYS_ACK[12:0] acks, RO; Table 3.10. -/
def LQ_SYS_ACK.acks : Fld := ⟨0x00020000 + 0x68, 0, 13, 0⟩
/-- LQ_SYS_ACK[28:16] refusals, RO; Table 3.10. -/
def LQ_SYS_ACK.refusals : Fld := ⟨0x00020000 + 0x68, 16, 13, 0⟩
/-- LQ_SYS_LATE[12:0] late, RO; Table 3.10. -/
def LQ_SYS_LATE.late : Fld := ⟨0x00020000 + 0x6C, 0, 13, 0⟩
/-- LQ_CMD[0] commit_now, WO; Table 3.10. -/
def LQ_CMD.commit_now : Fld := ⟨0x00020000 + 0x70, 0, 1, 0⟩
/-- LQ_CMD[7:4] cset, WO; Table 3.10. -/
def LQ_CMD.cset : Fld := ⟨0x00020000 + 0x70, 4, 4, 0⟩
/-- LQ_CMD[8] abort_now, WO; Table 3.10. -/
def LQ_CMD.abort_now : Fld := ⟨0x00020000 + 0x70, 8, 1, 0⟩
/-- LQ_CMD[9] crossing_now, WO; Table 3.10. -/
def LQ_CMD.crossing_now : Fld := ⟨0x00020000 + 0x70, 9, 1, 0⟩
/-- LQ_COMMIT_STATUS[2:0] state, RO; Table 3.10. -/
def LQ_COMMIT_STATUS.state : Fld := ⟨0x00020000 + 0x74, 0, 3, 0⟩
/-- LQ_COMMIT_STATUS[7:4] cset, RO; Table 3.10. -/
def LQ_COMMIT_STATUS.cset : Fld := ⟨0x00020000 + 0x74, 4, 4, 0⟩
/-- LQ_COMMIT_STATUS[15:8] bad_group, RO; Table 3.10. -/
def LQ_COMMIT_STATUS.bad_group : Fld := ⟨0x00020000 + 0x74, 8, 8, 0⟩
/-- LQ_SUM_BASE_LO[31:0] base_lo, RW; Table 3.10. -/
def LQ_SUM_BASE_LO.base_lo : Fld := ⟨0x00020000 + 0x80, 0, 32, 0⟩
/-- LQ_SUM_BASE_HI[8:0] base_hi, RW; Table 3.10. -/
def LQ_SUM_BASE_HI.base_hi : Fld := ⟨0x00020000 + 0x84, 0, 9, 0⟩
/-- LQ_SUM_COUNT[16:0] count, RW; Table 3.10. -/
def LQ_SUM_COUNT.count : Fld := ⟨0x00020000 + 0x88, 0, 17, 0⟩
/-- LQ_XING_TIME[31:0] time, RO; Table 3.10. -/
def LQ_XING_TIME.time : Fld := ⟨0x00020000 + 0x8C, 0, 32, 0⟩
/-- LQ_CSET_W[31:0] mask, RW; Table 3.10. -/
def LQ_CSET_W.mask (n w : Nat) : Fld := ⟨0x00020000 + 0x100 + 32 * n + 4 * w, 0, 32, 0⟩
/-- LQ_STG_BAD[31:0] bad, RO; Table 3.10. -/
def LQ_STG_BAD.bad (w : Nat) : Fld := ⟨0x00020000 + 0x300 + 4 * w, 0, 32, 0⟩
/-- LQ_LAST_SUM[31:0] sum, RO; Table 3.10. -/
def LQ_LAST_SUM.sum (w : Nat) : Fld := ⟨0x00020000 + 0x400 + 4 * w, 0, 32, 0⟩
/-- FAB_CTRL[0] match_perr_fault, RW; Table 4.10. -/
def FAB_CTRL.match_perr_fault (r : Nat) : Fld := ⟨rgBase r + 0x800, 0, 1, 0⟩
/-- FAB_CTRL[1] reflex_hold, RW; Table 4.10. -/
def FAB_CTRL.reflex_hold (r : Nat) : Fld := ⟨rgBase r + 0x800, 1, 1, 0⟩
/-- FAB_STATUS[0] faulted, RO; Table 4.10. -/
def FAB_STATUS.faulted (r : Nat) : Fld := ⟨rgBase r + 0x804, 0, 1, 0⟩
/-- FAB_STATUS[2:1] fault_cause, RO; Table 4.10. -/
def FAB_STATUS.fault_cause (r : Nat) : Fld := ⟨rgBase r + 0x804, 1, 2, 0⟩
/-- FAB_STATUS[3] reflex_held, RO; Table 4.10. -/
def FAB_STATUS.reflex_held (r : Nat) : Fld := ⟨rgBase r + 0x804, 3, 1, 0⟩
/-- FAB_STATUS[4] match_live, RO; Table 4.10. -/
def FAB_STATUS.match_live (r : Nat) : Fld := ⟨rgBase r + 0x804, 4, 1, 0⟩
/-- FAB_ERR[0] contention, W1C; Table 4.10. -/
def FAB_ERR.contention (r : Nat) : Fld := ⟨rgBase r + 0x808, 0, 1, 0⟩
/-- FAB_ERR[1] match_parity, W1C; Table 4.10. -/
def FAB_ERR.match_parity (r : Nat) : Fld := ⟨rgBase r + 0x808, 1, 1, 0⟩
/-- FAB_ERR[2] port_discard, W1C; Table 4.10. -/
def FAB_ERR.port_discard (r : Nat) : Fld := ⟨rgBase r + 0x808, 2, 1, 0⟩
/-- FAB_CONT_AVENUE[9:0] avenue, RO; Table 4.10. -/
def FAB_CONT_AVENUE.avenue (r : Nat) : Fld := ⟨rgBase r + 0x80C, 0, 10, 0⟩
/-- FAB_CONT_AVENUE[21:16] pos_a, RO; Table 4.10. -/
def FAB_CONT_AVENUE.pos_a (r : Nat) : Fld := ⟨rgBase r + 0x80C, 16, 6, 0⟩
/-- FAB_CONT_AVENUE[29:24] pos_b, RO; Table 4.10. -/
def FAB_CONT_AVENUE.pos_b (r : Nat) : Fld := ⟨rgBase r + 0x80C, 24, 6, 0⟩
/-- FAB_CONT_AVENUE[30] valid, RO; Table 4.10. -/
def FAB_CONT_AVENUE.valid (r : Nat) : Fld := ⟨rgBase r + 0x80C, 30, 1, 0⟩
/-- FAB_CONT_STAMP_LO[31:0] stamp_lo, RO; Table 4.10. -/
def FAB_CONT_STAMP_LO.stamp_lo (r : Nat) : Fld := ⟨rgBase r + 0x810, 0, 32, 0⟩
/-- FAB_CONT_STAMP_HI[23:0] stamp_hi, RO; Table 4.10. -/
def FAB_CONT_STAMP_HI.stamp_hi (r : Nat) : Fld := ⟨rgBase r + 0x814, 0, 24, 0⟩
/-- FAB_MATCH_PERR[13:0] lb, RO; Table 4.10. -/
def FAB_MATCH_PERR.lb (r : Nat) : Fld := ⟨rgBase r + 0x818, 0, 14, 0⟩
/-- FAB_MATCH_PERR[19:14] entry, RO; Table 4.10. -/
def FAB_MATCH_PERR.entry (r : Nat) : Fld := ⟨rgBase r + 0x818, 14, 6, 0⟩
/-- FAB_MATCH_PERR[20] valid, RO; Table 4.10. -/
def FAB_MATCH_PERR.valid (r : Nat) : Fld := ⟨rgBase r + 0x818, 20, 1, 0⟩
/-- FAB_MATCH_PERR_CNT[31:0] count, RC; Table 4.10. -/
def FAB_MATCH_PERR_CNT.count (r : Nat) : Fld := ⟨rgBase r + 0x81C, 0, 32, 0⟩
/-- FAB_REFLEX_FLAGS[3:0] flags, RO; Table 4.10. -/
def FAB_REFLEX_FLAGS.flags (r : Nat) : Fld := ⟨rgBase r + 0x820, 0, 4, 0⟩
/-- FAB_REFLEX_CONFLICT_CNT[31:0] count, RC; Table 4.10. -/
def FAB_REFLEX_CONFLICT_CNT.count (r : Nat) : Fld := ⟨rgBase r + 0x824, 0, 32, 0⟩
/-- FAB_CMD[3:0] clear_flags, WO; Table 4.10. -/
def FAB_CMD.clear_flags (r : Nat) : Fld := ⟨rgBase r + 0x828, 0, 4, 0⟩
/-- FAB_REFLEX_STAMP_LO[31:0] stamp_lo, RO; Table 4.10. -/
def FAB_REFLEX_STAMP_LO.stamp_lo (r : Nat) : Fld := ⟨rgBase r + 0x82C, 0, 32, 0⟩
/-- FAB_REFLEX_STAMP_HI[23:0] stamp_hi, RO; Table 4.10. -/
def FAB_REFLEX_STAMP_HI.stamp_hi (r : Nat) : Fld := ⟨rgBase r + 0x830, 0, 24, 0⟩
/-- QC_CMD[0] quarter_reset, WO; Table 5.4. -/
def QC_CMD.quarter_reset (q : Nat) : Fld := ⟨qBase q, 0, 1, 0⟩
/-- QC_CMD[1] clk_restart, WO; Table 5.4. -/
def QC_CMD.clk_restart (q : Nat) : Fld := ⟨qBase q, 1, 1, 0⟩
/-- QC_CMD[2] cap_now, WO; Table 5.4. -/
def QC_CMD.cap_now (q : Nat) : Fld := ⟨qBase q, 2, 1, 0⟩
/-- QC_CMD[3] cap_free, WO; Table 5.4. -/
def QC_CMD.cap_free (q : Nat) : Fld := ⟨qBase q, 3, 1, 0⟩
/-- QC_CMD[4] cap_resume, WO; Table 5.4. -/
def QC_CMD.cap_resume (q : Nat) : Fld := ⟨qBase q, 4, 1, 0⟩
/-- QC_STATUS[0] ready, RO; Table 5.4. -/
def QC_STATUS.ready (q : Nat) : Fld := ⟨qBase q + 0x4, 0, 1, 0⟩
/-- QC_STATUS[4:1] locked, RO; Table 5.4. -/
def QC_STATUS.locked (q : Nat) : Fld := ⟨qBase q + 0x4, 1, 4, 0⟩
/-- QC_STATUS[8:5] cfg_pending, RO; Table 5.4. -/
def QC_STATUS.cfg_pending (q : Nat) : Fld := ⟨qBase q + 0x4, 5, 4, 0⟩
/-- QC_STATUS[24:9] gck_stopped, RO; Table 5.4. -/
def QC_STATUS.gck_stopped (q : Nat) : Fld := ⟨qBase q + 0x4, 9, 16, 0⟩
/-- QC_CLK_ERR[3:0] lock_lost, W1C; Table 5.4. -/
def QC_CLK_ERR.lock_lost (q : Nat) : Fld := ⟨qBase q + 0x8, 0, 4, 0⟩
/-- QC_CLK_ERR[4] bad_value, W1C; Table 5.4. -/
def QC_CLK_ERR.bad_value (q : Nat) : Fld := ⟨qBase q + 0x8, 4, 1, 0⟩
/-- QC_CLK_ERR[5] cap_refused, W1C; Table 5.4. -/
def QC_CLK_ERR.cap_refused (q : Nat) : Fld := ⟨qBase q + 0x8, 5, 1, 0⟩
/-- QC_CPLL_CFG[7:0] n, RW; Table 5.4. -/
def QC_CPLL_CFG.n (q p : Nat) : Fld := ⟨qBase q + 0x10 + 4 * p, 0, 8, 32⟩
/-- QC_CPLL_CFG[9:8] m_minus1, RW; Table 5.4. -/
def QC_CPLL_CFG.m_minus1 (q p : Nat) : Fld := ⟨qBase q + 0x10 + 4 * p, 8, 2, 0⟩
/-- QC_CPLL_CFG[17:10] p_minus1, RW; Table 5.4. -/
def QC_CPLL_CFG.p_minus1 (q p : Nat) : Fld := ⟨qBase q + 0x10 + 4 * p, 10, 8, 7⟩
/-- QC_CPLL_CFG[18] keep_on, RW; Table 5.4. -/
def QC_CPLL_CFG.keep_on (q p : Nat) : Fld := ⟨qBase q + 0x10 + 4 * p, 18, 1, 0⟩
/-- QC_GCK_SEL[2:0] src, RW; Table 5.4. -/
def QC_GCK_SEL.src (q g : Nat) : Fld := ⟨qBase q + 0x40 + 4 * g, 0, 3, 0⟩
/-- QC_GCK_SEL[4:3] div, RW; Table 5.4. -/
def QC_GCK_SEL.div (q g : Nat) : Fld := ⟨qBase q + 0x40 + 4 * g, 3, 2, 0⟩
/-- QC_CAP_CTRL[3:0] gck, RW; Table 5.4. -/
def QC_CAP_CTRL.gck (q : Nat) : Fld := ⟨qBase q + 0x80, 0, 4, 0⟩
/-- QC_CAP_CTRL[4] mode, RW; Table 5.4. -/
def QC_CAP_CTRL.mode (q : Nat) : Fld := ⟨qBase q + 0x80, 4, 1, 0⟩
/-- QC_CAP_REGIONS[15:0] regions, RW; Table 5.4. -/
def QC_CAP_REGIONS.regions (q : Nat) : Fld := ⟨qBase q + 0x84, 0, 16, 65535⟩
/-- QC_CAP_STATUS[1:0] state, RO; Table 5.4. -/
def QC_CAP_STATUS.state (q : Nat) : Fld := ⟨qBase q + 0x88, 0, 2, 0⟩
/-- QC_CAP_STATUS[31:16] captured, RO; Table 5.4. -/
def QC_CAP_STATUS.captured (q : Nat) : Fld := ⟨qBase q + 0x88, 16, 16, 0⟩
/-- QC_CAP_SNAPONLY[15:0] regions, RO; Table 5.4. -/
def QC_CAP_SNAPONLY.regions (q : Nat) : Fld := ⟨qBase q + 0x8C, 0, 16, 0⟩
/-- QC_CAP_STAMP_LO[31:0] stamp_lo, RO; Table 5.4. -/
def QC_CAP_STAMP_LO.stamp_lo (q : Nat) : Fld := ⟨qBase q + 0x90, 0, 32, 0⟩
/-- QC_CAP_STAMP_HI[23:0] stamp_hi, RO; Table 5.4. -/
def QC_CAP_STAMP_HI.stamp_hi (q : Nat) : Fld := ⟨qBase q + 0x94, 0, 24, 0⟩
/-- BM_RCTL[0] init_mode, RO; Table 6.4. -/
def BM_RCTL.init_mode (r : Nat) : Fld := ⟨bmBase r, 0, 1, 0⟩
/-- BM_RCTL[1] wb_en, RW; Table 6.4. -/
def BM_RCTL.wb_en (r : Nat) : Fld := ⟨bmBase r, 1, 1, 1⟩
/-- BM_RSTATUS[0] init_busy, RO; Table 6.4. -/
def BM_RSTATUS.init_busy (r : Nat) : Fld := ⟨bmBase r + 0x4, 0, 1, 0⟩
/-- BM_RERR[0] ue, W1C; Table 6.4. -/
def BM_RERR.ue (r : Nat) : Fld := ⟨bmBase r + 0x8, 0, 1, 0⟩
/-- BM_RERR[1] rmw_refused, W1C; Table 6.4. -/
def BM_RERR.rmw_refused (r : Nat) : Fld := ⟨bmBase r + 0x8, 1, 1, 0⟩
/-- BM_RERR[2] bad_value, W1C; Table 6.4. -/
def BM_RERR.bad_value (r : Nat) : Fld := ⟨bmBase r + 0x8, 2, 1, 0⟩
/-- BM_CE_CNT[31:0] count, RC; Table 6.4. -/
def BM_CE_CNT.count (r : Nat) : Fld := ⟨bmBase r + 0xC, 0, 32, 0⟩
/-- BM_UE_CNT[31:0] count, RC; Table 6.4. -/
def BM_UE_CNT.count (r : Nat) : Fld := ⟨bmBase r + 0x10, 0, 32, 0⟩
/-- BM_CRC_CNT[31:0] count, RC; Table 6.4. -/
def BM_CRC_CNT.count (r : Nat) : Fld := ⟨bmBase r + 0x14, 0, 32, 0⟩
/-- BM_FIRST_ERR[7:0] block, RO; Table 6.4. -/
def BM_FIRST_ERR.block (r : Nat) : Fld := ⟨bmBase r + 0x18, 0, 8, 0⟩
/-- BM_FIRST_ERR[19:8] word, RO; Table 6.4. -/
def BM_FIRST_ERR.word (r : Nat) : Fld := ⟨bmBase r + 0x18, 8, 12, 0⟩
/-- BM_FIRST_ERR[21:20] kind, RO; Table 6.4. -/
def BM_FIRST_ERR.kind (r : Nat) : Fld := ⟨bmBase r + 0x18, 20, 2, 0⟩
/-- BM_FIRST_ERR[31] valid, RO; Table 6.4. -/
def BM_FIRST_ERR.valid (r : Nat) : Fld := ⟨bmBase r + 0x18, 31, 1, 0⟩
/-- BM_FIRST_SYN[7:0] syndrome, RO; Table 6.4. -/
def BM_FIRST_SYN.syndrome (r : Nat) : Fld := ⟨bmBase r + 0x1C, 0, 8, 0⟩
/-- BM_FIRST_STAMP_LO[31:0] stamp_lo, RO; Table 6.4. -/
def BM_FIRST_STAMP_LO.stamp_lo (r : Nat) : Fld := ⟨bmBase r + 0x20, 0, 32, 0⟩
/-- BM_FIRST_STAMP_HI[23:0] stamp_hi, RO; Table 6.4. -/
def BM_FIRST_STAMP_HI.stamp_hi (r : Nat) : Fld := ⟨bmBase r + 0x24, 0, 24, 0⟩
/-- BM_CMD[0] clear_block, WO; Table 6.4. -/
def BM_CMD.clear_block (r : Nat) : Fld := ⟨bmBase r + 0x28, 0, 1, 0⟩
/-- BM_CMD[1] clear_first, WO; Table 6.4. -/
def BM_CMD.clear_first (r : Nat) : Fld := ⟨bmBase r + 0x28, 1, 1, 0⟩
/-- BM_CMD[15:8] block, WO; Table 6.4. -/
def BM_CMD.block (r : Nat) : Fld := ⟨bmBase r + 0x28, 8, 8, 0⟩
/-- BM_ROWREP[8:0] row0, RW; Table 6.5. -/
def BM_ROWREP.row0 (b : Nat) : Fld := ⟨repBase b, 0, 9, 0⟩
/-- BM_ROWREP[9] row0_en, RW; Table 6.5. -/
def BM_ROWREP.row0_en (b : Nat) : Fld := ⟨repBase b, 9, 1, 0⟩
/-- BM_ROWREP[24:16] row1, RW; Table 6.5. -/
def BM_ROWREP.row1 (b : Nat) : Fld := ⟨repBase b, 16, 9, 0⟩
/-- BM_ROWREP[25] row1_en, RW; Table 6.5. -/
def BM_ROWREP.row1_en (b : Nat) : Fld := ⟨repBase b, 25, 1, 0⟩
/-- BM_ROWREP[31] fused, RO; Table 6.5. -/
def BM_ROWREP.fused (b : Nat) : Fld := ⟨repBase b, 31, 1, 0⟩
/-- BM_COLREP[9:0] col0, RW; Table 6.5. -/
def BM_COLREP.col0 (b : Nat) : Fld := ⟨repBase b + 0x4, 0, 10, 0⟩
/-- BM_COLREP[10] col0_en, RW; Table 6.5. -/
def BM_COLREP.col0_en (b : Nat) : Fld := ⟨repBase b + 0x4, 10, 1, 0⟩
/-- BM_COLREP[25:16] col1, RW; Table 6.5. -/
def BM_COLREP.col1 (b : Nat) : Fld := ⟨repBase b + 0x4, 16, 10, 0⟩
/-- BM_COLREP[26] col1_en, RW; Table 6.5. -/
def BM_COLREP.col1_en (b : Nat) : Fld := ⟨repBase b + 0x4, 26, 1, 0⟩
/-- BM_COLREP[31] fused, RO; Table 6.5. -/
def BM_COLREP.fused (b : Nat) : Fld := ⟨repBase b + 0x4, 31, 1, 0⟩
/-- PGR_CTRL[0] enable, RW; Table 7.9. -/
def PGR_CTRL.enable (g : Nat) : Fld := ⟨pgrBase g, 0, 1, 0⟩
/-- PGR_CTRL[1] inh_force, RW; Table 7.9. -/
def PGR_CTRL.inh_force (g : Nat) : Fld := ⟨pgrBase g, 1, 1, 0⟩
/-- PGR_STATUS[2:0] state, RO; Table 7.9. -/
def PGR_STATUS.state (g : Nat) : Fld := ⟨pgrBase g + 0x4, 0, 3, 0⟩
/-- PGR_STATUS[5:3] hold_cause, RO; Table 7.9. -/
def PGR_STATUS.hold_cause (g : Nat) : Fld := ⟨pgrBase g + 0x4, 3, 3, 0⟩
/-- PGR_STATUS[6] inhibit, RO; Table 7.9. -/
def PGR_STATUS.inhibit (g : Nat) : Fld := ⟨pgrBase g + 0x4, 6, 1, 1⟩
/-- PGR_STATUS[7] cal_stale, RO; Table 7.9. -/
def PGR_STATUS.cal_stale (g : Nat) : Fld := ⟨pgrBase g + 0x4, 7, 1, 0⟩
/-- PGR_STATUS[8] dormant_veto, RO; Table 7.9. -/
def PGR_STATUS.dormant_veto (g : Nat) : Fld := ⟨pgrBase g + 0x4, 8, 1, 0⟩
/-- PGR_STATUS[9] armed, RO; Table 7.9. -/
def PGR_STATUS.armed (g : Nat) : Fld := ⟨pgrBase g + 0x4, 9, 1, 0⟩
/-- PGR_ERR[0] start_refused, W1C; Table 7.9. -/
def PGR_ERR.start_refused (g : Nat) : Fld := ⟨pgrBase g + 0x8, 0, 1, 0⟩
/-- PGR_ERR[1] cal_stale, W1C; Table 7.9. -/
def PGR_ERR.cal_stale (g : Nat) : Fld := ⟨pgrBase g + 0x8, 1, 1, 0⟩
/-- PGR_ERR[2] cal_refused, W1C; Table 7.9. -/
def PGR_ERR.cal_refused (g : Nat) : Fld := ⟨pgrBase g + 0x8, 2, 1, 0⟩
/-- PGR_ERR[3] bad_value, W1C; Table 7.9. -/
def PGR_ERR.bad_value (g : Nat) : Fld := ⟨pgrBase g + 0x8, 3, 1, 0⟩
/-- PGR_CMD[0] to_idle, WO; Table 7.9. -/
def PGR_CMD.to_idle (g : Nat) : Fld := ⟨pgrBase g + 0xC, 0, 1, 0⟩
/-- PGR_CMD[1] cal_now, WO; Table 7.9. -/
def PGR_CMD.cal_now (g : Nat) : Fld := ⟨pgrBase g + 0xC, 1, 1, 0⟩
/-- PGR_ARM[0] armed, STG; Table 7.9. -/
def PGR_ARM.armed (g : Nat) : Fld := ⟨pgrBase g + 0x10, 0, 1, 0⟩
/-- PGR_SRC[0] ts_src, STG; Table 7.9. -/
def PGR_SRC.ts_src (g : Nat) : Fld := ⟨pgrBase g + 0x14, 0, 1, 0⟩
/-- PGR_ABORT[0] inhibit, RW; Table 7.9. -/
def PGR_ABORT.inhibit (g : Nat) : Fld := ⟨pgrBase g + 0x18, 0, 1, 1⟩
/-- PGR_TS_SEL[7:0] set, RW; Table 7.9. -/
def PGR_TS_SEL.set (g : Nat) : Fld := ⟨pgrBase g + 0x1C, 0, 8, 0⟩
/-- PGR_TS_W0[29:0] period, STG; Table 7.9. -/
def PGR_TS_W0.period (g : Nat) : Fld := ⟨pgrBase g + 0x20, 0, 30, 671088640⟩
/-- PGR_TS_W1[13:0] d0, STG; Table 7.9. -/
def PGR_TS_W1.d0 (g : Nat) : Fld := ⟨pgrBase g + 0x24, 0, 14, 0⟩
/-- PGR_TS_W1[27:14] d1, STG; Table 7.9. -/
def PGR_TS_W1.d1 (g : Nat) : Fld := ⟨pgrBase g + 0x24, 14, 14, 0⟩
/-- PGR_TS_W1[30:28] fmt, STG; Table 7.9. -/
def PGR_TS_W1.fmt (g : Nat) : Fld := ⟨pgrBase g + 0x24, 28, 3, 0⟩
/-- PGR_TS_W2[13:0] d2, STG; Table 7.9. -/
def PGR_TS_W2.d2 (g : Nat) : Fld := ⟨pgrBase g + 0x28, 0, 14, 0⟩
/-- PGR_TS_W2[27:14] d3, STG; Table 7.9. -/
def PGR_TS_W2.d3 (g : Nat) : Fld := ⟨pgrBase g + 0x28, 14, 14, 0⟩
/-- PGR_TS_W3[13:0] s0, STG; Table 7.9. -/
def PGR_TS_W3.s0 (g : Nat) : Fld := ⟨pgrBase g + 0x2C, 0, 14, 0⟩
/-- PGR_TS_W3[27:14] s1, STG; Table 7.9. -/
def PGR_TS_W3.s1 (g : Nat) : Fld := ⟨pgrBase g + 0x2C, 14, 14, 0⟩
/-- PGR_TS_W3[29:28] smode, STG; Table 7.9. -/
def PGR_TS_W3.smode (g : Nat) : Fld := ⟨pgrBase g + 0x2C, 28, 2, 0⟩
/-- PGR_CAL_LIMIT[7:0] limit, RW; Table 7.9. -/
def PGR_CAL_LIMIT.limit (g : Nat) : Fld := ⟨pgrBase g + 0x30, 0, 8, 40⟩
/-- PGR_CAL_TEMP[15:0] temp, RO; Table 7.9. -/
def PGR_CAL_TEMP.temp (g : Nat) : Fld := ⟨pgrBase g + 0x34, 0, 16, 0⟩
/-- PGR_CAL_STAMP_LO[31:0] stamp_lo, RO; Table 7.9. -/
def PGR_CAL_STAMP_LO.stamp_lo (g : Nat) : Fld := ⟨pgrBase g + 0x38, 0, 32, 0⟩
/-- PGR_CAL_STAMP_HI[23:0] stamp_hi, RO; Table 7.9. -/
def PGR_CAL_STAMP_HI.stamp_hi (g : Nat) : Fld := ⟨pgrBase g + 0x3C, 0, 24, 0⟩
/-- PGR_STALL_VEC[31:0] count, RC; Table 7.9. -/
def PGR_STALL_VEC.count (g : Nat) : Fld := ⟨pgrBase g + 0x40, 0, 32, 0⟩
/-- PGR_VEC_LO[31:0] vec_lo, RO; Table 7.9. -/
def PGR_VEC_LO.vec_lo (g : Nat) : Fld := ⟨pgrBase g + 0x44, 0, 32, 0⟩
/-- PGR_VEC_HI[31:0] vec_hi, RO; Table 7.9. -/
def PGR_VEC_HI.vec_hi (g : Nat) : Fld := ⟨pgrBase g + 0x48, 0, 32, 0⟩
/-- PGR_LEG_STAMP_LO[31:0] stamp_lo, RO; Table 7.9. -/
def PGR_LEG_STAMP_LO.stamp_lo (g : Nat) : Fld := ⟨pgrBase g + 0x4C, 0, 32, 0⟩
/-- PGR_LEG_STAMP_HI[23:0] stamp_hi, RO; Table 7.9. -/
def PGR_LEG_STAMP_HI.stamp_hi (g : Nat) : Fld := ⟨pgrBase g + 0x50, 0, 24, 0⟩
/-- PCH_CTRL[1:0] idle, RW; Table 7.10. -/
def PCH_CTRL.idle (n : Nat) : Fld := ⟨pchBase n, 0, 2, 3⟩
/-- PCH_CTRL[3:2] abort, RW; Table 7.10. -/
def PCH_CTRL.abort (n : Nat) : Fld := ⟨pchBase n, 2, 2, 3⟩
/-- PCH_SRC[0] src, STG; Table 7.10. -/
def PCH_SRC.src (n : Nat) : Fld := ⟨pchBase n + 0x4, 0, 1, 0⟩
/-- PCH_ADJ[9:0] drv_adj, STG; Table 7.10. -/
def PCH_ADJ.drv_adj (n : Nat) : Fld := ⟨pchBase n + 0x8, 0, 10, 0⟩
/-- PCH_ADJ[25:16] cmp_adj, STG; Table 7.10. -/
def PCH_ADJ.cmp_adj (n : Nat) : Fld := ⟨pchBase n + 0x8, 16, 10, 0⟩
/-- PCH_MAP[31:0] entries, STG; Table 7.10. -/
def PCH_MAP.entries (n i : Nat) : Fld := ⟨pchBase n + 0xC + 4 * i, 0, 32, (if i = 0 then 0x08040302 else 0)⟩
/-- PCH_FMT[2:0] d0_act, STG; Table 7.10. -/
def PCH_FMT.d0_act (n f : Nat) : Fld := ⟨pchBase n + 0x20 + 4 * f, 0, 3, 0⟩
/-- PCH_FMT[5:3] d1_act, STG; Table 7.10. -/
def PCH_FMT.d1_act (n f : Nat) : Fld := ⟨pchBase n + 0x20 + 4 * f, 3, 3, 0⟩
/-- PCH_FMT[8:6] d2_act, STG; Table 7.10. -/
def PCH_FMT.d2_act (n f : Nat) : Fld := ⟨pchBase n + 0x20 + 4 * f, 6, 3, 0⟩
/-- PCH_FMT[11:9] d3_act, STG; Table 7.10. -/
def PCH_FMT.d3_act (n f : Nat) : Fld := ⟨pchBase n + 0x20 + 4 * f, 9, 3, 0⟩
/-- PCH_FMT[13:12] den_slot, STG; Table 7.10. -/
def PCH_FMT.den_slot (n f : Nat) : Fld := ⟨pchBase n + 0x20 + 4 * f, 12, 2, 0⟩
/-- PCH_FMT[15:14] s_en, STG; Table 7.10. -/
def PCH_FMT.s_en (n f : Nat) : Fld := ⟨pchBase n + 0x20 + 4 * f, 14, 2, 0⟩
/-- PCH_STATUS[0] drv, RO; Table 7.10. -/
def PCH_STATUS.drv (n : Nat) : Fld := ⟨pchBase n + 0x40, 0, 1, 0⟩
/-- PCH_STATUS[1] den, RO; Table 7.10. -/
def PCH_STATUS.den (n : Nat) : Fld := ⟨pchBase n + 0x40, 1, 1, 0⟩
/-- PCH_STATUS[2] cmph, RO; Table 7.10. -/
def PCH_STATUS.cmph (n : Nat) : Fld := ⟨pchBase n + 0x40, 2, 1, 0⟩
/-- PCH_STATUS[3] cmpl, RO; Table 7.10. -/
def PCH_STATUS.cmpl (n : Nat) : Fld := ⟨pchBase n + 0x40, 3, 1, 0⟩
/-- PCH_ERR[0] edge_drop, W1C; Table 7.10. -/
def PCH_ERR.edge_drop (n : Nat) : Fld := ⟨pchBase n + 0x44, 0, 1, 0⟩
/-- PCH_ERR[1] cmp_both, W1C; Table 7.10. -/
def PCH_ERR.cmp_both (n : Nat) : Fld := ⟨pchBase n + 0x44, 1, 1, 0⟩
/-- PCH_ERR[2] bad_value, W1C; Table 7.10. -/
def PCH_ERR.bad_value (n : Nat) : Fld := ⟨pchBase n + 0x44, 2, 1, 0⟩
/-- PCH_DROP_CNT[31:0] count, RC; Table 7.10. -/
def PCH_DROP_CNT.count (n : Nat) : Fld := ⟨pchBase n + 0x48, 0, 32, 0⟩
/-- PCH_BOTH_CNT[31:0] count, RC; Table 7.10. -/
def PCH_BOTH_CNT.count (n : Nat) : Fld := ⟨pchBase n + 0x4C, 0, 32, 0⟩
/-- PCH_CAL_DRV[15:0] trim, RO; Table 7.10. -/
def PCH_CAL_DRV.trim (n : Nat) : Fld := ⟨pchBase n + 0x50, 0, 16, 0⟩
/-- PCH_CAL_CMP[15:0] trim, RO; Table 7.10. -/
def PCH_CAL_CMP.trim (n : Nat) : Fld := ⟨pchBase n + 0x54, 0, 16, 0⟩
/-- PCH_FACT_DRV[15:0] offset, RO; Table 7.10. -/
def PCH_FACT_DRV.offset (n : Nat) : Fld := ⟨pchBase n + 0x58, 0, 16, 0⟩
/-- PCH_FACT_CMP[15:0] offset, RO; Table 7.10. -/
def PCH_FACT_CMP.offset (n : Nat) : Fld := ⟨pchBase n + 0x5C, 0, 16, 0⟩
/-- STR_CTRL[0] pin_loops, RW; Table 8.12. -/
def STR_CTRL.pin_loops (n : Nat) : Fld := ⟨strBase n, 0, 1, 1⟩
/-- STR_CTRL[1] alt_prefetch, RW; Table 8.12. -/
def STR_CTRL.alt_prefetch (n : Nat) : Fld := ⟨strBase n, 1, 1, 1⟩
/-- STR_STATUS[2:0] state, RO; Table 8.12. -/
def STR_STATUS.state (n : Nat) : Fld := ⟨strBase n + 0x4, 0, 3, 0⟩
/-- STR_STATUS[7:3] depth, RO; Table 8.12. -/
def STR_STATUS.depth (n : Nat) : Fld := ⟨strBase n + 0x4, 3, 5, 0⟩
/-- STR_STATUS[8] in_match, RO; Table 8.12. -/
def STR_STATUS.in_match (n : Nat) : Fld := ⟨strBase n + 0x4, 8, 1, 0⟩
/-- STR_STATUS[9] pinned, RO; Table 8.12. -/
def STR_STATUS.pinned (n : Nat) : Fld := ⟨strBase n + 0x4, 9, 1, 0⟩
/-- STR_ERR[0] prog_err, W1C; Table 8.12. -/
def STR_ERR.prog_err (n : Nat) : Fld := ⟨strBase n + 0x8, 0, 1, 0⟩
/-- STR_ERR[1] poison, W1C; Table 8.12. -/
def STR_ERR.poison (n : Nat) : Fld := ⟨strBase n + 0x8, 1, 1, 0⟩
/-- STR_ERR[2] fetch_err, W1C; Table 8.12. -/
def STR_ERR.fetch_err (n : Nat) : Fld := ⟨strBase n + 0x8, 2, 1, 0⟩
/-- STR_ERR[3] underrun, W1C; Table 8.12. -/
def STR_ERR.underrun (n : Nat) : Fld := ⟨strBase n + 0x8, 3, 1, 0⟩
/-- STR_ERR[4] match_timeout, W1C; Table 8.12. -/
def STR_ERR.match_timeout (n : Nat) : Fld := ⟨strBase n + 0x8, 4, 1, 0⟩
/-- STR_ERR[5] taint, W1C; Table 8.12. -/
def STR_ERR.taint (n : Nat) : Fld := ⟨strBase n + 0x8, 5, 1, 0⟩
/-- STR_ERR[6] bad_value, W1C; Table 8.12. -/
def STR_ERR.bad_value (n : Nat) : Fld := ⟨strBase n + 0x8, 6, 1, 0⟩
/-- STR_CMD[0] reprime, WO; Table 8.12. -/
def STR_CMD.reprime (n : Nat) : Fld := ⟨strBase n + 0xC, 0, 1, 0⟩
/-- STR_PROG_LO[31:0] prog_lo, STG; Table 8.12. -/
def STR_PROG_LO.prog_lo (n : Nat) : Fld := ⟨strBase n + 0x10, 0, 32, 0⟩
/-- STR_PROG_HI[8:0] prog_hi, STG; Table 8.12. -/
def STR_PROG_HI.prog_hi (n : Nat) : Fld := ⟨strBase n + 0x14, 0, 9, 0⟩
/-- STR_GROUP[3:0] group, STG; Table 8.12. -/
def STR_GROUP.group (n : Nat) : Fld := ⟨strBase n + 0x18, 0, 4, 0⟩
/-- STR_GROUP[4] valid, STG; Table 8.12. -/
def STR_GROUP.valid (n : Nat) : Fld := ⟨strBase n + 0x18, 4, 1, 0⟩
/-- STR_PACK[1:0] width, STG; Table 8.12. -/
def STR_PACK.width (n : Nat) : Fld := ⟨strBase n + 0x1C, 0, 2, 0⟩
/-- STR_PACK[15:8] ts_init, STG; Table 8.12. -/
def STR_PACK.ts_init (n : Nat) : Fld := ⟨strBase n + 0x1C, 8, 8, 0⟩
/-- STR_PC_LO[31:0] pc_lo, RO; Table 8.12. -/
def STR_PC_LO.pc_lo (n : Nat) : Fld := ⟨strBase n + 0x20, 0, 32, 0⟩
/-- STR_PC_HI[8:0] pc_hi, RO; Table 8.12. -/
def STR_PC_HI.pc_hi (n : Nat) : Fld := ⟨strBase n + 0x24, 0, 9, 0⟩
/-- STR_FILL[14:0] lines, RO; Table 8.12. -/
def STR_FILL.lines (n : Nat) : Fld := ⟨strBase n + 0x28, 0, 15, 0⟩
/-- STR_VOID_CNT[31:0] count, RC; Table 8.12. -/
def STR_VOID_CNT.count (n : Nat) : Fld := ⟨strBase n + 0x2C, 0, 32, 0⟩
/-- STR_CRC_CNT[31:0] count, RC; Table 8.12. -/
def STR_CRC_CNT.count (n : Nat) : Fld := ⟨strBase n + 0x30, 0, 32, 0⟩
/-- STR_MATCH_ITER[31:0] iter, RO; Table 8.12. -/
def STR_MATCH_ITER.iter (n : Nat) : Fld := ⟨strBase n + 0x34, 0, 32, 0⟩
/-- STR_TIMEOUT_CNT[31:0] count, RC; Table 8.12. -/
def STR_TIMEOUT_CNT.count (n : Nat) : Fld := ⟨strBase n + 0x38, 0, 32, 0⟩
/-- STR_PROG_ERR[2:0] code, RO; Table 8.12. -/
def STR_PROG_ERR.code (n : Nat) : Fld := ⟨strBase n + 0x3C, 0, 3, 0⟩
/-- STR_PROG_ERR[31] valid, RO; Table 8.12. -/
def STR_PROG_ERR.valid (n : Nat) : Fld := ⟨strBase n + 0x3C, 31, 1, 0⟩
/-- STR_FAULT_LO[31:0] addr_lo, RO; Table 8.12. -/
def STR_FAULT_LO.addr_lo (n : Nat) : Fld := ⟨strBase n + 0x40, 0, 32, 0⟩
/-- STR_FAULT_HI[8:0] addr_hi, RO; Table 8.12. -/
def STR_FAULT_HI.addr_hi (n : Nat) : Fld := ⟨strBase n + 0x44, 0, 9, 0⟩
/-- STR_FAULT_HI[31] valid, RO; Table 8.12. -/
def STR_FAULT_HI.valid (n : Nat) : Fld := ⟨strBase n + 0x44, 31, 1, 0⟩
/-- STR_FAULT_RESP[2:0] resp, RO; Table 8.12. -/
def STR_FAULT_RESP.resp (n : Nat) : Fld := ⟨strBase n + 0x48, 0, 3, 0⟩
/-- APG_CTRL[3:0] gck, RW; Table 8.14. -/
def APG_CTRL.gck (g : Nat) : Fld := ⟨apgBase g, 0, 4, 0⟩
/-- APG_CTRL[4] en, RW; Table 8.14. -/
def APG_CTRL.en (g : Nat) : Fld := ⟨apgBase g, 4, 1, 0⟩
/-- APG_STEP[31:0] step, RW; Table 8.14. -/
def APG_STEP.step (g : Nat) : Fld := ⟨apgBase g + 0x4, 0, 32, 0⟩
/-- APG_STATUS[3:0] fill, RO; Table 8.14. -/
def APG_STATUS.fill (g : Nat) : Fld := ⟨apgBase g + 0x8, 0, 4, 0⟩
/-- APG_ERR[0] overflow, W1C; Table 8.14. -/
def APG_ERR.overflow (g : Nat) : Fld := ⟨apgBase g + 0xC, 0, 1, 0⟩
/-- APG_ERR[1] bad_value, W1C; Table 8.14. -/
def APG_ERR.bad_value (g : Nat) : Fld := ⟨apgBase g + 0xC, 1, 1, 0⟩
/-- APG_ERR[2] bad_count, W1C; Table 8.14. -/
def APG_ERR.bad_count (g : Nat) : Fld := ⟨apgBase g + 0xC, 2, 1, 0⟩
/-- APG_VOID_CNT[31:0] count, RC; Table 8.14. -/
def APG_VOID_CNT.count (g : Nat) : Fld := ⟨apgBase g + 0x10, 0, 32, 0⟩
/-- FL_CTRL[0] bp, STG; Table 9.8. -/
def FL_CTRL.bp (q : Nat) : Fld := ⟨flBase q, 0, 1, 0⟩
/-- FL_CTRL[1] ack_src, STG; Table 9.8. -/
def FL_CTRL.ack_src (q : Nat) : Fld := ⟨flBase q, 1, 1, 0⟩
/-- FL_STATUS[1:0] flow, RO; Table 9.8. -/
def FL_STATUS.flow (q : Nat) : Fld := ⟨flBase q + 0x4, 0, 2, 0⟩
/-- FL_STATUS[2] interval_open, RO; Table 9.8. -/
def FL_STATUS.interval_open (q : Nat) : Fld := ⟨flBase q + 0x4, 2, 1, 0⟩
/-- FL_STATUS[3] harvesting, RO; Table 9.8. -/
def FL_STATUS.harvesting (q : Nat) : Fld := ⟨flBase q + 0x4, 3, 1, 0⟩
/-- FL_STATUS[4] sealed_veto, RO; Table 9.8. -/
def FL_STATUS.sealed_veto (q : Nat) : Fld := ⟨flBase q + 0x4, 4, 1, 0⟩
/-- FL_ERR[0] level, W1C; Table 9.8. -/
def FL_ERR.level (q : Nat) : Fld := ⟨flBase q + 0x8, 0, 1, 0⟩
/-- FL_ERR[1] rate, W1C; Table 9.8. -/
def FL_ERR.rate (q : Nat) : Fld := ⟨flBase q + 0x8, 1, 1, 0⟩
/-- FL_ERR[2] stall_miss, W1C; Table 9.8. -/
def FL_ERR.stall_miss (q : Nat) : Fld := ⟨flBase q + 0x8, 2, 1, 0⟩
/-- FL_ERR[3] bm_range, W1C; Table 9.8. -/
def FL_ERR.bm_range (q : Nat) : Fld := ⟨flBase q + 0x8, 3, 1, 0⟩
/-- FL_ERR[4] bm_write, W1C; Table 9.8. -/
def FL_ERR.bm_write (q : Nat) : Fld := ⟨flBase q + 0x8, 4, 1, 0⟩
/-- FL_ERR[5] buf_write, W1C; Table 9.8. -/
def FL_ERR.buf_write (q : Nat) : Fld := ⟨flBase q + 0x8, 5, 1, 0⟩
/-- FL_ERR[6] harvest_poison, W1C; Table 9.8. -/
def FL_ERR.harvest_poison (q : Nat) : Fld := ⟨flBase q + 0x8, 6, 1, 0⟩
/-- FL_ERR[7] taint, W1C; Table 9.8. -/
def FL_ERR.taint (q : Nat) : Fld := ⟨flBase q + 0x8, 7, 1, 0⟩
/-- FL_ERR[8] bad_value, W1C; Table 9.8. -/
def FL_ERR.bad_value (q : Nat) : Fld := ⟨flBase q + 0x8, 8, 1, 0⟩
/-- FL_ERR[9] ack_err, W1C; Table 9.8. -/
def FL_ERR.ack_err (q : Nat) : Fld := ⟨flBase q + 0x8, 9, 1, 0⟩
/-- FL_CMD[0] harvest_all, WO; Table 9.8. -/
def FL_CMD.harvest_all (q : Nat) : Fld := ⟨flBase q + 0xC, 0, 1, 0⟩
/-- FL_MODE[2g+1:2g] mode, STG; Table 9.8. -/
def FL_MODE.mode (q i : Nat) : Fld := ⟨flBase q + 0x10, 2 * i, 2, 0⟩
/-- FL_LIMIT[7:0] limit, STG; Table 9.8. -/
def FL_LIMIT.limit (q : Nat) : Fld := ⟨flBase q + 0x14, 0, 8, 128⟩
/-- FL_HEADROOM[7:0] headroom, STG; Table 9.8. -/
def FL_HEADROOM.headroom (q : Nat) : Fld := ⟨flBase q + 0x18, 0, 8, 4⟩
/-- FL_RESUME[7:0] resume, STG; Table 9.8. -/
def FL_RESUME.resume (q : Nat) : Fld := ⟨flBase q + 0x1C, 0, 8, 64⟩
/-- FL_BUF_BASE_LO[31:0] base_lo, STG; Table 9.8. -/
def FL_BUF_BASE_LO.base_lo (q : Nat) : Fld := ⟨flBase q + 0x20, 0, 32, 4286578688⟩
/-- FL_BUF_BASE_HI[8:0] base_hi, STG; Table 9.8. -/
def FL_BUF_BASE_HI.base_hi (q : Nat) : Fld := ⟨flBase q + 0x24, 0, 9, q * 0x80 + 0x7F⟩
/-- FL_BUF_SIZE[5:0] log2, STG; Table 9.8. -/
def FL_BUF_SIZE.log2 (q : Nat) : Fld := ⟨flBase q + 0x28, 0, 6, 23⟩
/-- FL_DMA_CH[5:0] ch, STG; Table 9.8. -/
def FL_DMA_CH.ch (q : Nat) : Fld := ⟨flBase q + 0x2C, 0, 6, 0⟩
/-- FL_WR_PTR_LO[31:0] wr_lo, RO; Table 9.8. -/
def FL_WR_PTR_LO.wr_lo (q : Nat) : Fld := ⟨flBase q + 0x30, 0, 32, 0⟩
/-- FL_WR_PTR_HI[31:0] wr_hi, RO; Table 9.8. -/
def FL_WR_PTR_HI.wr_hi (q : Nat) : Fld := ⟨flBase q + 0x34, 0, 32, 0⟩
/-- FL_ACK_PTR_LO[31:0] ack_lo, RW; Table 9.8. -/
def FL_ACK_PTR_LO.ack_lo (q : Nat) : Fld := ⟨flBase q + 0x38, 0, 32, 0⟩
/-- FL_ACK_PTR_HI[31:0] ack_hi, RW; Table 9.8. -/
def FL_ACK_PTR_HI.ack_hi (q : Nat) : Fld := ⟨flBase q + 0x3C, 0, 32, 0⟩
/-- FL_LEVEL[23:0] level, RO; Table 9.8. -/
def FL_LEVEL.level (q : Nat) : Fld := ⟨flBase q + 0x40, 0, 24, 0⟩
/-- FL_LEVEL_MAX[23:0] max, RC; Table 9.8. -/
def FL_LEVEL_MAX.max (q : Nat) : Fld := ⟨flBase q + 0x44, 0, 24, 0⟩
/-- FL_DIRTY[16:0] lines, RO; Table 9.8. -/
def FL_DIRTY.lines (q : Nat) : Fld := ⟨flBase q + 0x48, 0, 17, 0⟩
/-- FL_SEQ[31:0] seq, RO; Table 9.8. -/
def FL_SEQ.seq (q : Nat) : Fld := ⟨flBase q + 0x4C, 0, 32, 0⟩
/-- FL_REC_CNT[31:0] count, RO; Table 9.8. -/
def FL_REC_CNT.count (q : Nat) : Fld := ⟨flBase q + 0x50, 0, 32, 0⟩
/-- FL_TAINT_CNT[31:0] count, RO; Table 9.8. -/
def FL_TAINT_CNT.count (q : Nat) : Fld := ⟨flBase q + 0x54, 0, 32, 0⟩
/-- FL_OVF_CNT[15:0] count, RO; Table 9.8. -/
def FL_OVF_CNT.count (q : Nat) : Fld := ⟨flBase q + 0x58, 0, 16, 0⟩
/-- FL_DROP_CNT[31:0] count, RC; Table 9.8. -/
def FL_DROP_CNT.count (q : Nat) : Fld := ⟨flBase q + 0x5C, 0, 32, 0⟩
/-- FL_BMDROP_CNT[31:0] count, RC; Table 9.8. -/
def FL_BMDROP_CNT.count (q : Nat) : Fld := ⟨flBase q + 0x60, 0, 32, 0⟩
/-- FL_STALL_TIME[31:0] ns, RC; Table 9.8. -/
def FL_STALL_TIME.ns (q : Nat) : Fld := ⟨flBase q + 0x64, 0, 32, 0⟩
/-- FL_BM_AGE[9:0] ms, RW; Table 9.8. -/
def FL_BM_AGE.ms (q : Nat) : Fld := ⟨flBase q + 0x68, 0, 10, 10⟩
/-- FL_FAULT_LO[31:0] addr_lo, RO; Table 9.8. -/
def FL_FAULT_LO.addr_lo (q : Nat) : Fld := ⟨flBase q + 0x6C, 0, 32, 0⟩
/-- FL_FAULT_HI[8:0] addr_hi, RO; Table 9.8. -/
def FL_FAULT_HI.addr_hi (q : Nat) : Fld := ⟨flBase q + 0x70, 0, 9, 0⟩
/-- FL_FAULT_HI[14:12] resp, RO; Table 9.8. -/
def FL_FAULT_HI.resp (q : Nat) : Fld := ⟨flBase q + 0x70, 12, 3, 0⟩
/-- FL_FAULT_HI[31] valid, RO; Table 9.8. -/
def FL_FAULT_HI.valid (q : Nat) : Fld := ⟨flBase q + 0x70, 31, 1, 0⟩
/-- FL_SEAL_PTR_LO[31:0] seal_lo, RO; Table 9.8. -/
def FL_SEAL_PTR_LO.seal_lo (q : Nat) : Fld := ⟨flBase q + 0x74, 0, 32, 0⟩
/-- FL_SEAL_PTR_HI[31:0] seal_hi, RO; Table 9.8. -/
def FL_SEAL_PTR_HI.seal_hi (q : Nat) : Fld := ⟨flBase q + 0x78, 0, 32, 0⟩
/-- FL_BM_BASE_LO[31:0] base_lo, STG; Table 9.8. -/
def FL_BM_BASE_LO.base_lo (q g : Nat) : Fld := ⟨flBase q + 0x80 + 16 * g, 0, 32, 0⟩
/-- FL_BM_BASE_HI[8:0] base_hi, STG; Table 9.8. -/
def FL_BM_BASE_HI.base_hi (q g : Nat) : Fld := ⟨flBase q + 0x84 + 16 * g, 0, 9, 0⟩
/-- FL_BM_SIZE[5:0] log2, STG; Table 9.8. -/
def FL_BM_SIZE.log2 (q g : Nat) : Fld := ⟨flBase q + 0x88 + 16 * g, 0, 6, 12⟩
/-- FL_BM_CFG[2:0] lanes, STG; Table 9.8. -/
def FL_BM_CFG.lanes (q g : Nat) : Fld := ⟨flBase q + 0x8C + 16 * g, 0, 3, 0⟩
/-- FL_BM_CFG[3] addr_src, STG; Table 9.8. -/
def FL_BM_CFG.addr_src (q g : Nat) : Fld := ⟨flBase q + 0x8C + 16 * g, 3, 1, 0⟩
/-- FL_BM_LANE[4n+3:4n] lane, STG; Table 9.8. -/
def FL_BM_LANE.lane (q i k : Nat) : Fld := ⟨flBase q + 0x200 + 4 * i, 4 * k, 4, 0⟩
/-- FL_CNT[31:0] count, RO; Table 9.8. -/
def FL_CNT.count (q c : Nat) : Fld := ⟨flBase q + 0x400 + 4 * c, 0, 32, 0⟩
/-- CL_CTRL[3:0] gck, RW; Table 10.10. -/
def CL_CTRL.gck (j : Nat) : Fld := ⟨clBase j, 0, 4, 0⟩
/-- CL_CTRL[7:4] port_gck, RW; Table 10.10. -/
def CL_CTRL.port_gck (j : Nat) : Fld := ⟨clBase j, 4, 4, 0⟩
/-- CL_CTRL[8] poison_trap, RW; Table 10.10. -/
def CL_CTRL.poison_trap (j : Nat) : Fld := ⟨clBase j, 8, 1, 0⟩
/-- CL_CTRL[9] done_evt, RW; Table 10.10. -/
def CL_CTRL.done_evt (j : Nat) : Fld := ⟨clBase j, 9, 1, 0⟩
/-- CL_STATUS[2:0] state, RO; Table 10.10. -/
def CL_STATUS.state (j : Nat) : Fld := ⟨clBase j + 0x4, 0, 3, 0⟩
/-- CL_STATUS[3] ucode_valid, RO; Table 10.10. -/
def CL_STATUS.ucode_valid (j : Nat) : Fld := ⟨clBase j + 0x4, 3, 1, 0⟩
/-- CL_STATUS[4] ucode_busy, RO; Table 10.10. -/
def CL_STATUS.ucode_busy (j : Nat) : Fld := ⟨clBase j + 0x4, 4, 1, 0⟩
/-- CL_STATUS[5] xfer_busy, RO; Table 10.10. -/
def CL_STATUS.xfer_busy (j : Nat) : Fld := ⟨clBase j + 0x4, 5, 1, 0⟩
/-- CL_STATUS[8:6] depth, RO; Table 10.10. -/
def CL_STATUS.depth (j : Nat) : Fld := ⟨clBase j + 0x4, 6, 3, 0⟩
/-- CL_STATUS[9] run_veto, RO; Table 10.10. -/
def CL_STATUS.run_veto (j : Nat) : Fld := ⟨clBase j + 0x4, 9, 1, 0⟩
/-- CL_STATUS[10] acc_poison, RO; Table 10.10. -/
def CL_STATUS.acc_poison (j : Nat) : Fld := ⟨clBase j + 0x4, 10, 1, 0⟩
/-- CL_ERR[0] trap, W1C; Table 10.10. -/
def CL_ERR.trap (j : Nat) : Fld := ⟨clBase j + 0x8, 0, 1, 0⟩
/-- CL_ERR[1] ucode_load, W1C; Table 10.10. -/
def CL_ERR.ucode_load (j : Nat) : Fld := ⟨clBase j + 0x8, 1, 1, 0⟩
/-- CL_ERR[2] lm_ue, W1C; Table 10.10. -/
def CL_ERR.lm_ue (j : Nat) : Fld := ⟨clBase j + 0x8, 2, 1, 0⟩
/-- CL_ERR[3] xfer_err, W1C; Table 10.10. -/
def CL_ERR.xfer_err (j : Nat) : Fld := ⟨clBase j + 0x8, 3, 1, 0⟩
/-- CL_ERR[4] taint, W1C; Table 10.10. -/
def CL_ERR.taint (j : Nat) : Fld := ⟨clBase j + 0x8, 4, 1, 0⟩
/-- CL_ERR[5] acc_ovf, W1C; Table 10.10. -/
def CL_ERR.acc_ovf (j : Nat) : Fld := ⟨clBase j + 0x8, 5, 1, 0⟩
/-- CL_ERR[6] start_refused, W1C; Table 10.10. -/
def CL_ERR.start_refused (j : Nat) : Fld := ⟨clBase j + 0x8, 6, 1, 0⟩
/-- CL_ERR[7] bad_value, W1C; Table 10.10. -/
def CL_ERR.bad_value (j : Nat) : Fld := ⟨clBase j + 0x8, 7, 1, 0⟩
/-- CL_CMD[0] start, WO; Table 10.10. -/
def CL_CMD.start (j : Nat) : Fld := ⟨clBase j + 0xC, 0, 1, 0⟩
/-- CL_CMD[1] resume, WO; Table 10.10. -/
def CL_CMD.resume (j : Nat) : Fld := ⟨clBase j + 0xC, 1, 1, 0⟩
/-- CL_CMD[2] halt, WO; Table 10.10. -/
def CL_CMD.halt (j : Nat) : Fld := ⟨clBase j + 0xC, 2, 1, 0⟩
/-- CL_CMD[3] load_ucode, WO; Table 10.10. -/
def CL_CMD.load_ucode (j : Nat) : Fld := ⟨clBase j + 0xC, 3, 1, 0⟩
/-- CL_CMD[4] irq, WO; Table 10.10. -/
def CL_CMD.irq (j : Nat) : Fld := ⟨clBase j + 0xC, 4, 1, 0⟩
/-- CL_PC[11:0] pc, RO; Table 10.10. -/
def CL_PC.pc (j : Nat) : Fld := ⟨clBase j + 0x10, 0, 12, 0⟩
/-- CL_START[11:0] start, RW; Table 10.10. -/
def CL_START.start (j : Nat) : Fld := ⟨clBase j + 0x14, 0, 12, 0⟩
/-- CL_UCODE_BASE_LO[31:0] base_lo, RW; Table 10.10. -/
def CL_UCODE_BASE_LO.base_lo (j : Nat) : Fld := ⟨clBase j + 0x18, 0, 32, 0⟩
/-- CL_UCODE_BASE_HI[8:0] base_hi, RW; Table 10.10. -/
def CL_UCODE_BASE_HI.base_hi (j : Nat) : Fld := ⟨clBase j + 0x1C, 0, 9, 0⟩
/-- CL_TRAP[3:0] cause, RO; Table 10.10. -/
def CL_TRAP.cause (j : Nat) : Fld := ⟨clBase j + 0x20, 0, 4, 0⟩
/-- CL_TRAP[4] fatal, RO; Table 10.10. -/
def CL_TRAP.fatal (j : Nat) : Fld := ⟨clBase j + 0x20, 4, 1, 0⟩
/-- CL_TRAP[27:16] pc, RO; Table 10.10. -/
def CL_TRAP.pc (j : Nat) : Fld := ⟨clBase j + 0x20, 16, 12, 0⟩
/-- CL_IRA[11:0] ira, RO; Table 10.10. -/
def CL_IRA.ira (j : Nat) : Fld := ⟨clBase j + 0x24, 0, 12, 0⟩
/-- CL_IRQ_EN[5:0] en, RW; Table 10.10. -/
def CL_IRQ_EN.en (j : Nat) : Fld := ⟨clBase j + 0x28, 0, 6, 0⟩
/-- CL_IRQ_PEND[5:0] pend, W1C; Table 10.10. -/
def CL_IRQ_PEND.pend (j : Nat) : Fld := ⟨clBase j + 0x2C, 0, 6, 0⟩
/-- CL_UC_REFETCH_CNT[31:0] count, RC; Table 10.10. -/
def CL_UC_REFETCH_CNT.count (j : Nat) : Fld := ⟨clBase j + 0x30, 0, 32, 0⟩
/-- CL_LM_CE_CNT[31:0] count, RC; Table 10.10. -/
def CL_LM_CE_CNT.count (j : Nat) : Fld := ⟨clBase j + 0x34, 0, 32, 0⟩
/-- CL_LM_UE_CNT[31:0] count, RC; Table 10.10. -/
def CL_LM_UE_CNT.count (j : Nat) : Fld := ⟨clBase j + 0x38, 0, 32, 0⟩
/-- CL_SAT_CNT[31:0] count, RC; Table 10.10. -/
def CL_SAT_CNT.count (j : Nat) : Fld := ⟨clBase j + 0x3C, 0, 32, 0⟩
/-- CL_FAULT_LO[31:0] addr_lo, RO; Table 10.10. -/
def CL_FAULT_LO.addr_lo (j : Nat) : Fld := ⟨clBase j + 0x40, 0, 32, 0⟩
/-- CL_FAULT_HI[8:0] addr_hi, RO; Table 10.10. -/
def CL_FAULT_HI.addr_hi (j : Nat) : Fld := ⟨clBase j + 0x44, 0, 9, 0⟩
/-- CL_FAULT_HI[14:12] resp, RO; Table 10.10. -/
def CL_FAULT_HI.resp (j : Nat) : Fld := ⟨clBase j + 0x44, 12, 3, 0⟩
/-- CL_FAULT_HI[31] valid, RO; Table 10.10. -/
def CL_FAULT_HI.valid (j : Nat) : Fld := ⟨clBase j + 0x44, 31, 1, 0⟩
/-- CL_TAINT_STAMP_LO[31:0] stamp_lo, RO; Table 10.10. -/
def CL_TAINT_STAMP_LO.stamp_lo (j : Nat) : Fld := ⟨clBase j + 0x48, 0, 32, 0⟩
/-- CL_TAINT_STAMP_HI[23:0] stamp_hi, RO; Table 10.10. -/
def CL_TAINT_STAMP_HI.stamp_hi (j : Nat) : Fld := ⟨clBase j + 0x4C, 0, 24, 0⟩
/-- CL_LM_ADDR[16:2] addr, RW; Table 10.10. -/
def CL_LM_ADDR.addr (j : Nat) : Fld := ⟨clBase j + 0x50, 2, 15, 0⟩
/-- CL_LM_DATA[31:0] data, RW; Table 10.10. -/
def CL_LM_DATA.data (j : Nat) : Fld := ⟨clBase j + 0x54, 0, 32, 0⟩
/-- CL_FIFO[5:0] in_fill, RO; Table 10.10. -/
def CL_FIFO.in_fill (j : Nat) : Fld := ⟨clBase j + 0x58, 0, 6, 0⟩
/-- CL_FIFO[13:8] out_fill, RO; Table 10.10. -/
def CL_FIFO.out_fill (j : Nat) : Fld := ⟨clBase j + 0x58, 8, 6, 0⟩
/-- CL_UC_ADDR[11:0] addr, RW; Table 10.10. -/
def CL_UC_ADDR.addr (j : Nat) : Fld := ⟨clBase j + 0x60, 0, 12, 0⟩
/-- CL_UC_DATA_LO[31:0] lo, RO; Table 10.10. -/
def CL_UC_DATA_LO.lo (j : Nat) : Fld := ⟨clBase j + 0x64, 0, 32, 0⟩
/-- CL_UC_DATA_HI[31:0] hi, RO; Table 10.10. -/
def CL_UC_DATA_HI.hi (j : Nat) : Fld := ⟨clBase j + 0x68, 0, 32, 0⟩
/-- CL_AG_LO[10:0] base, RW; Table 10.10. -/
def CL_AG_LO.base (j a : Nat) : Fld := ⟨clBase j + 0x100 + 8 * a, 0, 11, 0⟩
/-- CL_AG_LO[27:16] len, RW; Table 10.10. -/
def CL_AG_LO.len (j a : Nat) : Fld := ⟨clBase j + 0x100 + 8 * a, 16, 12, 0⟩
/-- CL_AG_HI[11:0] step, RW; Table 10.10. -/
def CL_AG_HI.step (j a : Nat) : Fld := ⟨clBase j + 0x104 + 8 * a, 0, 12, 0⟩
/-- CL_AG_HI[26:16] ptr, RW; Table 10.10. -/
def CL_AG_HI.ptr (j a : Nat) : Fld := ⟨clBase j + 0x104 + 8 * a, 16, 11, 0⟩
/-- CL_LOOP_LO[31:0] count, RO; Table 10.10. -/
def CL_LOOP_LO.count (j l : Nat) : Fld := ⟨clBase j + 0x140 + 8 * l, 0, 32, 0⟩
/-- CL_LOOP_HI[11:0] end, RO; Table 10.10. -/
def CL_LOOP_HI.end_ (j l : Nat) : Fld := ⟨clBase j + 0x144 + 8 * l, 0, 12, 0⟩
/-- CL_LOOP_HI[23:12] start, RO; Table 10.10. -/
def CL_LOOP_HI.start (j l : Nat) : Fld := ⟨clBase j + 0x144 + 8 * l, 12, 12, 0⟩
/-- CL_LOOP_HI[24] handler, RO; Table 10.10. -/
def CL_LOOP_HI.handler (j l : Nat) : Fld := ⟨clBase j + 0x144 + 8 * l, 24, 1, 0⟩
/-- CL_LOOP_HI[31] valid, RO; Table 10.10. -/
def CL_LOOP_HI.valid (j l : Nat) : Fld := ⟨clBase j + 0x144 + 8 * l, 31, 1, 0⟩
/-- CL_X_LO[31:0] lo, RW; Table 10.10. -/
def CL_X_LO.lo (j x : Nat) : Fld := ⟨clBase j + 0x200 + 8 * x, 0, 32, 0⟩
/-- CL_X_HI[31:0] hi, RW; Table 10.10. -/
def CL_X_HI.hi (j x : Nat) : Fld := ⟨clBase j + 0x204 + 8 * x, 0, 32, 0⟩
/-- CL_ACC_LO[31:0] lo, RW; Table 10.10. -/
def CL_ACC_LO.lo (j s : Nat) : Fld := ⟨clBase j + 0x280 + 16 * s, 0, 32, 0⟩
/-- CL_ACC_MID[31:0] mid, RW; Table 10.10. -/
def CL_ACC_MID.mid (j s : Nat) : Fld := ⟨clBase j + 0x284 + 16 * s, 0, 32, 0⟩
/-- CL_ACC_TOP[7:0] top, RW; Table 10.10. -/
def CL_ACC_TOP.top (j s : Nat) : Fld := ⟨clBase j + 0x288 + 16 * s, 0, 8, 0⟩
/-- CL_ACC_TOP[8] poison, RW; Table 10.10. -/
def CL_ACC_TOP.poison (j s : Nat) : Fld := ⟨clBase j + 0x288 + 16 * s, 8, 1, 0⟩
/-- DMC_CTRL[15:0] pd_idle, RW; Table 11.9. -/
def DMC_CTRL.pd_idle (c : Nat) : Fld := ⟨dmcBase c, 0, 16, 100⟩
/-- DMC_STATUS[2:0] state, RO; Table 11.9. -/
def DMC_STATUS.state (c : Nat) : Fld := ⟨dmcBase c + 0x4, 0, 3, 0⟩
/-- DMC_STATUS[4:3] sp_active, RO; Table 11.9. -/
def DMC_STATUS.sp_active (c : Nat) : Fld := ⟨dmcBase c + 0x4, 3, 2, 0⟩
/-- DMC_STATUS[8:5] ch_failed, RO; Table 11.9. -/
def DMC_STATUS.ch_failed (c : Nat) : Fld := ⟨dmcBase c + 0x4, 5, 4, 0⟩
/-- DMC_STATUS[12:9] ch_training, RO; Table 11.9. -/
def DMC_STATUS.ch_training (c : Nat) : Fld := ⟨dmcBase c + 0x4, 9, 4, 0⟩
/-- DMC_ERR[0] train_fail, W1C; Table 11.9. -/
def DMC_ERR.train_fail (c : Nat) : Fld := ⟨dmcBase c + 0x8, 0, 1, 0⟩
/-- DMC_ERR[1] ring_timeout, W1C; Table 11.9. -/
def DMC_ERR.ring_timeout (c : Nat) : Fld := ⟨dmcBase c + 0x8, 1, 1, 0⟩
/-- DMC_ERR[2] hot, W1C; Table 11.9. -/
def DMC_ERR.hot (c : Nat) : Fld := ⟨dmcBase c + 0x8, 2, 1, 0⟩
/-- DMC_ERR[3] ppr_refused, W1C; Table 11.9. -/
def DMC_ERR.ppr_refused (c : Nat) : Fld := ⟨dmcBase c + 0x8, 3, 1, 0⟩
/-- DMC_ERR[4] ppr_fail, W1C; Table 11.9. -/
def DMC_ERR.ppr_fail (c : Nat) : Fld := ⟨dmcBase c + 0x8, 4, 1, 0⟩
/-- DMC_ERR[5] bad_value, W1C; Table 11.9. -/
def DMC_ERR.bad_value (c : Nat) : Fld := ⟨dmcBase c + 0x8, 5, 1, 0⟩
/-- DMC_CMD[0] retrain, WO; Table 11.9. -/
def DMC_CMD.retrain (c : Nat) : Fld := ⟨dmcBase c + 0xC, 0, 1, 0⟩
/-- DMC_CMD[1] ppr, WO; Table 11.9. -/
def DMC_CMD.ppr (c : Nat) : Fld := ⟨dmcBase c + 0xC, 1, 1, 0⟩
/-- DMC_SP_SEL[1:0] sp, STG; Table 11.9. -/
def DMC_SP_SEL.sp (c : Nat) : Fld := ⟨dmcBase c + 0x10, 0, 2, 0⟩
/-- DMC_SP_CFG[2:0] rate, RW; Table 11.9. -/
def DMC_SP_CFG.rate (c n : Nat) : Fld := ⟨dmcBase c + 0x14 + 4 * n, 0, 3, (if n = 0 then 5 else if n = 1 then 3 else 0)⟩
/-- DMC_TRAIN_STORED[2:0] sp, RO; Table 11.9. -/
def DMC_TRAIN_STORED.sp (c : Nat) : Fld := ⟨dmcBase c + 0x20, 0, 3, 0⟩
/-- DMC_RETRAIN_DT[7:0] dt, RW; Table 11.9. -/
def DMC_RETRAIN_DT.dt (c : Nat) : Fld := ⟨dmcBase c + 0x24, 0, 8, 80⟩
/-- DMC_TEMP[15:0] temp, RO; Table 11.9. -/
def DMC_TEMP.temp (c : Nat) : Fld := ⟨dmcBase c + 0x28, 0, 16, 0⟩
/-- DMC_REF_RATE[7:0] rate, RO; Table 11.9. -/
def DMC_REF_RATE.rate (c : Nat) : Fld := ⟨dmcBase c + 0x2C, 0, 8, 0⟩
/-- DMC_REF_POSTPONE_MAX[3:0] depth, RC; Table 11.9. -/
def DMC_REF_POSTPONE_MAX.depth (c : Nat) : Fld := ⟨dmcBase c + 0x30, 0, 4, 0⟩
/-- DMC_LP_CANCEL_CNT[31:0] count, RC; Table 11.9. -/
def DMC_LP_CANCEL_CNT.count (c : Nat) : Fld := ⟨dmcBase c + 0x34, 0, 32, 0⟩
/-- DMC_LP_ABORT_CNT[31:0] count, RC; Table 11.9. -/
def DMC_LP_ABORT_CNT.count (c : Nat) : Fld := ⟨dmcBase c + 0x38, 0, 32, 0⟩
/-- DMC_PPR_ADDR[1:0] ch, RW; Table 11.9. -/
def DMC_PPR_ADDR.ch (c : Nat) : Fld := ⟨dmcBase c + 0x40, 0, 2, 0⟩
/-- DMC_PPR_ADDR[6:2] bank, RW; Table 11.9. -/
def DMC_PPR_ADDR.bank (c : Nat) : Fld := ⟨dmcBase c + 0x40, 2, 5, 0⟩
/-- DMC_PPR_ADDR[25:8] row, RW; Table 11.9. -/
def DMC_PPR_ADDR.row (c : Nat) : Fld := ⟨dmcBase c + 0x40, 8, 18, 0⟩
/-- DMC_PPR_STATUS[0] busy, RO; Table 11.9. -/
def DMC_PPR_STATUS.busy (c : Nat) : Fld := ⟨dmcBase c + 0x44, 0, 1, 0⟩
/-- DMC_PPR_STATUS[1] avail, RO; Table 11.9. -/
def DMC_PPR_STATUS.avail (c : Nat) : Fld := ⟨dmcBase c + 0x44, 1, 1, 0⟩
/-- DMC_RD_CNT[31:0] count, RC; Table 11.9. -/
def DMC_RD_CNT.count (c : Nat) : Fld := ⟨dmcBase c + 0x48, 0, 32, 0⟩
/-- DMC_WR_CNT[31:0] count, RC; Table 11.9. -/
def DMC_WR_CNT.count (c : Nat) : Fld := ⟨dmcBase c + 0x4C, 0, 32, 0⟩
/-- DMC_ORW_CNT[31:0] count, RC; Table 11.9. -/
def DMC_ORW_CNT.count (c : Nat) : Fld := ⟨dmcBase c + 0x50, 0, 32, 0⟩
/-- DMC_ACT_CNT[31:0] count, RC; Table 11.9. -/
def DMC_ACT_CNT.count (c : Nat) : Fld := ⟨dmcBase c + 0x54, 0, 32, 0⟩
/-- DMC_CHK_HIT_CNT[31:0] count, RC; Table 11.9. -/
def DMC_CHK_HIT_CNT.count (c : Nat) : Fld := ⟨dmcBase c + 0x58, 0, 32, 0⟩
/-- DMC_CHK_MISS_CNT[31:0] count, RC; Table 11.9. -/
def DMC_CHK_MISS_CNT.count (c : Nat) : Fld := ⟨dmcBase c + 0x5C, 0, 32, 0⟩
/-- DMC_QDEPTH_MAX[4:0] depth, RC; Table 11.9. -/
def DMC_QDEPTH_MAX.depth (c : Nat) : Fld := ⟨dmcBase c + 0x60, 0, 5, 0⟩
/-- DMC_MAP[0] mode, RW; Table 11.10. -/
def DMC_MAP.mode (x : Nat) : Fld := ⟨0x02020000 + 0x3000 + 4 * x, 0, 1, 0⟩
/-- DMC_MAP[4:1] grain, RW; Table 11.10. -/
def DMC_MAP.grain (x : Nat) : Fld := ⟨0x02020000 + 0x3000 + 4 * x, 1, 4, 4⟩
/-- DMC_MAP_CMD[0] apply, WO; Table 11.10. -/
def DMC_MAP_CMD.apply : Fld := ⟨0x02020000 + 0x3100, 0, 1, 0⟩
/-- DMC_MAP_STATUS[0] busy, RO; Table 11.10. -/
def DMC_MAP_STATUS.busy : Fld := ⟨0x02020000 + 0x3104, 0, 1, 0⟩
/-- DMC_MAP_STATUS[1] init_busy, RO; Table 11.10. -/
def DMC_MAP_STATUS.init_busy : Fld := ⟨0x02020000 + 0x3104, 1, 1, 1⟩
/-- DMC_MAP_STATUS[14:8] init_done, RO; Table 11.10. -/
def DMC_MAP_STATUS.init_done : Fld := ⟨0x02020000 + 0x3104, 8, 7, 0⟩
/-- DMC_MAP_STATUS[31:16] deny, RC; Table 11.10. -/
def DMC_MAP_STATUS.deny : Fld := ⟨0x02020000 + 0x3104, 16, 16, 0⟩
/-- ECC_CTRL[2:0] max_correct, RW; Table 12.4. -/
def ECC_CTRL.max_correct (c : Nat) : Fld := ⟨eccBase c, 0, 3, 4⟩
/-- ECC_CTRL[3] wb_en, RW; Table 12.4. -/
def ECC_CTRL.wb_en (c : Nat) : Fld := ⟨eccBase c, 3, 1, 1⟩
/-- ECC_CTRL[6:4] wb_thresh, RW; Table 12.4. -/
def ECC_CTRL.wb_thresh (c : Nat) : Fld := ⟨eccBase c, 4, 3, 1⟩
/-- ECC_ERR[0] ue, W1C; Table 12.4. -/
def ECC_ERR.ue (c : Nat) : Fld := ⟨eccBase c + 0x4, 0, 1, 0⟩
/-- ECC_ERR[1] poison_write, W1C; Table 12.4. -/
def ECC_ERR.poison_write (c : Nat) : Fld := ⟨eccBase c + 0x4, 1, 1, 0⟩
/-- ECC_ERR[2] hard, W1C; Table 12.4. -/
def ECC_ERR.hard (c : Nat) : Fld := ⟨eccBase c + 0x4, 2, 1, 0⟩
/-- ECC_ERR[3] ce_rate, W1C; Table 12.4. -/
def ECC_ERR.ce_rate (c : Nat) : Fld := ⟨eccBase c + 0x4, 3, 1, 0⟩
/-- ECC_ERR[4] lap_late, W1C; Table 12.4. -/
def ECC_ERR.lap_late (c : Nat) : Fld := ⟨eccBase c + 0x4, 4, 1, 0⟩
/-- ECC_ERR[5] host_poison, W1C; Table 12.4. -/
def ECC_ERR.host_poison (c : Nat) : Fld := ⟨eccBase c + 0x4, 5, 1, 0⟩
/-- ECC_ERR[6] bad_value, W1C; Table 12.4. -/
def ECC_ERR.bad_value (c : Nat) : Fld := ⟨eccBase c + 0x4, 6, 1, 0⟩
/-- ECC_CMD[0] clear_log, WO; Table 12.4. -/
def ECC_CMD.clear_log (c : Nat) : Fld := ⟨eccBase c + 0x8, 0, 1, 0⟩
/-- ECC_CE_CNT[31:0] count, RC; Table 12.4. -/
def ECC_CE_CNT.count (c : Nat) : Fld := ⟨eccBase c + 0xC, 0, 32, 0⟩
/-- ECC_CE_HIST[31:0] hist, RC; Table 12.4. -/
def ECC_CE_HIST.hist (c : Nat) : Fld := ⟨eccBase c + 0x10, 0, 32, 0⟩
/-- ECC_UE_CNT[31:0] count, RC; Table 12.4. -/
def ECC_UE_CNT.count (c : Nat) : Fld := ⟨eccBase c + 0x14, 0, 32, 0⟩
/-- ECC_POISON_RD_CNT[31:0] count, RC; Table 12.4. -/
def ECC_POISON_RD_CNT.count (c : Nat) : Fld := ⟨eccBase c + 0x18, 0, 32, 0⟩
/-- ECC_HARD_CNT[31:0] count, RC; Table 12.4. -/
def ECC_HARD_CNT.count (c : Nat) : Fld := ⟨eccBase c + 0x1C, 0, 32, 0⟩
/-- ECC_CE_THRESH[31:0] thresh, RW; Table 12.4. -/
def ECC_CE_THRESH.thresh (c : Nat) : Fld := ⟨eccBase c + 0x20, 0, 32, 0⟩
/-- ECC_FIRST_CE_LO[31:0] addr_lo, RO; Table 12.4. -/
def ECC_FIRST_CE_LO.addr_lo (c : Nat) : Fld := ⟨eccBase c + 0x24, 0, 32, 0⟩
/-- ECC_FIRST_CE_HI[8:0] addr_hi, RO; Table 12.4. -/
def ECC_FIRST_CE_HI.addr_hi (c : Nat) : Fld := ⟨eccBase c + 0x28, 0, 9, 0⟩
/-- ECC_FIRST_CE_HI[11:9] symbols, RO; Table 12.4. -/
def ECC_FIRST_CE_HI.symbols (c : Nat) : Fld := ⟨eccBase c + 0x28, 9, 3, 0⟩
/-- ECC_FIRST_CE_HI[19:12] channel, RO; Table 12.4. -/
def ECC_FIRST_CE_HI.channel (c : Nat) : Fld := ⟨eccBase c + 0x28, 12, 8, 0⟩
/-- ECC_FIRST_CE_HI[31] valid, RO; Table 12.4. -/
def ECC_FIRST_CE_HI.valid (c : Nat) : Fld := ⟨eccBase c + 0x28, 31, 1, 0⟩
/-- ECC_LOG_SEL[3:0] entry, RW; Table 12.4. -/
def ECC_LOG_SEL.entry (c : Nat) : Fld := ⟨eccBase c + 0x30, 0, 4, 0⟩
/-- ECC_LOG_ADDR_LO[31:0] addr_lo, RO; Table 12.4. -/
def ECC_LOG_ADDR_LO.addr_lo (c : Nat) : Fld := ⟨eccBase c + 0x34, 0, 32, 0⟩
/-- ECC_LOG_ADDR_HI[8:0] addr_hi, RO; Table 12.4. -/
def ECC_LOG_ADDR_HI.addr_hi (c : Nat) : Fld := ⟨eccBase c + 0x38, 0, 9, 0⟩
/-- ECC_LOG_ADDR_HI[11:9] symbols, RO; Table 12.4. -/
def ECC_LOG_ADDR_HI.symbols (c : Nat) : Fld := ⟨eccBase c + 0x38, 9, 3, 0⟩
/-- ECC_LOG_ADDR_HI[13:12] kind, RO; Table 12.4. -/
def ECC_LOG_ADDR_HI.kind (c : Nat) : Fld := ⟨eccBase c + 0x38, 12, 2, 0⟩
/-- ECC_LOG_ADDR_HI[14] patrol, RO; Table 12.4. -/
def ECC_LOG_ADDR_HI.patrol (c : Nat) : Fld := ⟨eccBase c + 0x38, 14, 1, 0⟩
/-- ECC_LOG_ADDR_HI[22:15] channel, RO; Table 12.4. -/
def ECC_LOG_ADDR_HI.channel (c : Nat) : Fld := ⟨eccBase c + 0x38, 15, 8, 0⟩
/-- ECC_LOG_ADDR_HI[31] valid, RO; Table 12.4. -/
def ECC_LOG_ADDR_HI.valid (c : Nat) : Fld := ⟨eccBase c + 0x38, 31, 1, 0⟩
/-- ECC_LOG_SLOT[27:0] slot, RO; Table 12.4. -/
def ECC_LOG_SLOT.slot (c : Nat) : Fld := ⟨eccBase c + 0x3C, 0, 28, 0⟩
/-- ECC_LOG_STAMP_LO[31:0] stamp_lo, RO; Table 12.4. -/
def ECC_LOG_STAMP_LO.stamp_lo (c : Nat) : Fld := ⟨eccBase c + 0x40, 0, 32, 0⟩
/-- ECC_LOG_STAMP_HI[23:0] stamp_hi, RO; Table 12.4. -/
def ECC_LOG_STAMP_HI.stamp_hi (c : Nat) : Fld := ⟨eccBase c + 0x44, 0, 24, 0⟩
/-- ECC_LOG_LOST[15:0] count, RC; Table 12.4. -/
def ECC_LOG_LOST.count (c : Nat) : Fld := ⟨eccBase c + 0x48, 0, 16, 0⟩
/-- PAT_CTRL[0] en, RW; Table 12.4. -/
def PAT_CTRL.en (c : Nat) : Fld := ⟨eccBase c + 0x60, 0, 1, 1⟩
/-- PAT_INTERVAL[23:0] ns, RW; Table 12.4. -/
def PAT_INTERVAL.ns (c : Nat) : Fld := ⟨eccBase c + 0x64, 0, 24, 180000⟩
/-- PAT_TARGET[15:0] minutes, RW; Table 12.4. -/
def PAT_TARGET.minutes (c : Nat) : Fld := ⟨eccBase c + 0x68, 0, 16, 1440⟩
/-- PAT_POS[27:0] slot, RO; Table 12.4. -/
def PAT_POS.slot (c : Nat) : Fld := ⟨eccBase c + 0x6C, 0, 28, 0⟩
/-- PAT_CUR_LAP[31:0] s, RO; Table 12.4. -/
def PAT_CUR_LAP.s (c : Nat) : Fld := ⟨eccBase c + 0x70, 0, 32, 0⟩
/-- PAT_LAST_LAP[31:0] s, RO; Table 12.4. -/
def PAT_LAST_LAP.s (c : Nat) : Fld := ⟨eccBase c + 0x74, 0, 32, 0⟩
/-- PAT_LAP_CNT[31:0] count, RO; Table 12.4. -/
def PAT_LAP_CNT.count (c : Nat) : Fld := ⟨eccBase c + 0x78, 0, 32, 0⟩
/-- PAT_LAST_LINES[31:0] lines, RO; Table 12.4. -/
def PAT_LAST_LINES.lines (c : Nat) : Fld := ⟨eccBase c + 0x7C, 0, 32, 0⟩
/-- PR_STATUS[15:0] ready, RO; Table 13.7. -/
def PR_STATUS.ready : Fld := ⟨0x000C0000, 0, 16, 0⟩
/-- PR_STATUS[31:16] busy, RO; Table 13.7. -/
def PR_STATUS.busy : Fld := ⟨0x000C0000, 16, 16, 0⟩
/-- PR_ERR[0] tag_fail, W1C; Table 13.7. -/
def PR_ERR.tag_fail : Fld := ⟨0x000C0000 + 0x4, 0, 1, 0⟩
/-- PR_ERR[1] tree_ue, W1C; Table 13.7. -/
def PR_ERR.tree_ue : Fld := ⟨0x000C0000 + 0x4, 1, 1, 0⟩
/-- PR_ERR[2] root_ue, W1C; Table 13.7. -/
def PR_ERR.root_ue : Fld := ⟨0x000C0000 + 0x4, 2, 1, 0⟩
/-- PR_ERR[3] exhausted, W1C; Table 13.7. -/
def PR_ERR.exhausted : Fld := ⟨0x000C0000 + 0x4, 3, 1, 0⟩
/-- PR_ERR[4] tollgate, W1C; Table 13.7. -/
def PR_ERR.tollgate : Fld := ⟨0x000C0000 + 0x4, 4, 1, 0⟩
/-- PR_ERR[5] kid_refused, W1C; Table 13.7. -/
def PR_ERR.kid_refused : Fld := ⟨0x000C0000 + 0x4, 5, 1, 0⟩
/-- PR_ERR[6] bad_value, W1C; Table 13.7. -/
def PR_ERR.bad_value : Fld := ⟨0x000C0000 + 0x4, 6, 1, 0⟩
/-- PR_KID_CMD[3:0] slot, WO; Table 13.7. -/
def PR_KID_CMD.slot : Fld := ⟨0x000C0000 + 0x8, 0, 4, 0⟩
/-- PR_KID_CMD[11:4] kid, WO; Table 13.7. -/
def PR_KID_CMD.kid : Fld := ⟨0x000C0000 + 0x8, 4, 8, 0⟩
/-- PR_KID_CMD[12] activate, WO; Table 13.7. -/
def PR_KID_CMD.activate : Fld := ⟨0x000C0000 + 0x8, 12, 1, 0⟩
/-- PR_KID_CMD[13] retire, WO; Table 13.7. -/
def PR_KID_CMD.retire : Fld := ⟨0x000C0000 + 0x8, 13, 1, 0⟩
/-- PR_KID_RESULT[1:0] result, RO; Table 13.7. -/
def PR_KID_RESULT.result : Fld := ⟨0x000C0000 + 0xC, 0, 2, 0⟩
/-- PR_TG_DENY_CNT[31:0] count, RC; Table 13.7. -/
def PR_TG_DENY_CNT.count : Fld := ⟨0x000C0000 + 0x10, 0, 32, 0⟩
/-- PR_TG_LAST_LO[31:0] addr_lo, RO; Table 13.7. -/
def PR_TG_LAST_LO.addr_lo : Fld := ⟨0x000C0000 + 0x14, 0, 32, 0⟩
/-- PR_TG_LAST_HI[8:0] addr_hi, RO; Table 13.7. -/
def PR_TG_LAST_HI.addr_hi : Fld := ⟨0x000C0000 + 0x18, 0, 9, 0⟩
/-- PR_TG_LAST_HI[11:9] class, RO; Table 13.7. -/
def PR_TG_LAST_HI.class_ : Fld := ⟨0x000C0000 + 0x18, 9, 3, 0⟩
/-- PR_TG_LAST_HI[17:12] dma_ch, RO; Table 13.7. -/
def PR_TG_LAST_HI.dma_ch : Fld := ⟨0x000C0000 + 0x18, 12, 6, 0⟩
/-- PR_TG_LAST_HI[31] valid, RO; Table 13.7. -/
def PR_TG_LAST_HI.valid : Fld := ⟨0x000C0000 + 0x18, 31, 1, 0⟩
/-- PR_LOG_SEL[3:0] entry, RW; Table 13.7. -/
def PR_LOG_SEL.entry : Fld := ⟨0x000C0000 + 0x20, 0, 4, 0⟩
/-- PR_LOG_ADDR_LO[31:0] addr_lo, RO; Table 13.7. -/
def PR_LOG_ADDR_LO.addr_lo : Fld := ⟨0x000C0000 + 0x24, 0, 32, 0⟩
/-- PR_LOG_ADDR_HI[8:0] addr_hi, RO; Table 13.7. -/
def PR_LOG_ADDR_HI.addr_hi : Fld := ⟨0x000C0000 + 0x28, 0, 9, 0⟩
/-- PR_LOG_ADDR_HI[12:9] range, RO; Table 13.7. -/
def PR_LOG_ADDR_HI.range : Fld := ⟨0x000C0000 + 0x28, 9, 4, 0⟩
/-- PR_LOG_ADDR_HI[15:13] kind, RO; Table 13.7. -/
def PR_LOG_ADDR_HI.kind : Fld := ⟨0x000C0000 + 0x28, 13, 3, 0⟩
/-- PR_LOG_ADDR_HI[19:16] level, RO; Table 13.7. -/
def PR_LOG_ADDR_HI.level : Fld := ⟨0x000C0000 + 0x28, 16, 4, 0⟩
/-- PR_LOG_ADDR_HI[31] valid, RO; Table 13.7. -/
def PR_LOG_ADDR_HI.valid : Fld := ⟨0x000C0000 + 0x28, 31, 1, 0⟩
/-- PR_LOG_STAMP_LO[31:0] stamp_lo, RO; Table 13.7. -/
def PR_LOG_STAMP_LO.stamp_lo : Fld := ⟨0x000C0000 + 0x2C, 0, 32, 0⟩
/-- PR_LOG_STAMP_HI[23:0] stamp_hi, RO; Table 13.7. -/
def PR_LOG_STAMP_HI.stamp_hi : Fld := ⟨0x000C0000 + 0x30, 0, 24, 0⟩
/-- PR_LOG_LOST[15:0] count, RC; Table 13.7. -/
def PR_LOG_LOST.count : Fld := ⟨0x000C0000 + 0x34, 0, 16, 0⟩
/-- PR_CMD_LOG[0] clear_log, WO; Table 13.7. -/
def PR_CMD_LOG.clear_log : Fld := ⟨0x000C0000 + 0x38, 0, 1, 0⟩
/-- PR_KID[7:0] kid, RO; Table 13.7. -/
def PR_KID.kid (s : Nat) : Fld := ⟨0x000C0000 + 0x40 + 4 * s, 0, 8, 0⟩
/-- PR_KID[9:8] state, RO; Table 13.7. -/
def PR_KID.state (s : Nat) : Fld := ⟨0x000C0000 + 0x40 + 4 * s, 8, 2, 0⟩
/-- PR_KID[20:16] users, RO; Table 13.7. -/
def PR_KID.users (s : Nat) : Fld := ⟨0x000C0000 + 0x40 + 4 * s, 16, 5, 0⟩
/-- PR_CFG[0] en, STG; Table 13.7. -/
def PR_CFG.en (n : Nat) : Fld := ⟨(0x000C0400 + 0x40 * n), 0, 1, 0⟩
/-- PR_CFG[3:1] size, STG; Table 13.7. -/
def PR_CFG.size (n : Nat) : Fld := ⟨(0x000C0400 + 0x40 * n), 1, 3, 0⟩
/-- PR_CFG[7:4] kid_slot, STG; Table 13.7. -/
def PR_CFG.kid_slot (n : Nat) : Fld := ⟨(0x000C0400 + 0x40 * n), 4, 4, 0⟩
/-- PR_CFG[8] dma_in, STG; Table 13.7. -/
def PR_CFG.dma_in (n : Nat) : Fld := ⟨(0x000C0400 + 0x40 * n), 8, 1, 0⟩
/-- PR_CFG[9] dma_out, STG; Table 13.7. -/
def PR_CFG.dma_out (n : Nat) : Fld := ⟨(0x000C0400 + 0x40 * n), 9, 1, 0⟩
/-- PR_CFG[10] spec, STG; Table 13.7. -/
def PR_CFG.spec (n : Nat) : Fld := ⟨(0x000C0400 + 0x40 * n), 10, 1, 1⟩
/-- PR_BASE_LO[31:21] base_lo, STG; Table 13.7. -/
def PR_BASE_LO.base_lo (n : Nat) : Fld := ⟨(0x000C0400 + 0x40 * n) + 0x4, 21, 11, 0⟩
/-- PR_BASE_HI[8:0] base_hi, STG; Table 13.7. -/
def PR_BASE_HI.base_hi (n : Nat) : Fld := ⟨(0x000C0400 + 0x40 * n) + 0x8, 0, 9, 0⟩
/-- PR_META_LO[31:20] meta_lo, STG; Table 13.7. -/
def PR_META_LO.meta_lo (n : Nat) : Fld := ⟨(0x000C0400 + 0x40 * n) + 0xC, 20, 12, 0⟩
/-- PR_META_HI[8:0] meta_hi, STG; Table 13.7. -/
def PR_META_HI.meta_hi (n : Nat) : Fld := ⟨(0x000C0400 + 0x40 * n) + 0x10, 0, 9, 0⟩
/-- PR_DMA_MASK_LO[31:0] mask_lo, STG; Table 13.7. -/
def PR_DMA_MASK_LO.mask_lo (n : Nat) : Fld := ⟨(0x000C0400 + 0x40 * n) + 0x14, 0, 32, 0⟩
/-- PR_DMA_MASK_HI[31:0] mask_hi, STG; Table 13.7. -/
def PR_DMA_MASK_HI.mask_hi (n : Nat) : Fld := ⟨(0x000C0400 + 0x40 * n) + 0x18, 0, 32, 0⟩
/-- PR_STATE[2:0] state, RO; Table 13.7. -/
def PR_STATE.state (n : Nat) : Fld := ⟨(0x000C0400 + 0x40 * n) + 0x1C, 0, 3, 0⟩
/-- PR_STATE[7:4] target, RO; Table 13.7. -/
def PR_STATE.target (n : Nat) : Fld := ⟨(0x000C0400 + 0x40 * n) + 0x1C, 4, 4, 0⟩
/-- PR_STATE[11:8] subtrees, RO; Table 13.7. -/
def PR_STATE.subtrees (n : Nat) : Fld := ⟨(0x000C0400 + 0x40 * n) + 0x1C, 8, 4, 0⟩
/-- PR_CMD[0] zeroise, WO; Table 13.7. -/
def PR_CMD.zeroise (n : Nat) : Fld := ⟨(0x000C0400 + 0x40 * n) + 0x20, 0, 1, 0⟩
/-- PR_CMD[1] rekey, WO; Table 13.7. -/
def PR_CMD.rekey (n : Nat) : Fld := ⟨(0x000C0400 + 0x40 * n) + 0x20, 1, 1, 0⟩
/-- PR_CMD[7:4] slot, WO; Table 13.7. -/
def PR_CMD.slot (n : Nat) : Fld := ⟨(0x000C0400 + 0x40 * n) + 0x20, 4, 4, 0⟩
/-- PR_WALK[31:0] pos, RO; Table 13.7. -/
def PR_WALK.pos (n : Nat) : Fld := ⟨(0x000C0400 + 0x40 * n) + 0x24, 0, 32, 0⟩
/-- PR_TAG_FAIL_CNT[31:0] count, RC; Table 13.7. -/
def PR_TAG_FAIL_CNT.count (n : Nat) : Fld := ⟨(0x000C0400 + 0x40 * n) + 0x28, 0, 32, 0⟩
/-- PR_TAINT_CNT[31:0] count, RC; Table 13.7. -/
def PR_TAINT_CNT.count (n : Nat) : Fld := ⟨(0x000C0400 + 0x40 * n) + 0x2C, 0, 32, 0⟩
/-- NOC_JCFG[5:0] port_en, RO; Table 14.9. -/
def NOC_JCFG.port_en (j : Nat) : Fld := ⟨nocBase j, 0, 6, nocPorts j⟩
/-- NOC_JCFG[14:12] vc3_share, RO; Table 14.9. -/
def NOC_JCFG.vc3_share (j : Nat) : Fld := ⟨nocBase j, 12, 3, 2⟩
/-- NOC_JSHADOW[5:0] port_en, RW; Table 14.9. -/
def NOC_JSHADOW.port_en (j : Nat) : Fld := ⟨nocBase j + 0x4, 0, 6, nocPorts j⟩
/-- NOC_JSHADOW[14:12] vc3_share, RW; Table 14.9. -/
def NOC_JSHADOW.vc3_share (j : Nat) : Fld := ⟨nocBase j + 0x4, 12, 3, 2⟩
/-- NOC_JCMD[0] swap, WO; Table 14.9. -/
def NOC_JCMD.swap (j : Nat) : Fld := ⟨nocBase j + 0x8, 0, 1, 0⟩
/-- NOC_JSTATUS[0] swapping, RO; Table 14.9. -/
def NOC_JSTATUS.swapping (j : Nat) : Fld := ⟨nocBase j + 0xC, 0, 1, 0⟩
/-- NOC_JSTATUS[1] swap_pending, RO; Table 14.9. -/
def NOC_JSTATUS.swap_pending (j : Nat) : Fld := ⟨nocBase j + 0xC, 1, 1, 0⟩
/-- NOC_JSTATUS[15:4] lstate, RO; Table 14.9. -/
def NOC_JSTATUS.lstate (j : Nat) : Fld := ⟨nocBase j + 0xC, 4, 12, 0⟩
/-- NOC_JSTATUS[19:16] link_down, RO; Table 14.9. -/
def NOC_JSTATUS.link_down (j : Nat) : Fld := ⟨nocBase j + 0xC, 16, 4, 0⟩
/-- NOC_JERR[0] link_down, W1C; Table 14.9. -/
def NOC_JERR.link_down (j : Nat) : Fld := ⟨nocBase j + 0x10, 0, 1, 0⟩
/-- NOC_JERR[1] malformed, W1C; Table 14.9. -/
def NOC_JERR.malformed (j : Nat) : Fld := ⟨nocBase j + 0x10, 1, 1, 0⟩
/-- NOC_JERR[2] post_drop, W1C; Table 14.9. -/
def NOC_JERR.post_drop (j : Nat) : Fld := ⟨nocBase j + 0x10, 2, 1, 0⟩
/-- NOC_JERR[3] orphan, W1C; Table 14.9. -/
def NOC_JERR.orphan (j : Nat) : Fld := ⟨nocBase j + 0x10, 3, 1, 0⟩
/-- NOC_JERR[4] bad_value, W1C; Table 14.9. -/
def NOC_JERR.bad_value (j : Nat) : Fld := ⟨nocBase j + 0x10, 4, 1, 0⟩
/-- NOC_REPLAY_CNT[31:0] count, RC; Table 14.9. -/
def NOC_REPLAY_CNT.count (j : Nat) : Fld := ⟨nocBase j + 0x14, 0, 32, 0⟩
/-- NOC_FLIT_CNT[31:0] count, RC; Table 14.9. -/
def NOC_FLIT_CNT.count (j : Nat) : Fld := ⟨nocBase j + 0x18, 0, 32, 0⟩
/-- NOC_DROP_CNT[31:0] count, RC; Table 14.9. -/
def NOC_DROP_CNT.count (j : Nat) : Fld := ⟨nocBase j + 0x1C, 0, 32, 0⟩
/-- NOC_ORPHAN_CNT[31:0] count, RC; Table 14.9. -/
def NOC_ORPHAN_CNT.count (j : Nat) : Fld := ⟨nocBase j + 0x20, 0, 32, 0⟩
/-- NOC_MALFORMED_CNT[31:0] count, RC; Table 14.9. -/
def NOC_MALFORMED_CNT.count (j : Nat) : Fld := ⟨nocBase j + 0x24, 0, 32, 0⟩
/-- NOC_GEN_TIMEOUT_CNT[31:0] count, RC; Table 14.9. -/
def NOC_GEN_TIMEOUT_CNT.count (j : Nat) : Fld := ⟨nocBase j + 0x28, 0, 32, 0⟩
/-- NOC_CLOSE_STAMP_LO[31:0] stamp_lo, RO; Table 14.9. -/
def NOC_CLOSE_STAMP_LO.stamp_lo (j : Nat) : Fld := ⟨nocBase j + 0x2C, 0, 32, 0⟩
/-- NOC_CLOSE_STAMP_HI[23:0] stamp_hi, RO; Table 14.9. -/
def NOC_CLOSE_STAMP_HI.stamp_hi (j : Nat) : Fld := ⟨nocBase j + 0x30, 0, 24, 0⟩
/-- NOC_DROP_STAMP_LO[31:0] stamp_lo, RO; Table 14.9. -/
def NOC_DROP_STAMP_LO.stamp_lo (j : Nat) : Fld := ⟨nocBase j + 0x34, 0, 32, 0⟩
/-- NOC_DROP_STAMP_HI[23:0] stamp_hi, RO; Table 14.9. -/
def NOC_DROP_STAMP_HI.stamp_hi (j : Nat) : Fld := ⟨nocBase j + 0x38, 0, 24, 0⟩
/-- NOC_DROP_STAMP_HI[31] valid, RO; Table 14.9. -/
def NOC_DROP_STAMP_HI.valid (j : Nat) : Fld := ⟨nocBase j + 0x38, 31, 1, 0⟩
/-- NOC_CTRL[15:0] timeout_ms, RW; Table 14.10. -/
def NOC_CTRL.timeout_ms : Fld := ⟨0x00110000, 0, 16, 4000⟩
/-- NOC_CTRL[31:16] close_wait_us, RW; Table 14.10. -/
def NOC_CTRL.close_wait_us : Fld := ⟨0x00110000, 16, 16, 100⟩
/-- NOC_DOM_STATUS[9:0] dom, RO; Table 14.10. -/
def NOC_DOM_STATUS.dom : Fld := ⟨0x00110000 + 0x4, 0, 10, 0⟩
/-- NOC_ERR[0] timeout, W1C; Table 14.10. -/
def NOC_ERR.timeout : Fld := ⟨0x00110000 + 0x8, 0, 1, 0⟩
/-- NOC_ERR[1] csr_closed, W1C; Table 14.10. -/
def NOC_ERR.csr_closed : Fld := ⟨0x00110000 + 0x8, 1, 1, 0⟩
/-- NOC_ERR[2] link_down, W1C; Table 14.10. -/
def NOC_ERR.link_down : Fld := ⟨0x00110000 + 0x8, 2, 1, 0⟩
/-- NOC_ERR[3] bad_value, W1C; Table 14.10. -/
def NOC_ERR.bad_value : Fld := ⟨0x00110000 + 0x8, 3, 1, 0⟩
/-- NOC_TIMEOUT_CNT[31:0] count, RC; Table 14.10. -/
def NOC_TIMEOUT_CNT.count : Fld := ⟨0x00110000 + 0xC, 0, 32, 0⟩
/-- NOC_TIMEOUT_LAST[11:0] src, RO; Table 14.10. -/
def NOC_TIMEOUT_LAST.src : Fld := ⟨0x00110000 + 0x10, 0, 12, 0⟩
/-- NOC_TIMEOUT_LAST[23:12] dst, RO; Table 14.10. -/
def NOC_TIMEOUT_LAST.dst : Fld := ⟨0x00110000 + 0x10, 12, 12, 0⟩
/-- NOC_TIMEOUT_LAST[31] valid, RO; Table 14.10. -/
def NOC_TIMEOUT_LAST.valid : Fld := ⟨0x00110000 + 0x10, 31, 1, 0⟩
/-- HIF_CTRL[0] l1_en, RW; Table 15.10. -/
def HIF_CTRL.l1_en : Fld := ⟨0x00040000, 0, 1, 1⟩
/-- HIF_STATUS[0] link_up, RO; Table 15.10. -/
def HIF_STATUS.link_up : Fld := ⟨0x00040000 + 0x4, 0, 1, 0⟩
/-- HIF_STATUS[3:1] speed, RO; Table 15.10. -/
def HIF_STATUS.speed : Fld := ⟨0x00040000 + 0x4, 1, 3, 0⟩
/-- HIF_STATUS[8:4] width, RO; Table 15.10. -/
def HIF_STATUS.width : Fld := ⟨0x00040000 + 0x4, 4, 5, 0⟩
/-- HIF_STATUS[9] d3hot, RO; Table 15.10. -/
def HIF_STATUS.d3hot : Fld := ⟨0x00040000 + 0x4, 9, 1, 0⟩
/-- HIF_STATUS[10] bme, RO; Table 15.10. -/
def HIF_STATUS.bme : Fld := ⟨0x00040000 + 0x4, 10, 1, 0⟩
/-- HIF_STATUS[11] run_veto, RO; Table 15.10. -/
def HIF_STATUS.run_veto : Fld := ⟨0x00040000 + 0x4, 11, 1, 0⟩
/-- HIF_STATUS[12] dormant_veto, RO; Table 15.10. -/
def HIF_STATUS.dormant_veto : Fld := ⟨0x00040000 + 0x4, 12, 1, 1⟩
/-- HIF_ERR[0] bar2_denied, W1C; Table 15.10. -/
def HIF_ERR.bar2_denied : Fld := ⟨0x00040000 + 0x8, 0, 1, 0⟩
/-- HIF_ERR[1] bar2_timeout, W1C; Table 15.10. -/
def HIF_ERR.bar2_timeout : Fld := ⟨0x00040000 + 0x8, 1, 1, 0⟩
/-- HIF_ERR[2] bar2_poison, W1C; Table 15.10. -/
def HIF_ERR.bar2_poison : Fld := ⟨0x00040000 + 0x8, 2, 1, 0⟩
/-- HIF_ERR[3] host_cpl, W1C; Table 15.10. -/
def HIF_ERR.host_cpl : Fld := ⟨0x00040000 + 0x8, 3, 1, 0⟩
/-- HIF_ERR[4] bad_value, W1C; Table 15.10. -/
def HIF_ERR.bad_value : Fld := ⟨0x00040000 + 0x8, 4, 1, 0⟩
/-- HIF_WIN_BASE[10:0] base, RW; Table 15.10. -/
def HIF_WIN_BASE.base : Fld := ⟨0x00040000 + 0xC, 0, 11, 0⟩
/-- HIF_BAR2_TMO[15:0] us, RW; Table 15.10. -/
def HIF_BAR2_TMO.us : Fld := ⟨0x00040000 + 0x10, 0, 16, 10000⟩
/-- HIF_BAR2_DENY_CNT[31:0] count, RC; Table 15.10. -/
def HIF_BAR2_DENY_CNT.count : Fld := ⟨0x00040000 + 0x14, 0, 32, 0⟩
/-- HIF_BAR2_LAST_LO[31:0] addr_lo, RO; Table 15.10. -/
def HIF_BAR2_LAST_LO.addr_lo : Fld := ⟨0x00040000 + 0x18, 0, 32, 0⟩
/-- HIF_BAR2_LAST_HI[8:0] addr_hi, RO; Table 15.10. -/
def HIF_BAR2_LAST_HI.addr_hi : Fld := ⟨0x00040000 + 0x1C, 0, 9, 0⟩
/-- HIF_BAR2_LAST_HI[14:12] resp, RO; Table 15.10. -/
def HIF_BAR2_LAST_HI.resp : Fld := ⟨0x00040000 + 0x1C, 12, 3, 0⟩
/-- HIF_BAR2_LAST_HI[31] valid, RO; Table 15.10. -/
def HIF_BAR2_LAST_HI.valid : Fld := ⟨0x00040000 + 0x1C, 31, 1, 0⟩
/-- HIF_RESET_CNT[15:0] count, RC; Table 15.10. -/
def HIF_RESET_CNT.count : Fld := ⟨0x00040000 + 0x20, 0, 16, 0⟩
/-- RING_BASE_LO[31:12] base_lo, RW; Table 15.10. -/
def RING_BASE_LO.base_lo (r : Nat) : Fld := ⟨(0x00041000 + 0x20 * r), 12, 20, 0⟩
/-- RING_BASE_HI[31:0] base_hi, RW; Table 15.10. -/
def RING_BASE_HI.base_hi (r : Nat) : Fld := ⟨(0x00041000 + 0x20 * r) + 0x4, 0, 32, 0⟩
/-- RING_CFG[4:0] log2_size, RW; Table 15.10. -/
def RING_CFG.log2_size (r : Nat) : Fld := ⟨(0x00041000 + 0x20 * r) + 0x8, 0, 5, 0⟩
/-- RING_CFG[6:5] kind, RW; Table 15.10. -/
def RING_CFG.kind (r : Nat) : Fld := ⟨(0x00041000 + 0x20 * r) + 0x8, 5, 2, 0⟩
/-- RING_IRQ[0] irq_en, RW; Table 15.10. -/
def RING_IRQ.irq_en (r : Nat) : Fld := ⟨(0x00041000 + 0x20 * r) + 0xC, 0, 1, 0⟩
/-- RING_IRQ[11:1] vector, RW; Table 15.10. -/
def RING_IRQ.vector (r : Nat) : Fld := ⟨(0x00041000 + 0x20 * r) + 0xC, 1, 11, 0⟩
/-- RING_IRQ[23:12] holdoff, RW; Table 15.10. -/
def RING_IRQ.holdoff (r : Nat) : Fld := ⟨(0x00041000 + 0x20 * r) + 0xC, 12, 12, 0⟩
/-- RING_PI[31:0] pi, RO; Table 15.10. -/
def RING_PI.pi (r : Nat) : Fld := ⟨(0x00041000 + 0x20 * r) + 0x10, 0, 32, 0⟩
/-- RING_HEAD[31:0] head, RO; Table 15.10. -/
def RING_HEAD.head (r : Nat) : Fld := ⟨(0x00041000 + 0x20 * r) + 0x14, 0, 32, 0⟩
/-- RING_CI[31:0] ci, RO; Table 15.10. -/
def RING_CI.ci (r : Nat) : Fld := ⟨(0x00041000 + 0x20 * r) + 0x18, 0, 32, 0⟩
/-- RING_ERR[0] size_zero, W1C; Table 15.10. -/
def RING_ERR.size_zero (r : Nat) : Fld := ⟨(0x00041000 + 0x20 * r) + 0x1C, 0, 1, 0⟩
/-- RING_ERR[1] bad_doorbell, W1C; Table 15.10. -/
def RING_ERR.bad_doorbell (r : Nat) : Fld := ⟨(0x00041000 + 0x20 * r) + 0x1C, 1, 1, 0⟩
/-- RING_ERR[2] not_owned, W1C; Table 15.10. -/
def RING_ERR.not_owned (r : Nat) : Fld := ⟨(0x00041000 + 0x20 * r) + 0x1C, 2, 1, 0⟩
/-- RING_ERR[3] desc_fetch, W1C; Table 15.10. -/
def RING_ERR.desc_fetch (r : Nat) : Fld := ⟨(0x00041000 + 0x20 * r) + 0x1C, 3, 1, 0⟩
/-- RING_ERR[4] bad_value, W1C; Table 15.10. -/
def RING_ERR.bad_value (r : Nat) : Fld := ⟨(0x00041000 + 0x20 * r) + 0x1C, 4, 1, 0⟩
/-- DMA_CTRL[0] en, RW; Table 15.11. -/
def DMA_CTRL.en (c : Nat) : Fld := ⟨(0x00050000 + 0x100 * c), 0, 1, 0⟩
/-- DMA_CTRL[1] t2, RW; Table 15.11. -/
def DMA_CTRL.t2 (c : Nat) : Fld := ⟨(0x00050000 + 0x100 * c), 1, 1, 0⟩
/-- DMA_CTRL[3:2] weight, RW; Table 15.11. -/
def DMA_CTRL.weight (c : Nat) : Fld := ⟨(0x00050000 + 0x100 * c), 2, 2, 0⟩
/-- DMA_CTRL[4] ro, RW; Table 15.11. -/
def DMA_CTRL.ro (c : Nat) : Fld := ⟨(0x00050000 + 0x100 * c), 4, 1, 0⟩
/-- DMA_STATUS[2:0] state, RO; Table 15.11. -/
def DMA_STATUS.state (c : Nat) : Fld := ⟨(0x00050000 + 0x100 * c) + 0x4, 0, 3, 0⟩
/-- DMA_STATUS[4:3] ring, RO; Table 15.11. -/
def DMA_STATUS.ring (c : Nat) : Fld := ⟨(0x00050000 + 0x100 * c) + 0x4, 3, 2, 0⟩
/-- DMA_STATUS[15:8] code, RO; Table 15.11. -/
def DMA_STATUS.code (c : Nat) : Fld := ⟨(0x00050000 + 0x100 * c) + 0x4, 8, 8, 0⟩
/-- DMA_STATUS[31:16] entry, RO; Table 15.11. -/
def DMA_STATUS.entry (c : Nat) : Fld := ⟨(0x00050000 + 0x100 * c) + 0x4, 16, 16, 0⟩
/-- DMA_ERR[0] halted, W1C; Table 15.11. -/
def DMA_ERR.halted (c : Nat) : Fld := ⟨(0x00050000 + 0x100 * c) + 0x8, 0, 1, 0⟩
/-- DMA_ERR[1] bad_desc, W1C; Table 15.11. -/
def DMA_ERR.bad_desc (c : Nat) : Fld := ⟨(0x00050000 + 0x100 * c) + 0x8, 1, 1, 0⟩
/-- DMA_ERR[2] host_err, W1C; Table 15.11. -/
def DMA_ERR.host_err (c : Nat) : Fld := ⟨(0x00050000 + 0x100 * c) + 0x8, 2, 1, 0⟩
/-- DMA_ERR[3] bad_value, W1C; Table 15.11. -/
def DMA_ERR.bad_value (c : Nat) : Fld := ⟨(0x00050000 + 0x100 * c) + 0x8, 3, 1, 0⟩
/-- DMA_CMD[0] abort, WO; Table 15.11. -/
def DMA_CMD.abort (c : Nat) : Fld := ⟨(0x00050000 + 0x100 * c) + 0xC, 0, 1, 0⟩
/-- DMA_CMD[1] restart, WO; Table 15.11. -/
def DMA_CMD.restart (c : Nat) : Fld := ⟨(0x00050000 + 0x100 * c) + 0xC, 1, 1, 0⟩
/-- DMA_CMD[2] skip, WO; Table 15.11. -/
def DMA_CMD.skip (c : Nat) : Fld := ⟨(0x00050000 + 0x100 * c) + 0xC, 2, 1, 0⟩
/-- DMA_CMD[3] t2_start, WO; Table 15.11. -/
def DMA_CMD.t2_start (c : Nat) : Fld := ⟨(0x00050000 + 0x100 * c) + 0xC, 3, 1, 0⟩
/-- DMA_PACE[15:0] hi_kib, RW; Table 15.11. -/
def DMA_PACE.hi_kib (c : Nat) : Fld := ⟨(0x00050000 + 0x100 * c) + 0x10, 0, 16, 256⟩
/-- DMA_PACE[31:16] lo_kib, RW; Table 15.11. -/
def DMA_PACE.lo_kib (c : Nat) : Fld := ⟨(0x00050000 + 0x100 * c) + 0x10, 16, 16, 64⟩
/-- DMA_PACE_WAIT[15:0] wait_us, RW; Table 15.11. -/
def DMA_PACE_WAIT.wait_us (c : Nat) : Fld := ⟨(0x00050000 + 0x100 * c) + 0x14, 0, 16, 1000⟩
/-- DMA_DRAIN_LO[31:0] drain_lo, RO; Table 15.11. -/
def DMA_DRAIN_LO.drain_lo (c q : Nat) : Fld := ⟨(0x00050000 + 0x100 * c) + 0x20 + 8 * q, 0, 32, 0⟩
/-- DMA_DRAIN_HI[31:0] drain_hi, RO; Table 15.11. -/
def DMA_DRAIN_HI.drain_hi (c q : Nat) : Fld := ⟨(0x00050000 + 0x100 * c) + 0x24 + 8 * q, 0, 32, 0⟩
/-- DMA_T2_SRC_LO[31:0] lo, RW; Table 15.11. -/
def DMA_T2_SRC_LO.lo (c : Nat) : Fld := ⟨(0x00050000 + 0x100 * c) + 0x40, 0, 32, 0⟩
/-- DMA_T2_SRC_HI[31:0] hi, RW; Table 15.11. -/
def DMA_T2_SRC_HI.hi (c : Nat) : Fld := ⟨(0x00050000 + 0x100 * c) + 0x44, 0, 32, 0⟩
/-- DMA_T2_DST_LO[31:0] lo, RW; Table 15.11. -/
def DMA_T2_DST_LO.lo (c : Nat) : Fld := ⟨(0x00050000 + 0x100 * c) + 0x48, 0, 32, 0⟩
/-- DMA_T2_DST_HI[31:0] hi, RW; Table 15.11. -/
def DMA_T2_DST_HI.hi (c : Nat) : Fld := ⟨(0x00050000 + 0x100 * c) + 0x4C, 0, 32, 0⟩
/-- DMA_T2_COUNT[31:0] count, RW; Table 15.11. -/
def DMA_T2_COUNT.count (c : Nat) : Fld := ⟨(0x00050000 + 0x100 * c) + 0x50, 0, 32, 0⟩
/-- DMA_T2_OP[7:0] op, RW; Table 15.11. -/
def DMA_T2_OP.op (c : Nat) : Fld := ⟨(0x00050000 + 0x100 * c) + 0x54, 0, 8, 0⟩
/-- DMA_T2_PARAM_LO[31:0] lo, RW; Table 15.11. -/
def DMA_T2_PARAM_LO.lo (c : Nat) : Fld := ⟨(0x00050000 + 0x100 * c) + 0x58, 0, 32, 0⟩
/-- DMA_T2_PARAM_HI[31:0] hi, RW; Table 15.11. -/
def DMA_T2_PARAM_HI.hi (c : Nat) : Fld := ⟨(0x00050000 + 0x100 * c) + 0x5C, 0, 32, 0⟩
/-- DMA_T2_VEC[10:0] vector, RW; Table 15.11. -/
def DMA_T2_VEC.vector (c : Nat) : Fld := ⟨(0x00050000 + 0x100 * c) + 0x60, 0, 11, 0⟩
/-- DMA_T2_STATUS[7:0] code, RO; Table 15.11. -/
def DMA_T2_STATUS.code (c : Nat) : Fld := ⟨(0x00050000 + 0x100 * c) + 0x64, 0, 8, 0⟩
/-- DMA_T2_STATUS[8] eoc, W1C; Table 15.11. -/
def DMA_T2_STATUS.eoc (c : Nat) : Fld := ⟨(0x00050000 + 0x100 * c) + 0x64, 8, 1, 0⟩
/-- DMA_BYTES_CNT[31:0] count, RC; Table 15.11. -/
def DMA_BYTES_CNT.count (c : Nat) : Fld := ⟨(0x00050000 + 0x100 * c) + 0x68, 0, 32, 0⟩
/-- DMA_DESC_CNT[31:0] count, RC; Table 15.11. -/
def DMA_DESC_CNT.count (c : Nat) : Fld := ⟨(0x00050000 + 0x100 * c) + 0x6C, 0, 32, 0⟩
/-- DMA_FAULT_LO[31:0] addr_lo, RO; Table 15.11. -/
def DMA_FAULT_LO.addr_lo (c : Nat) : Fld := ⟨(0x00050000 + 0x100 * c) + 0x70, 0, 32, 0⟩
/-- DMA_FAULT_HI[8:0] addr_hi, RO; Table 15.11. -/
def DMA_FAULT_HI.addr_hi (c : Nat) : Fld := ⟨(0x00050000 + 0x100 * c) + 0x74, 0, 9, 0⟩
/-- DMA_FAULT_HI[14:12] resp, RO; Table 15.11. -/
def DMA_FAULT_HI.resp (c : Nat) : Fld := ⟨(0x00050000 + 0x100 * c) + 0x74, 12, 3, 0⟩
/-- DMA_FAULT_HI[31] valid, RO; Table 15.11. -/
def DMA_FAULT_HI.valid (c : Nat) : Fld := ⟨(0x00050000 + 0x100 * c) + 0x74, 31, 1, 0⟩
/-- EV_CTRL[15:0] flush_us, RW; Table 16.4. -/
def EV_CTRL.flush_us : Fld := ⟨0x00030000, 0, 16, 1000⟩
/-- EV_STATUS[8:0] queued, RO; Table 16.4. -/
def EV_STATUS.queued : Fld := ⟨0x00030000 + 0x4, 0, 9, 0⟩
/-- EV_ERR[0] lost, W1C; Table 16.4. -/
def EV_ERR.lost : Fld := ⟨0x00030000 + 0x8, 0, 1, 0⟩
/-- EV_ERR[1] fwd_drop, W1C; Table 16.4. -/
def EV_ERR.fwd_drop : Fld := ⟨0x00030000 + 0x8, 1, 1, 0⟩
/-- EV_ERR[2] bad_ring, W1C; Table 16.4. -/
def EV_ERR.bad_ring : Fld := ⟨0x00030000 + 0x8, 2, 1, 0⟩
/-- EV_ERR[3] bad_value, W1C; Table 16.4. -/
def EV_ERR.bad_value : Fld := ⟨0x00030000 + 0x8, 3, 1, 0⟩
/-- EV_SEQ[31:0] seq, RO; Table 16.4. -/
def EV_SEQ.seq : Fld := ⟨0x00030000 + 0xC, 0, 32, 0⟩
/-- EV_LOST_CNT[31:0] count, RC; Table 16.4. -/
def EV_LOST_CNT.count : Fld := ⟨0x00030000 + 0x10, 0, 32, 0⟩
/-- EV_FWD_DROP_CNT[31:0] count, RC; Table 16.4. -/
def EV_FWD_DROP_CNT.count : Fld := ⟨0x00030000 + 0x14, 0, 32, 0⟩
/-- EV_FWD_RING[7:0] ring, RW; Table 16.4. -/
def EV_FWD_RING.ring : Fld := ⟨0x00030000 + 0x18, 0, 8, 0⟩
/-- EV_FWD_RING[8] en, RW; Table 16.4. -/
def EV_FWD_RING.en : Fld := ⟨0x00030000 + 0x18, 8, 1, 0⟩
/-- EV_LATCH[31:0] latch, W1C; Table 16.4. -/
def EV_LATCH.latch (w : Nat) : Fld := ⟨0x00030000 + 0x100 + 4 * w, 0, 32, 0⟩
/-- EV_ROUTE[10:0] vector, RW; Table 16.4. -/
def EV_ROUTE.vector (e : Nat) : Fld := ⟨0x00030000 + 0x1000 + 4 * e, 0, 11, 0⟩
/-- EV_ROUTE[12] mask, RW; Table 16.4. -/
def EV_ROUTE.mask (e : Nat) : Fld := ⟨0x00030000 + 0x1000 + 4 * e, 12, 1, 1⟩
/-- EV_ROUTE[13] record, RW; Table 16.4. -/
def EV_ROUTE.record (e : Nat) : Fld := ⟨0x00030000 + 0x1000 + 4 * e, 13, 1, 0⟩
/-- EV_ROUTE[14] forward, RW; Table 16.4. -/
def EV_ROUTE.forward (e : Nat) : Fld := ⟨0x00030000 + 0x1000 + 4 * e, 14, 1, 0⟩
/-- EV_ROUTE[15] en, RW; Table 16.4. -/
def EV_ROUTE.en (e : Nat) : Fld := ⟨0x00030000 + 0x1000 + 4 * e, 15, 1, 1⟩
/-- EV_ROUTE[23:16] ring, RW; Table 16.4. -/
def EV_ROUTE.ring (e : Nat) : Fld := ⟨0x00030000 + 0x1000 + 4 * e, 16, 8, 0⟩
/-- EV_PBA[31:0] pending, RO; Table 16.4. -/
def EV_PBA.pending (w : Nat) : Fld := ⟨0x00030000 + 0x7F00 + 4 * w, 0, 32, 0⟩
/-- MSIX_ADDR_LO[31:0] addr_lo, RW; Table 16.4. -/
def MSIX_ADDR_LO.addr_lo (v : Nat) : Fld := ⟨0x00030000 + 0x8000 + 16 * v, 0, 32, 0⟩
/-- MSIX_ADDR_HI[31:0] addr_hi, RW; Table 16.4. -/
def MSIX_ADDR_HI.addr_hi (v : Nat) : Fld := ⟨0x00030000 + 0x8004 + 16 * v, 0, 32, 0⟩
/-- MSIX_DATA[31:0] data, RW; Table 16.4. -/
def MSIX_DATA.data (v : Nat) : Fld := ⟨0x00030000 + 0x8008 + 16 * v, 0, 32, 0⟩
/-- MSIX_CTL[0] masked, RW; Table 16.4. -/
def MSIX_CTL.masked (v : Nat) : Fld := ⟨0x00030000 + 0x800C + 16 * v, 0, 1, 1⟩
/-- TRK_CTRL[1:0] role, RW; Table 17.7. -/
def TRK_CTRL.role (u : Nat) : Fld := ⟨(0x00070000 + 0x1000 * u), 0, 2, 0⟩
/-- TRK_CTRL[2] en, RW; Table 17.7. -/
def TRK_CTRL.en (u : Nat) : Fld := ⟨(0x00070000 + 0x1000 * u), 2, 1, 0⟩
/-- TRK_CTRL[3] fec, RW; Table 17.7. -/
def TRK_CTRL.fec (u : Nat) : Fld := ⟨(0x00070000 + 0x1000 * u), 3, 1, 0⟩
/-- TRK_CTRL[4] wake_en, RW; Table 17.7. -/
def TRK_CTRL.wake_en (u : Nat) : Fld := ⟨(0x00070000 + 0x1000 * u), 4, 1, 1⟩
/-- TRK_STATUS[3:0] state, RO; Table 17.7. -/
def TRK_STATUS.state (u : Nat) : Fld := ⟨(0x00070000 + 0x1000 * u) + 0x4, 0, 4, 0⟩
/-- TRK_STATUS[7:4] lane_lock, RO; Table 17.7. -/
def TRK_STATUS.lane_lock (u : Nat) : Fld := ⟨(0x00070000 + 0x1000 * u) + 0x4, 4, 4, 0⟩
/-- TRK_STATUS[8] fec_on, RO; Table 17.7. -/
def TRK_STATUS.fec_on (u : Nat) : Fld := ⟨(0x00070000 + 0x1000 * u) + 0x4, 8, 1, 0⟩
/-- TRK_STATUS[9] stored, RO; Table 17.7. -/
def TRK_STATUS.stored (u : Nat) : Fld := ⟨(0x00070000 + 0x1000 * u) + 0x4, 9, 1, 0⟩
/-- TRK_STATUS[10] enrolled, RO; Table 17.7. -/
def TRK_STATUS.enrolled (u : Nat) : Fld := ⟨(0x00070000 + 0x1000 * u) + 0x4, 10, 1, 0⟩
/-- TRK_STATUS[11] alt_ready, RO; Table 17.7. -/
def TRK_STATUS.alt_ready (u : Nat) : Fld := ⟨(0x00070000 + 0x1000 * u) + 0x4, 11, 1, 0⟩
/-- TRK_ERR[0] train_fail, W1C; Table 17.7. -/
def TRK_ERR.train_fail (u : Nat) : Fld := ⟨(0x00070000 + 0x1000 * u) + 0x8, 0, 1, 0⟩
/-- TRK_ERR[1] link_down, W1C; Table 17.7. -/
def TRK_ERR.link_down (u : Nat) : Fld := ⟨(0x00070000 + 0x1000 * u) + 0x8, 1, 1, 0⟩
/-- TRK_ERR[2] err_rate, W1C; Table 17.7. -/
def TRK_ERR.err_rate (u : Nat) : Fld := ⟨(0x00070000 + 0x1000 * u) + 0x8, 2, 1, 0⟩
/-- TRK_ERR[3] fec_unc, W1C; Table 17.7. -/
def TRK_ERR.fec_unc (u : Nat) : Fld := ⟨(0x00070000 + 0x1000 * u) + 0x8, 3, 1, 0⟩
/-- TRK_ERR[4] enrol_refused, W1C; Table 17.7. -/
def TRK_ERR.enrol_refused (u : Nat) : Fld := ⟨(0x00070000 + 0x1000 * u) + 0x8, 4, 1, 0⟩
/-- TRK_ERR[5] test_refused, W1C; Table 17.7. -/
def TRK_ERR.test_refused (u : Nat) : Fld := ⟨(0x00070000 + 0x1000 * u) + 0x8, 5, 1, 0⟩
/-- TRK_ERR[6] fwd_drop, W1C; Table 17.7. -/
def TRK_ERR.fwd_drop (u : Nat) : Fld := ⟨(0x00070000 + 0x1000 * u) + 0x8, 6, 1, 0⟩
/-- TRK_ERR[7] bad_value, W1C; Table 17.7. -/
def TRK_ERR.bad_value (u : Nat) : Fld := ⟨(0x00070000 + 0x1000 * u) + 0x8, 7, 1, 0⟩
/-- TRK_CMD[0] retrain, WO; Table 17.7. -/
def TRK_CMD.retrain (u : Nat) : Fld := ⟨(0x00070000 + 0x1000 * u) + 0xC, 0, 1, 0⟩
/-- TRK_CMD[1] test_start, WO; Table 17.7. -/
def TRK_CMD.test_start (u : Nat) : Fld := ⟨(0x00070000 + 0x1000 * u) + 0xC, 1, 1, 0⟩
/-- TRK_CMD[2] test_stop, WO; Table 17.7. -/
def TRK_CMD.test_stop (u : Nat) : Fld := ⟨(0x00070000 + 0x1000 * u) + 0xC, 2, 1, 0⟩
/-- TRK_CMD[3] inject, WO; Table 17.7. -/
def TRK_CMD.inject (u : Nat) : Fld := ⟨(0x00070000 + 0x1000 * u) + 0xC, 3, 1, 0⟩
/-- TRK_PEER[11:0] tile, RO; Table 17.7. -/
def TRK_PEER.tile (u : Nat) : Fld := ⟨(0x00070000 + 0x1000 * u) + 0x10, 0, 12, 0⟩
/-- TRK_PEER[14:12] hops, RO; Table 17.7. -/
def TRK_PEER.hops (u : Nat) : Fld := ⟨(0x00070000 + 0x1000 * u) + 0x10, 12, 3, 0⟩
/-- TRK_PEER[15] valid, RO; Table 17.7. -/
def TRK_PEER.valid (u : Nat) : Fld := ⟨(0x00070000 + 0x1000 * u) + 0x10, 15, 1, 0⟩
/-- TRK_PEER[31:16] epoch, RO; Table 17.7. -/
def TRK_PEER.epoch (u : Nat) : Fld := ⟨(0x00070000 + 0x1000 * u) + 0x10, 16, 16, 0⟩
/-- TRK_PEER_SERIAL_LO[31:0] lo, RO; Table 17.7. -/
def TRK_PEER_SERIAL_LO.lo (u : Nat) : Fld := ⟨(0x00070000 + 0x1000 * u) + 0x14, 0, 32, 0⟩
/-- TRK_PEER_SERIAL_HI[31:0] hi, RO; Table 17.7. -/
def TRK_PEER_SERIAL_HI.hi (u : Nat) : Fld := ⟨(0x00070000 + 0x1000 * u) + 0x18, 0, 32, 0⟩
/-- TRK_CTLE[19:0] peak, RW; Table 17.7. -/
def TRK_CTLE.peak (u : Nat) : Fld := ⟨(0x00070000 + 0x1000 * u) + 0x1C, 0, 20, 0⟩
/-- TRK_CTLE[24] auto, RW; Table 17.7. -/
def TRK_CTLE.auto (u : Nat) : Fld := ⟨(0x00070000 + 0x1000 * u) + 0x1C, 24, 1, 1⟩
/-- TRK_CTLE[31:28] normal, RW; Table 17.7. -/
def TRK_CTLE.normal (u : Nat) : Fld := ⟨(0x00070000 + 0x1000 * u) + 0x1C, 28, 4, 3⟩
/-- TRK_TXEQ_L[3:0] pre, RO; Table 17.7. -/
def TRK_TXEQ_L.pre (u n : Nat) : Fld := ⟨(0x00070000 + 0x1000 * u) + 0x20 + 4 * n, 0, 4, 0⟩
/-- TRK_TXEQ_L[8:4] post, RO; Table 17.7. -/
def TRK_TXEQ_L.post (u n : Nat) : Fld := ⟨(0x00070000 + 0x1000 * u) + 0x20 + 4 * n, 4, 5, 0⟩
/-- TRK_TXEQ_L[21:16] main, RO; Table 17.7. -/
def TRK_TXEQ_L.main (u n : Nat) : Fld := ⟨(0x00070000 + 0x1000 * u) + 0x20 + 4 * n, 16, 6, 48⟩
/-- TRK_CABLE_SKEW[15:0] skew, RW; Table 17.7. -/
def TRK_CABLE_SKEW.skew (u : Nat) : Fld := ⟨(0x00070000 + 0x1000 * u) + 0x30, 0, 16, 0⟩
/-- TRK_ERR_LIMIT[15:0] limit, RW; Table 17.7. -/
def TRK_ERR_LIMIT.limit (u : Nat) : Fld := ⟨(0x00070000 + 0x1000 * u) + 0x34, 0, 16, 16⟩
/-- TRK_TEST[1:0] pattern, RW; Table 17.7. -/
def TRK_TEST.pattern (u : Nat) : Fld := ⟨(0x00070000 + 0x1000 * u) + 0x38, 0, 2, 0⟩
/-- TRK_TEST[7:4] lanes, RW; Table 17.7. -/
def TRK_TEST.lanes (u : Nat) : Fld := ⟨(0x00070000 + 0x1000 * u) + 0x38, 4, 4, 15⟩
/-- TRK_TEST[31:16] ms, RW; Table 17.7. -/
def TRK_TEST.ms (u : Nat) : Fld := ⟨(0x00070000 + 0x1000 * u) + 0x38, 16, 16, 0⟩
/-- TRK_INJ[1:0] lane, RW; Table 17.7. -/
def TRK_INJ.lane (u : Nat) : Fld := ⟨(0x00070000 + 0x1000 * u) + 0x3C, 0, 2, 0⟩
/-- TRK_INJ[3:2] kind, RW; Table 17.7. -/
def TRK_INJ.kind (u : Nat) : Fld := ⟨(0x00070000 + 0x1000 * u) + 0x3C, 2, 2, 0⟩
/-- TRK_INJ[15:8] burst_len, RW; Table 17.7. -/
def TRK_INJ.burst_len (u : Nat) : Fld := ⟨(0x00070000 + 0x1000 * u) + 0x3C, 8, 8, 1⟩
/-- TRK_INJ[31:16] count, RW; Table 17.7. -/
def TRK_INJ.count (u : Nat) : Fld := ⟨(0x00070000 + 0x1000 * u) + 0x3C, 16, 16, 1⟩
/-- TRK_PRBS_ERR_L[31:0] count, RC; Table 17.7. -/
def TRK_PRBS_ERR_L.count (u n : Nat) : Fld := ⟨(0x00070000 + 0x1000 * u) + 0x40 + 4 * n, 0, 32, 0⟩
/-- TRK_PRBS_BITS_LO[31:0] lo, RO; Table 17.7. -/
def TRK_PRBS_BITS_LO.lo (u : Nat) : Fld := ⟨(0x00070000 + 0x1000 * u) + 0x50, 0, 32, 0⟩
/-- TRK_PRBS_BITS_HI[31:0] hi, RO; Table 17.7. -/
def TRK_PRBS_BITS_HI.hi (u : Nat) : Fld := ⟨(0x00070000 + 0x1000 * u) + 0x54, 0, 32, 0⟩
/-- TRK_CRC_CNT[31:0] count, RC; Table 17.7. -/
def TRK_CRC_CNT.count (u : Nat) : Fld := ⟨(0x00070000 + 0x1000 * u) + 0x58, 0, 32, 0⟩
/-- TRK_REPLAY_CNT[31:0] count, RC; Table 17.7. -/
def TRK_REPLAY_CNT.count (u : Nat) : Fld := ⟨(0x00070000 + 0x1000 * u) + 0x5C, 0, 32, 0⟩
/-- TRK_FEC_CORR_CNT[31:0] count, RC; Table 17.7. -/
def TRK_FEC_CORR_CNT.count (u : Nat) : Fld := ⟨(0x00070000 + 0x1000 * u) + 0x60, 0, 32, 0⟩
/-- TRK_FEC_UNC_CNT[31:0] count, RC; Table 17.7. -/
def TRK_FEC_UNC_CNT.count (u : Nat) : Fld := ⟨(0x00070000 + 0x1000 * u) + 0x64, 0, 32, 0⟩
/-- TRK_RECOV_CNT[31:0] count, RC; Table 17.7. -/
def TRK_RECOV_CNT.count (u : Nat) : Fld := ⟨(0x00070000 + 0x1000 * u) + 0x68, 0, 32, 0⟩
/-- TRK_TIMED_LOST_CNT[31:0] count, RC; Table 17.7. -/
def TRK_TIMED_LOST_CNT.count (u : Nat) : Fld := ⟨(0x00070000 + 0x1000 * u) + 0x6C, 0, 32, 0⟩
/-- TRK_FWD_DROP_CNT[31:0] count, RC; Table 17.7. -/
def TRK_FWD_DROP_CNT.count (u : Nat) : Fld := ⟨(0x00070000 + 0x1000 * u) + 0x70, 0, 32, 0⟩
/-- TRK_HELD[6:0] msgs, RO; Table 17.7. -/
def TRK_HELD.msgs (u : Nat) : Fld := ⟨(0x00070000 + 0x1000 * u) + 0x74, 0, 7, 0⟩
/-- HY_CTRL[0] manager, RW; Table 17.9. -/
def HY_CTRL.manager : Fld := ⟨0x00078000, 0, 1, 0⟩
/-- HY_CTRL[1] auto_number, RW; Table 17.9. -/
def HY_CTRL.auto_number : Fld := ⟨0x00078000, 1, 1, 0⟩
/-- HY_CTRL[15:8] failover_ms, RW; Table 17.9. -/
def HY_CTRL.failover_ms : Fld := ⟨0x00078000, 8, 8, 20⟩
/-- HY_SELF[11:0] tile, see text; Table 17.9. -/
def HY_SELF.tile : Fld := ⟨0x00078000 + 0x4, 0, 12, 0⟩
/-- HY_SELF[12] valid, RO; Table 17.9. -/
def HY_SELF.valid : Fld := ⟨0x00078000 + 0x4, 12, 1, 0⟩
/-- HY_STATUS[2:0] up, RO; Table 17.9. -/
def HY_STATUS.up : Fld := ⟨0x00078000 + 0x8, 0, 3, 0⟩
/-- HY_STATUS[5:3] alt, RO; Table 17.9. -/
def HY_STATUS.alt : Fld := ⟨0x00078000 + 0x8, 3, 3, 0⟩
/-- HY_STATUS[6] enrolled, RO; Table 17.9. -/
def HY_STATUS.enrolled : Fld := ⟨0x00078000 + 0x8, 6, 1, 0⟩
/-- HY_STATUS[7] failed_over, RO; Table 17.9. -/
def HY_STATUS.failed_over : Fld := ⟨0x00078000 + 0x8, 7, 1, 0⟩
/-- HY_STATUS[8] dormant_veto, RO; Table 17.9. -/
def HY_STATUS.dormant_veto : Fld := ⟨0x00078000 + 0x8, 8, 1, 0⟩
/-- HY_STATUS[11:9] refuse, RO; Table 17.9. -/
def HY_STATUS.refuse : Fld := ⟨0x00078000 + 0x8, 9, 3, 0⟩
/-- HY_ERR[0] refused, W1C; Table 17.9. -/
def HY_ERR.refused : Fld := ⟨0x00078000 + 0xC, 0, 1, 0⟩
/-- HY_ERR[1] table_full, W1C; Table 17.9. -/
def HY_ERR.table_full : Fld := ⟨0x00078000 + 0xC, 1, 1, 0⟩
/-- HY_ERR[2] bad_value, W1C; Table 17.9. -/
def HY_ERR.bad_value : Fld := ⟨0x00078000 + 0xC, 2, 1, 0⟩
/-- HY_MEMBERS[12:0] count, RO; Table 17.9. -/
def HY_MEMBERS.count : Fld := ⟨0x00078000 + 0x10, 0, 13, 0⟩
/-- HY_TAB_SEL[11:0] tile, RW; Table 17.9. -/
def HY_TAB_SEL.tile : Fld := ⟨0x00078000 + 0x20, 0, 12, 0⟩
/-- HY_TAB_SERIAL_LO[31:0] lo, RW; Table 17.9. -/
def HY_TAB_SERIAL_LO.lo : Fld := ⟨0x00078000 + 0x24, 0, 32, 0⟩
/-- HY_TAB_SERIAL_HI[31:0] hi, RW; Table 17.9. -/
def HY_TAB_SERIAL_HI.hi : Fld := ⟨0x00078000 + 0x28, 0, 32, 0⟩
/-- HY_TAB_STATE[0] reserve, RW; Table 17.9. -/
def HY_TAB_STATE.reserve : Fld := ⟨0x00078000 + 0x2C, 0, 1, 0⟩
/-- HY_TAB_STATE[2:1] state, RO; Table 17.9. -/
def HY_TAB_STATE.state : Fld := ⟨0x00078000 + 0x2C, 1, 2, 0⟩
/-- HY_TAB_STATE[31:16] epoch, RO; Table 17.9. -/
def HY_TAB_STATE.epoch : Fld := ⟨0x00078000 + 0x2C, 16, 16, 0⟩
/-- CW_CTRL[0] en, RW; Table 18.6. -/
def CW_CTRL.en : Fld := ⟨0x00080000, 0, 1, 0⟩
/-- CW_CTRL[1] beacon_src, RW; Table 18.6. -/
def CW_CTRL.beacon_src : Fld := ⟨0x00080000, 1, 1, 0⟩
/-- CW_CTRL[2] sleep_ok, RW; Table 18.6. -/
def CW_CTRL.sleep_ok : Fld := ⟨0x00080000, 2, 1, 0⟩
/-- CW_CTRL[5:4] repeat, RW; Table 18.6. -/
def CW_CTRL.repeat : Fld := ⟨0x00080000, 4, 2, 1⟩
/-- CW_STATUS[3:0] txq, RO; Table 18.6. -/
def CW_STATUS.txq : Fld := ⟨0x00080000 + 0x4, 0, 4, 0⟩
/-- CW_STATUS[4] quarantine, RO; Table 18.6. -/
def CW_STATUS.quarantine : Fld := ⟨0x00080000 + 0x4, 4, 1, 0⟩
/-- CW_STATUS[5] dormant_veto, RO; Table 18.6. -/
def CW_STATUS.dormant_veto : Fld := ⟨0x00080000 + 0x4, 5, 1, 0⟩
/-- CW_STATUS[6] silent, RO; Table 18.6. -/
def CW_STATUS.silent : Fld := ⟨0x00080000 + 0x4, 6, 1, 0⟩
/-- CW_ERR[0] tx_late, W1C; Table 18.6. -/
def CW_ERR.tx_late : Fld := ⟨0x00080000 + 0x8, 0, 1, 0⟩
/-- CW_ERR[1] stranger, W1C; Table 18.6. -/
def CW_ERR.stranger : Fld := ⟨0x00080000 + 0x8, 1, 1, 0⟩
/-- CW_ERR[2] malformed, W1C; Table 18.6. -/
def CW_ERR.malformed : Fld := ⟨0x00080000 + 0x8, 2, 1, 0⟩
/-- CW_ERR[3] jabber, W1C; Table 18.6. -/
def CW_ERR.jabber : Fld := ⟨0x00080000 + 0x8, 3, 1, 0⟩
/-- CW_ERR[4] beacon, W1C; Table 18.6. -/
def CW_ERR.beacon : Fld := ⟨0x00080000 + 0x8, 4, 1, 0⟩
/-- CW_ERR[5] bad_push, W1C; Table 18.6. -/
def CW_ERR.bad_push : Fld := ⟨0x00080000 + 0x8, 5, 1, 0⟩
/-- CW_ERR[6] bad_value, W1C; Table 18.6. -/
def CW_ERR.bad_value : Fld := ⟨0x00080000 + 0x8, 6, 1, 0⟩
/-- CW_CMD[0] tx_reset, WO; Table 18.6. -/
def CW_CMD.tx_reset : Fld := ⟨0x00080000 + 0xC, 0, 1, 0⟩
/-- CW_CMD[1] q_exit, WO; Table 18.6. -/
def CW_CMD.q_exit : Fld := ⟨0x00080000 + 0xC, 1, 1, 0⟩
/-- CW_SEGMENT[7:0] segment, RW; Table 18.6. -/
def CW_SEGMENT.segment : Fld := ⟨0x00080000 + 0x10, 0, 8, 0⟩
/-- CW_SLOT_NS[9:0] ns, RW; Table 18.6. -/
def CW_SLOT_NS.ns : Fld := ⟨0x00080000 + 0x14, 0, 10, 320⟩
/-- CW_KEY[0] tx_gen, RW; Table 18.6. -/
def CW_KEY.tx_gen : Fld := ⟨0x00080000 + 0x18, 0, 1, 0⟩
/-- CW_KEY[2:1] loaded, RO; Table 18.6. -/
def CW_KEY.loaded : Fld := ⟨0x00080000 + 0x18, 1, 2, 0⟩
/-- CW_TX_T_LO[31:0] t_lo, RW; Table 18.6. -/
def CW_TX_T_LO.t_lo : Fld := ⟨0x00080000 + 0x20, 0, 32, 0⟩
/-- CW_TX_T_HI[31:0] t_hi, RW; Table 18.6. -/
def CW_TX_T_HI.t_hi : Fld := ⟨0x00080000 + 0x24, 0, 32, 0⟩
/-- CW_TX_T_TOP[7:0] t_top, RW; Table 18.6. -/
def CW_TX_T_TOP.t_top : Fld := ⟨0x00080000 + 0x28, 0, 8, 0⟩
/-- CW_TX_ACTION[3:0] type, RW; Table 18.6. -/
def CW_TX_ACTION.type : Fld := ⟨0x00080000 + 0x2C, 0, 4, 0⟩
/-- CW_TX_ACTION[5:4] scope, RW; Table 18.6. -/
def CW_TX_ACTION.scope : Fld := ⟨0x00080000 + 0x2C, 4, 2, 1⟩
/-- CW_TX_ACTION[17:6] target, RW; Table 18.6. -/
def CW_TX_ACTION.target : Fld := ⟨0x00080000 + 0x2C, 6, 12, 0⟩
/-- CW_TX_ARG[31:0] arg, RW; Table 18.6. -/
def CW_TX_ARG.arg : Fld := ⟨0x00080000 + 0x30, 0, 32, 0⟩
/-- CW_TX_PUSH[1:0] prio, WO; Table 18.6. -/
def CW_TX_PUSH.prio : Fld := ⟨0x00080000 + 0x34, 0, 2, 0⟩
/-- CW_TX_PUSH[5:4] ftype, WO; Table 18.6. -/
def CW_TX_PUSH.ftype : Fld := ⟨0x00080000 + 0x34, 4, 2, 0⟩
/-- CW_TX_PUSH[12:8] note_len, WO; Table 18.6. -/
def CW_TX_PUSH.note_len : Fld := ⟨0x00080000 + 0x34, 8, 5, 0⟩
/-- CW_TX_RESULT[2:0] result, RO; Table 18.6. -/
def CW_TX_RESULT.result : Fld := ⟨0x00080000 + 0x38, 0, 3, 0⟩
/-- CW_TX_NOTE[31:0] bytes, RW; Table 18.6. -/
def CW_TX_NOTE.bytes (i : Nat) : Fld := ⟨0x00080000 + 0x40 + 4 * i, 0, 32, 0⟩
/-- CW_BEACON_MS[15:0] ms, RW; Table 18.6. -/
def CW_BEACON_MS.ms : Fld := ⟨0x00080000 + 0x60, 0, 16, 100⟩
/-- CW_BEACON_DELAY[15:0] delay, RW; Table 18.6. -/
def CW_BEACON_DELAY.delay : Fld := ⟨0x00080000 + 0x64, 0, 16, 0⟩
/-- CW_BEACON_LIMIT[15:0] limit, RW; Table 18.6. -/
def CW_BEACON_LIMIT.limit : Fld := ⟨0x00080000 + 0x68, 0, 16, 25600⟩
/-- CW_BEACON_OFF[31:0] off, RO; Table 18.6. -/
def CW_BEACON_OFF.off : Fld := ⟨0x00080000 + 0x6C, 0, 32, 0⟩
/-- CW_Q_LIMIT[15:0] limit, RW; Table 18.6. -/
def CW_Q_LIMIT.limit : Fld := ⟨0x00080000 + 0x70, 0, 16, 16⟩
/-- CW_Q_HOLD[15:0] ms, RW; Table 18.6. -/
def CW_Q_HOLD.ms : Fld := ⟨0x00080000 + 0x74, 0, 16, 1000⟩
/-- CW_RX_CNT[31:0] count, RC; Table 18.6. -/
def CW_RX_CNT.count : Fld := ⟨0x00080000 + 0x80, 0, 32, 0⟩
/-- CW_CRC_CNT[31:0] count, RC; Table 18.6. -/
def CW_CRC_CNT.count : Fld := ⟨0x00080000 + 0x84, 0, 32, 0⟩
/-- CW_STRANGER_CNT[31:0] count, RC; Table 18.6. -/
def CW_STRANGER_CNT.count : Fld := ⟨0x00080000 + 0x88, 0, 32, 0⟩
/-- CW_DUP_CNT[31:0] count, RC; Table 18.6. -/
def CW_DUP_CNT.count : Fld := ⟨0x00080000 + 0x8C, 0, 32, 0⟩
/-- CW_COLL_CNT[31:0] count, RC; Table 18.6. -/
def CW_COLL_CNT.count : Fld := ⟨0x00080000 + 0x90, 0, 32, 0⟩
/-- CW_QDROP_CNT[31:0] count, RC; Table 18.6. -/
def CW_QDROP_CNT.count : Fld := ⟨0x00080000 + 0x94, 0, 32, 0⟩
/-- CW_BUSY_CNT[15:0] count, RC; Table 18.6. -/
def CW_BUSY_CNT.count : Fld := ⟨0x00080000 + 0x98, 0, 16, 0⟩
/-- CW_MEMBER[11:0] tile, RW; Table 18.6. -/
def CW_MEMBER.tile (m : Nat) : Fld := ⟨(0x00080200 + 8 * m), 0, 12, 0⟩
/-- CW_MEMBER[30] seq_valid, RO; Table 18.6. -/
def CW_MEMBER.seq_valid (m : Nat) : Fld := ⟨(0x00080200 + 8 * m), 30, 1, 0⟩
/-- CW_MEMBER[31] valid, RW; Table 18.6. -/
def CW_MEMBER.valid (m : Nat) : Fld := ⟨(0x00080200 + 8 * m), 31, 1, 0⟩
/-- CW_MEMBER_EPOCH[15:0] epoch, RW; Table 18.6. -/
def CW_MEMBER_EPOCH.epoch (m : Nat) : Fld := ⟨(0x00080200 + 8 * m) + 0x4, 0, 16, 0⟩
/-- CW_MEMBER_EPOCH[31:16] seq, RO; Table 18.6. -/
def CW_MEMBER_EPOCH.seq (m : Nat) : Fld := ⟨(0x00080200 + 8 * m) + 0x4, 16, 16, 0⟩
/-- WS_CFG[0] en, RW; Table 19.3. -/
def WS_CFG.en (n : Nat) : Fld := ⟨(0x00060000 + 0x100 * n), 0, 1, 1⟩
/-- WS_CFG[1] flush, RW; Table 19.3. -/
def WS_CFG.flush (n : Nat) : Fld := ⟨(0x00060000 + 0x100 * n), 1, 1, 0⟩
/-- WS_CFG[4:2] a_kind, RW; Table 19.3. -/
def WS_CFG.a_kind (n : Nat) : Fld := ⟨(0x00060000 + 0x100 * n), 2, 3, 0⟩
/-- WS_CFG[7:5] b_kind, RW; Table 19.3. -/
def WS_CFG.b_kind (n : Nat) : Fld := ⟨(0x00060000 + 0x100 * n), 5, 3, 1⟩
/-- WS_CFG[19:8] b_num, RW; Table 19.3. -/
def WS_CFG.b_num (n : Nat) : Fld := ⟨(0x00060000 + 0x100 * n), 8, 12, 0⟩
/-- WS_CFG[28:24] peer_ws, RW; Table 19.3. -/
def WS_CFG.peer_ws (n : Nat) : Fld := ⟨(0x00060000 + 0x100 * n), 24, 5, 0⟩
/-- WS_STATUS[4:0] ab_fill, RO; Table 19.3. -/
def WS_STATUS.ab_fill (n : Nat) : Fld := ⟨(0x00060000 + 0x100 * n) + 0x4, 0, 5, 0⟩
/-- WS_STATUS[12:8] ba_fill, RO; Table 19.3. -/
def WS_STATUS.ba_fill (n : Nat) : Fld := ⟨(0x00060000 + 0x100 * n) + 0x4, 8, 5, 0⟩
/-- WS_STATUS[16] standoff, RO; Table 19.3. -/
def WS_STATUS.standoff (n : Nat) : Fld := ⟨(0x00060000 + 0x100 * n) + 0x4, 16, 1, 0⟩
/-- WS_STATUS[17] locked, RO; Table 19.3. -/
def WS_STATUS.locked (n : Nat) : Fld := ⟨(0x00060000 + 0x100 * n) + 0x4, 17, 1, 0⟩
/-- WS_ERR[0] refused, W1C; Table 19.3. -/
def WS_ERR.refused (n : Nat) : Fld := ⟨(0x00060000 + 0x100 * n) + 0x8, 0, 1, 0⟩
/-- WS_ERR[1] lock_broken, W1C; Table 19.3. -/
def WS_ERR.lock_broken (n : Nat) : Fld := ⟨(0x00060000 + 0x100 * n) + 0x8, 1, 1, 0⟩
/-- WS_ERR[2] flushed, W1C; Table 19.3. -/
def WS_ERR.flushed (n : Nat) : Fld := ⟨(0x00060000 + 0x100 * n) + 0x8, 2, 1, 0⟩
/-- WS_ERR[3] bad_value, W1C; Table 19.3. -/
def WS_ERR.bad_value (n : Nat) : Fld := ⟨(0x00060000 + 0x100 * n) + 0x8, 3, 1, 0⟩
/-- WS_LOCK[31:0] lock, RW; Table 19.3. -/
def WS_LOCK.lock (n : Nat) : Fld := ⟨(0x00060000 + 0x100 * n) + 0xC, 0, 32, 0⟩
/-- WS_CMD[0] lock_break, WO; Table 19.3. -/
def WS_CMD.lock_break (n : Nat) : Fld := ⟨(0x00060000 + 0x100 * n) + 0x10, 0, 1, 0⟩
/-- WS_CMD[1] flush, WO; Table 19.3. -/
def WS_CMD.flush (n : Nat) : Fld := ⟨(0x00060000 + 0x100 * n) + 0x10, 1, 1, 0⟩
/-- WS_FLUSH_CNT[31:0] count, RC; Table 19.3. -/
def WS_FLUSH_CNT.count (n : Nat) : Fld := ⟨(0x00060000 + 0x100 * n) + 0x14, 0, 32, 0⟩
/-- WS_TX[31:0] word, WO; Table 19.3. -/
def WS_TX.word (n x : Nat) : Fld := ⟨(0x00060040 + 0x100 * n + 0x40 * x), 0, 32, 0⟩
/-- WS_SEND[31:0] bells, WO; Table 19.3. -/
def WS_SEND.bells (n x : Nat) : Fld := ⟨(0x00060040 + 0x100 * n + 0x40 * x) + 0x4, 0, 32, 0⟩
/-- WS_RXHDR[4:0] len, RO; Table 19.3. -/
def WS_RXHDR.len (n x : Nat) : Fld := ⟨(0x00060040 + 0x100 * n + 0x40 * x) + 0x8, 0, 5, 0⟩
/-- WS_RXHDR[7:5] kind, RO; Table 19.3. -/
def WS_RXHDR.kind (n x : Nat) : Fld := ⟨(0x00060040 + 0x100 * n + 0x40 * x) + 0x8, 5, 3, 0⟩
/-- WS_RXHDR[19:8] num, RO; Table 19.3. -/
def WS_RXHDR.num (n x : Nat) : Fld := ⟨(0x00060040 + 0x100 * n + 0x40 * x) + 0x8, 8, 12, 0⟩
/-- WS_RXHDR[27:20] epoch, RO; Table 19.3. -/
def WS_RXHDR.epoch (n x : Nat) : Fld := ⟨(0x00060040 + 0x100 * n + 0x40 * x) + 0x8, 20, 8, 0⟩
/-- WS_RXHDR[28] tx_reset, RO; Table 19.3. -/
def WS_RXHDR.tx_reset (n x : Nat) : Fld := ⟨(0x00060040 + 0x100 * n + 0x40 * x) + 0x8, 28, 1, 0⟩
/-- WS_RXHDR[29] rx_reset, RO; Table 19.3. -/
def WS_RXHDR.rx_reset (n x : Nat) : Fld := ⟨(0x00060040 + 0x100 * n + 0x40 * x) + 0x8, 29, 1, 0⟩
/-- WS_RXHDR[31] valid, RO; Table 19.3. -/
def WS_RXHDR.valid (n x : Nat) : Fld := ⟨(0x00060040 + 0x100 * n + 0x40 * x) + 0x8, 31, 1, 0⟩
/-- WS_RXDATA[31:0] word, RO; Table 19.3. -/
def WS_RXDATA.word (n x : Nat) : Fld := ⟨(0x00060040 + 0x100 * n + 0x40 * x) + 0xC, 0, 32, 0⟩
/-- WS_DB[31:0] bells, W1C; Table 19.3. -/
def WS_DB.bells (n x : Nat) : Fld := ⟨(0x00060040 + 0x100 * n + 0x40 * x) + 0x10, 0, 32, 0⟩
/-- WS_DB_MASK[31:0] mask, RW; Table 19.3. -/
def WS_DB_MASK.mask (n x : Nat) : Fld := ⟨(0x00060040 + 0x100 * n + 0x40 * x) + 0x14, 0, 32, 4294967295⟩
/-- WS_CTRL[0] wait, RW; Table 19.3. -/
def WS_CTRL.wait (n x : Nat) : Fld := ⟨(0x00060040 + 0x100 * n + 0x40 * x) + 0x18, 0, 1, 0⟩
/-- WS_CTRL[1] empty_irq_en, RW; Table 19.3. -/
def WS_CTRL.empty_irq_en (n x : Nat) : Fld := ⟨(0x00060040 + 0x100 * n + 0x40 * x) + 0x18, 1, 1, 0⟩
/-- WS_IRQ[0] tx_empty, W1C; Table 19.3. -/
def WS_IRQ.tx_empty (n x : Nat) : Fld := ⟨(0x00060040 + 0x100 * n + 0x40 * x) + 0x1C, 0, 1, 0⟩
/-- WS_REPOCH[7:0] epoch, RO; Table 19.3. -/
def WS_REPOCH.epoch (n x : Nat) : Fld := ⟨(0x00060040 + 0x100 * n + 0x40 * x) + 0x20, 0, 8, 0⟩
/-- WS_OPEN[4:0] words, RO; Table 19.3. -/
def WS_OPEN.words (n x : Nat) : Fld := ⟨(0x00060040 + 0x100 * n + 0x40 * x) + 0x24, 0, 5, 0⟩
/-- WS_OPEN[5] broken, RO; Table 19.3. -/
def WS_OPEN.broken (n x : Nat) : Fld := ⟨(0x00060040 + 0x100 * n + 0x40 * x) + 0x24, 5, 1, 0⟩
/-- CFG_STATUS[3:0] busy, RO; Table 20.9. -/
def CFG_STATUS.busy : Fld := ⟨0x00090000, 0, 4, 0⟩
/-- CFG_STATUS[4] full, RO; Table 20.9. -/
def CFG_STATUS.full : Fld := ⟨0x00090000, 4, 1, 0⟩
/-- CFG_STATUS[5] readback, RO; Table 20.9. -/
def CFG_STATUS.readback : Fld := ⟨0x00090000, 5, 1, 0⟩
/-- CFG_STATUS[6] run_veto, RO; Table 20.9. -/
def CFG_STATUS.run_veto : Fld := ⟨0x00090000, 6, 1, 0⟩
/-- CFG_STATUS[11:8] skipped, RO; Table 20.9. -/
def CFG_STATUS.skipped : Fld := ⟨0x00090000, 8, 4, 0⟩
/-- CFG_ERR[0] load_failed, W1C; Table 20.9. -/
def CFG_ERR.load_failed : Fld := ⟨0x00090000 + 0x4, 0, 1, 0⟩
/-- CFG_ERR[1] readback_failed, W1C; Table 20.9. -/
def CFG_ERR.readback_failed : Fld := ⟨0x00090000 + 0x4, 1, 1, 0⟩
/-- CFG_ERR[2] bad_value, W1C; Table 20.9. -/
def CFG_ERR.bad_value : Fld := ⟨0x00090000 + 0x4, 2, 1, 0⟩
/-- CFG_CMD[0] load, WO; Table 20.9. -/
def CFG_CMD.load : Fld := ⟨0x00090000 + 0x8, 0, 1, 0⟩
/-- CFG_CMD[1] abort, WO; Table 20.9. -/
def CFG_CMD.abort : Fld := ⟨0x00090000 + 0x8, 1, 1, 0⟩
/-- CFG_CMD[2] readback, WO; Table 20.9. -/
def CFG_CMD.readback : Fld := ⟨0x00090000 + 0x8, 2, 1, 0⟩
/-- CFG_CMD[5:4] q, WO; Table 20.9. -/
def CFG_CMD.q : Fld := ⟨0x00090000 + 0x8, 4, 2, 0⟩
/-- CFG_CMD_RESULT[1:0] result, RO; Table 20.9. -/
def CFG_CMD_RESULT.result : Fld := ⟨0x00090000 + 0xC, 0, 2, 0⟩
/-- CFG_SRC[0] kind, RW; Table 20.9. -/
def CFG_SRC.kind : Fld := ⟨0x00090000 + 0x10, 0, 1, 0⟩
/-- CFG_SRC[12:8] slot, RW; Table 20.9. -/
def CFG_SRC.slot : Fld := ⟨0x00090000 + 0x10, 8, 5, 0⟩
/-- CFG_SRC_LO[31:6] addr_lo, RW; Table 20.9. -/
def CFG_SRC_LO.addr_lo : Fld := ⟨0x00090000 + 0x14, 6, 26, 0⟩
/-- CFG_SRC_HI[8:0] addr_hi, RW; Table 20.9. -/
def CFG_SRC_HI.addr_hi : Fld := ⟨0x00090000 + 0x18, 0, 9, 0⟩
/-- CFG_EXPECT[5:0] region, RW; Table 20.9. -/
def CFG_EXPECT.region : Fld := ⟨0x00090000 + 0x1C, 0, 6, 0⟩
/-- CFG_EXPECT[7] full, RW; Table 20.9. -/
def CFG_EXPECT.full : Fld := ⟨0x00090000 + 0x1C, 7, 1, 0⟩
/-- CFG_RB_REGION[5:0] region, RW; Table 20.9. -/
def CFG_RB_REGION.region : Fld := ⟨0x00090000 + 0x20, 0, 6, 0⟩
/-- CFG_RB_FIRST[11:0] index, RW; Table 20.9. -/
def CFG_RB_FIRST.index : Fld := ⟨0x00090000 + 0x24, 0, 12, 0⟩
/-- CFG_RB_COUNT[12:0] count, RW; Table 20.9. -/
def CFG_RB_COUNT.count : Fld := ⟨0x00090000 + 0x28, 0, 13, 0⟩
/-- CFG_RB_DST_LO[31:6] addr_lo, RW; Table 20.9. -/
def CFG_RB_DST_LO.addr_lo : Fld := ⟨0x00090000 + 0x2C, 6, 26, 0⟩
/-- CFG_RB_DST_HI[8:0] addr_hi, RW; Table 20.9. -/
def CFG_RB_DST_HI.addr_hi : Fld := ⟨0x00090000 + 0x30, 0, 9, 0⟩
/-- CFG_BOOT[4:0] slot, RW; Table 20.9. -/
def CFG_BOOT.slot : Fld := ⟨0x00090000 + 0x34, 0, 5, 0⟩
/-- CFG_BOOT[8] en, RW; Table 20.9. -/
def CFG_BOOT.en : Fld := ⟨0x00090000 + 0x34, 8, 1, 0⟩
/-- CFG_RESULT[2:0] code, RO; Table 20.9. -/
def CFG_RESULT.code (q : Nat) : Fld := ⟨(0x00090100 + 0x10 * q), 0, 3, 0⟩
/-- CFG_RESULT[8:4] reason, RO; Table 20.9. -/
def CFG_RESULT.reason (q : Nat) : Fld := ⟨(0x00090100 + 0x10 * q), 4, 5, 0⟩
/-- CFG_RESULT[9] clamped, RO; Table 20.9. -/
def CFG_RESULT.clamped (q : Nat) : Fld := ⟨(0x00090100 + 0x10 * q), 9, 1, 0⟩
/-- CFG_RESULT[21:16] region, RO; Table 20.9. -/
def CFG_RESULT.region (q : Nat) : Fld := ⟨(0x00090100 + 0x10 * q), 16, 6, 0⟩
/-- CFG_BAD_ADDR[31:0] addr, RO; Table 20.9. -/
def CFG_BAD_ADDR.addr (q : Nat) : Fld := ⟨(0x00090100 + 0x10 * q) + 0x4, 0, 32, 0⟩
/-- CFG_FRAMES[17:0] count, RO; Table 20.9. -/
def CFG_FRAMES.count (q : Nat) : Fld := ⟨(0x00090100 + 0x10 * q) + 0x8, 0, 18, 0⟩
/-- CFG_LOAD_TIME[31:0] us, RO; Table 20.9. -/
def CFG_LOAD_TIME.us (q : Nat) : Fld := ⟨(0x00090100 + 0x10 * q) + 0xC, 0, 32, 0⟩
/-- RG_STATUS[2:0] state, RO; Table 20.10. -/
def RG_STATUS.state (r : Nat) : Fld := ⟨rgBase r, 0, 3, 0⟩
/-- RG_STATUS[3] clamped, RO; Table 20.10. -/
def RG_STATUS.clamped (r : Nat) : Fld := ⟨rgBase r, 3, 1, 0⟩
/-- RG_STATUS[4] readback_ok, RO; Table 20.10. -/
def RG_STATUS.readback_ok (r : Nat) : Fld := ⟨rgBase r, 4, 1, 0⟩
/-- RG_GCK_MASK[15:0] gck, RO; Table 20.10. -/
def RG_GCK_MASK.gck (r : Nat) : Fld := ⟨rgBase r + 0x4, 0, 16, 0⟩
/-- RG_IMAGE_ID[31:0] id, RO; Table 20.10. -/
def RG_IMAGE_ID.id (r i : Nat) : Fld := ⟨rgBase r + 0x8 + 4 * i, 0, 32, 0⟩
/-- RG_LOAD_STAMP_LO[31:0] stamp_lo, RO; Table 20.10. -/
def RG_LOAD_STAMP_LO.stamp_lo (r : Nat) : Fld := ⟨rgBase r + 0x18, 0, 32, 0⟩
/-- RG_LOAD_STAMP_HI[23:0] stamp_hi, RO; Table 20.10. -/
def RG_LOAD_STAMP_HI.stamp_hi (r : Nat) : Fld := ⟨rgBase r + 0x1C, 0, 24, 0⟩
/-- RG_LOAD_CNT[31:0] count, RO; Table 20.10. -/
def RG_LOAD_CNT.count (r : Nat) : Fld := ⟨rgBase r + 0x20, 0, 32, 0⟩
/-- RG_KERB_SEL[5:0] word, RW; Table 20.10. -/
def RG_KERB_SEL.word (r : Nat) : Fld := ⟨rgBase r + 0x24, 0, 6, 0⟩
/-- RG_KERB_DATA[31:0] data, RO; Table 20.10. -/
def RG_KERB_DATA.data (r : Nat) : Fld := ⟨rgBase r + 0x28, 0, 32, 0⟩
/-- RG_ABORT[4:0] reason, RO; Table 20.10. -/
def RG_ABORT.reason (r : Nat) : Fld := ⟨rgBase r + 0x2C, 0, 5, 0⟩
/-- RG_ABORT[31] valid, RO; Table 20.10. -/
def RG_ABORT.valid (r : Nat) : Fld := ⟨rgBase r + 0x2C, 31, 1, 0⟩
/-- SW_CTRL[0] en, RW; Table 21.5. -/
def SW_CTRL.en : Fld := ⟨0x000A0000, 0, 1, 1⟩
/-- SW_CTRL[1] reload_en, RW; Table 21.5. -/
def SW_CTRL.reload_en : Fld := ⟨0x000A0000, 1, 1, 1⟩
/-- SW_STATUS[1:0] state, RO; Table 21.5. -/
def SW_STATUS.state : Fld := ⟨0x000A0000 + 0x4, 0, 2, 0⟩
/-- SW_STATUS[7:4] active, RO; Table 21.5. -/
def SW_STATUS.active : Fld := ⟨0x000A0000 + 0x4, 4, 4, 0⟩
/-- SW_ERR[0] corrected, W1C; Table 21.5. -/
def SW_ERR.corrected : Fld := ⟨0x000A0000 + 0x8, 0, 1, 0⟩
/-- SW_ERR[1] reloaded, W1C; Table 21.5. -/
def SW_ERR.reloaded : Fld := ⟨0x000A0000 + 0x8, 1, 1, 0⟩
/-- SW_ERR[2] unrepaired, W1C; Table 21.5. -/
def SW_ERR.unrepaired : Fld := ⟨0x000A0000 + 0x8, 2, 1, 0⟩
/-- SW_ERR[3] lap_late, W1C; Table 21.5. -/
def SW_ERR.lap_late : Fld := ⟨0x000A0000 + 0x8, 3, 1, 0⟩
/-- SW_ERR[4] seq_fault, W1C; Table 21.5. -/
def SW_ERR.seq_fault : Fld := ⟨0x000A0000 + 0x8, 4, 1, 0⟩
/-- SW_ERR[5] watchdog, W1C; Table 21.5. -/
def SW_ERR.watchdog : Fld := ⟨0x000A0000 + 0x8, 5, 1, 0⟩
/-- SW_ERR[6] tmr, W1C; Table 21.5. -/
def SW_ERR.tmr : Fld := ⟨0x000A0000 + 0x8, 6, 1, 0⟩
/-- SW_ERR[7] bad_value, W1C; Table 21.5. -/
def SW_ERR.bad_value : Fld := ⟨0x000A0000 + 0x8, 7, 1, 0⟩
/-- SW_CMD[0] restart_lap, WO; Table 21.5. -/
def SW_CMD.restart_lap : Fld := ⟨0x000A0000 + 0xC, 0, 1, 0⟩
/-- SW_CMD[1] clear_suspect, WO; Table 21.5. -/
def SW_CMD.clear_suspect : Fld := ⟨0x000A0000 + 0xC, 1, 1, 0⟩
/-- SW_LAP_TARGET[15:0] ms, RW; Table 21.5. -/
def SW_LAP_TARGET.ms : Fld := ⟨0x000A0000 + 0x10, 0, 16, 1000⟩
/-- SW_LAST_LAP[31:0] us, RO; Table 21.5. -/
def SW_LAST_LAP.us : Fld := ⟨0x000A0000 + 0x14, 0, 32, 0⟩
/-- SW_CUR_LAP[31:0] us, RO; Table 21.5. -/
def SW_CUR_LAP.us : Fld := ⟨0x000A0000 + 0x18, 0, 32, 0⟩
/-- SW_LAP_CNT[31:0] count, RO; Table 21.5. -/
def SW_LAP_CNT.count : Fld := ⟨0x000A0000 + 0x1C, 0, 32, 0⟩
/-- SW_LAST_FRAMES[17:0] frames, RO; Table 21.5. -/
def SW_LAST_FRAMES.frames : Fld := ⟨0x000A0000 + 0x20, 0, 18, 0⟩
/-- SW_CE_CNT[31:0] count, RC; Table 21.5. -/
def SW_CE_CNT.count : Fld := ⟨0x000A0000 + 0x24, 0, 32, 0⟩
/-- SW_BIT_CNT[31:0] count, RC; Table 21.5. -/
def SW_BIT_CNT.count : Fld := ⟨0x000A0000 + 0x28, 0, 32, 0⟩
/-- SW_RELOAD_CNT[31:0] count, RC; Table 21.5. -/
def SW_RELOAD_CNT.count : Fld := ⟨0x000A0000 + 0x2C, 0, 32, 0⟩
/-- SW_UNREP_CNT[31:0] count, RC; Table 21.5. -/
def SW_UNREP_CNT.count : Fld := ⟨0x000A0000 + 0x30, 0, 32, 0⟩
/-- SW_TMR_CNT[31:0] count, RC; Table 21.5. -/
def SW_TMR_CNT.count : Fld := ⟨0x000A0000 + 0x34, 0, 32, 0⟩
/-- SW_FIRST_ADDR[31:0] addr, RO; Table 21.5. -/
def SW_FIRST_ADDR.addr : Fld := ⟨0x000A0000 + 0x38, 0, 32, 0⟩
/-- SW_FIRST_INFO[2:0] bits, RO; Table 21.5. -/
def SW_FIRST_INFO.bits : Fld := ⟨0x000A0000 + 0x3C, 0, 3, 0⟩
/-- SW_FIRST_INFO[5:4] kind, RO; Table 21.5. -/
def SW_FIRST_INFO.kind : Fld := ⟨0x000A0000 + 0x3C, 4, 2, 0⟩
/-- SW_FIRST_INFO[31] valid, RO; Table 21.5. -/
def SW_FIRST_INFO.valid : Fld := ⟨0x000A0000 + 0x3C, 31, 1, 0⟩
/-- SW_FIRST_STAMP_LO[31:0] stamp_lo, RO; Table 21.5. -/
def SW_FIRST_STAMP_LO.stamp_lo : Fld := ⟨0x000A0000 + 0x40, 0, 32, 0⟩
/-- SW_FIRST_STAMP_HI[23:0] stamp_hi, RO; Table 21.5. -/
def SW_FIRST_STAMP_HI.stamp_hi : Fld := ⟨0x000A0000 + 0x44, 0, 24, 0⟩
/-- SW_SUSPECT_LO[31:0] regions, RO; Table 21.5. -/
def SW_SUSPECT_LO.regions : Fld := ⟨0x000A0000 + 0x48, 0, 32, 0⟩
/-- SW_SUSPECT_HI[31:0] regions, RO; Table 21.5. -/
def SW_SUSPECT_HI.regions : Fld := ⟨0x000A0000 + 0x4C, 0, 32, 0⟩
/-- BIST_CTRL[0] periodic, RW; Table 21.6. -/
def BIST_CTRL.periodic : Fld := ⟨0x000F0000, 0, 1, 0⟩
/-- BIST_STATUS[1:0] state, RO; Table 21.6. -/
def BIST_STATUS.state : Fld := ⟨0x000F0000 + 0x4, 0, 2, 0⟩
/-- BIST_STATUS[2] powerup_done, RO; Table 21.6. -/
def BIST_STATUS.powerup_done : Fld := ⟨0x000F0000 + 0x4, 2, 1, 0⟩
/-- BIST_STATUS[3] powerup_pass, RO; Table 21.6. -/
def BIST_STATUS.powerup_pass : Fld := ⟨0x000F0000 + 0x4, 3, 1, 0⟩
/-- BIST_ERR[0] fail, W1C; Table 21.6. -/
def BIST_ERR.fail : Fld := ⟨0x000F0000 + 0x8, 0, 1, 0⟩
/-- BIST_ERR[1] exhausted, W1C; Table 21.6. -/
def BIST_ERR.exhausted : Fld := ⟨0x000F0000 + 0x8, 1, 1, 0⟩
/-- BIST_ERR[2] refused, W1C; Table 21.6. -/
def BIST_ERR.refused : Fld := ⟨0x000F0000 + 0x8, 2, 1, 0⟩
/-- BIST_ERR[3] bad_value, W1C; Table 21.6. -/
def BIST_ERR.bad_value : Fld := ⟨0x000F0000 + 0x8, 3, 1, 0⟩
/-- BIST_CMD[0] slice, WO; Table 21.6. -/
def BIST_CMD.slice : Fld := ⟨0x000F0000 + 0xC, 0, 1, 0⟩
/-- BIST_CMD[1] dram_full, WO; Table 21.6. -/
def BIST_CMD.dram_full : Fld := ⟨0x000F0000 + 0xC, 1, 1, 0⟩
/-- BIST_CMD[2] ppr_apply, WO; Table 21.6. -/
def BIST_CMD.ppr_apply : Fld := ⟨0x000F0000 + 0xC, 2, 1, 0⟩
/-- BIST_CMD[3] clear_log, WO; Table 21.6. -/
def BIST_CMD.clear_log : Fld := ⟨0x000F0000 + 0xC, 3, 1, 0⟩
/-- BIST_TARGET[1:0] kind, RW; Table 21.6. -/
def BIST_TARGET.kind : Fld := ⟨0x000F0000 + 0x10, 0, 2, 0⟩
/-- BIST_TARGET[12:4] index, RW; Table 21.6. -/
def BIST_TARGET.index : Fld := ⟨0x000F0000 + 0x10, 4, 9, 0⟩
/-- BIST_SLICE_RESULT[1:0] result, RO; Table 21.6. -/
def BIST_SLICE_RESULT.result : Fld := ⟨0x000F0000 + 0x14, 0, 2, 0⟩
/-- BIST_SLICE_RESULT[5:4] kind, RO; Table 21.6. -/
def BIST_SLICE_RESULT.kind : Fld := ⟨0x000F0000 + 0x14, 4, 2, 0⟩
/-- BIST_SLICE_RESULT[16:8] index, RO; Table 21.6. -/
def BIST_SLICE_RESULT.index : Fld := ⟨0x000F0000 + 0x14, 8, 9, 0⟩
/-- BIST_INTERVAL[15:0] s, RW; Table 21.6. -/
def BIST_INTERVAL.s : Fld := ⟨0x000F0000 + 0x18, 0, 16, 600⟩
/-- BIST_POWERUP_TIME[31:0] us, RO; Table 21.6. -/
def BIST_POWERUP_TIME.us : Fld := ⟨0x000F0000 + 0x1C, 0, 32, 0⟩
/-- BIST_ALLOW_REGION[31:0] allow, RW; Table 21.6. -/
def BIST_ALLOW_REGION.allow (w : Nat) : Fld := ⟨0x000F0000 + 0x20 + 4 * w, 0, 32, 0⟩
/-- BIST_ALLOW_GROUP[31:0] allow, RW; Table 21.6. -/
def BIST_ALLOW_GROUP.allow (w : Nat) : Fld := ⟨0x000F0000 + 0x28 + 4 * w, 0, 32, 0⟩
/-- BIST_ALLOW_CLUSTER[31:0] allow, RW; Table 21.6. -/
def BIST_ALLOW_CLUSTER.allow (w : Nat) : Fld := ⟨0x000F0000 + 0x40 + 4 * w, 0, 32, 0⟩
/-- BIST_LOG_SEL[4:0] entry, RW; Table 21.6. -/
def BIST_LOG_SEL.entry : Fld := ⟨0x000F0000 + 0x100, 0, 5, 0⟩
/-- BIST_LOG_UNIT[3:0] unit, RO; Table 21.6. -/
def BIST_LOG_UNIT.unit : Fld := ⟨0x000F0000 + 0x104, 0, 4, 0⟩
/-- BIST_LOG_UNIT[17:4] number, RO; Table 21.6. -/
def BIST_LOG_UNIT.number : Fld := ⟨0x000F0000 + 0x104, 4, 14, 0⟩
/-- BIST_LOG_ADDR[31:0] addr, RO; Table 21.6. -/
def BIST_LOG_ADDR.addr : Fld := ⟨0x000F0000 + 0x108, 0, 32, 0⟩
/-- BIST_LOG_BIT[15:0] bit, RO; Table 21.6. -/
def BIST_LOG_BIT.bit : Fld := ⟨0x000F0000 + 0x10C, 0, 16, 0⟩
/-- BIST_LOG_BIT[18:16] repair, RO; Table 21.6. -/
def BIST_LOG_BIT.repair : Fld := ⟨0x000F0000 + 0x10C, 16, 3, 0⟩
/-- BIST_LOG_BIT[30] slice, RO; Table 21.6. -/
def BIST_LOG_BIT.slice : Fld := ⟨0x000F0000 + 0x10C, 30, 1, 0⟩
/-- BIST_LOG_BIT[31] valid, RO; Table 21.6. -/
def BIST_LOG_BIT.valid : Fld := ⟨0x000F0000 + 0x10C, 31, 1, 0⟩
/-- BIST_LOG_LOST[15:0] count, RC; Table 21.6. -/
def BIST_LOG_LOST.count : Fld := ⟨0x000F0000 + 0x110, 0, 16, 0⟩
/-- QB_REGION_FAIL[15:0] regions, RO; Table 21.7. -/
def QB_REGION_FAIL.regions (q : Nat) : Fld := ⟨qbBase q, 0, 16, 0⟩
/-- QB_GROUP_FAIL[15:0] groups, RO; Table 21.7. -/
def QB_GROUP_FAIL.groups (q : Nat) : Fld := ⟨qbBase q + 0x4, 0, 16, 0⟩
/-- QB_EXHAUSTED[15:0] regions, RO; Table 21.7. -/
def QB_EXHAUSTED.regions (q : Nat) : Fld := ⟨qbBase q + 0x8, 0, 16, 0⟩
/-- QB_CLUSTER_FAIL[31:0] clusters, RO; Table 21.7. -/
def QB_CLUSTER_FAIL.clusters (q w : Nat) : Fld := ⟨qbBase q + 0x10 + 4 * w, 0, 32, 0⟩
/-- SEC_STATUS[2:0] boot, RO; Table 22.5. -/
def SEC_STATUS.boot : Fld := ⟨0x000B0000, 0, 3, 0⟩
/-- SEC_STATUS[4:3] bstore, RO; Table 22.5. -/
def SEC_STATUS.bstore : Fld := ⟨0x000B0000, 3, 2, 0⟩
/-- SEC_STATUS[5] fuse_key, RO; Table 22.5. -/
def SEC_STATUS.fuse_key : Fld := ⟨0x000B0000, 5, 1, 0⟩
/-- SEC_STATUS[7:6] debug, RO; Table 22.5. -/
def SEC_STATUS.debug : Fld := ⟨0x000B0000, 6, 2, 0⟩
/-- SEC_STATUS[8] debug_disable, RO; Table 22.5. -/
def SEC_STATUS.debug_disable : Fld := ⟨0x000B0000, 8, 1, 0⟩
/-- SEC_STATUS[9] lockout, RO; Table 22.5. -/
def SEC_STATUS.lockout : Fld := ⟨0x000B0000, 9, 1, 0⟩
/-- SEC_ERR[0] tamper, W1C; Table 22.5. -/
def SEC_ERR.tamper : Fld := ⟨0x000B0000 + 0x4, 0, 1, 0⟩
/-- SEC_ERR[1] extend_refused, W1C; Table 22.5. -/
def SEC_ERR.extend_refused : Fld := ⟨0x000B0000 + 0x4, 1, 1, 0⟩
/-- SEC_ERR[2] unlock_fail, W1C; Table 22.5. -/
def SEC_ERR.unlock_fail : Fld := ⟨0x000B0000 + 0x4, 2, 1, 0⟩
/-- SEC_ERR[3] rollback, W1C; Table 22.5. -/
def SEC_ERR.rollback : Fld := ⟨0x000B0000 + 0x4, 3, 1, 0⟩
/-- SEC_ERR[4] bad_value, W1C; Table 22.5. -/
def SEC_ERR.bad_value : Fld := ⟨0x000B0000 + 0x4, 4, 1, 0⟩
/-- SEC_CMD[0] extend, WO; Table 22.5. -/
def SEC_CMD.extend : Fld := ⟨0x000B0000 + 0x8, 0, 1, 0⟩
/-- SEC_CMD[1] unlock, WO; Table 22.5. -/
def SEC_CMD.unlock : Fld := ⟨0x000B0000 + 0x8, 1, 1, 0⟩
/-- SEC_CMD[2] relock, WO; Table 22.5. -/
def SEC_CMD.relock : Fld := ⟨0x000B0000 + 0x8, 2, 1, 0⟩
/-- SEC_CMD[3] new_challenge, WO; Table 22.5. -/
def SEC_CMD.new_challenge : Fld := ⟨0x000B0000 + 0x8, 3, 1, 0⟩
/-- SEC_CMD[4] recover, WO; Table 22.5. -/
def SEC_CMD.recover : Fld := ⟨0x000B0000 + 0x8, 4, 1, 0⟩
/-- SEC_EXT_SEL[3:0] mr, RW; Table 22.5. -/
def SEC_EXT_SEL.mr : Fld := ⟨0x000B0000 + 0xC, 0, 4, 8⟩
/-- SEC_EXT_DATA[31:0] data, RW; Table 22.5. -/
def SEC_EXT_DATA.data (i : Nat) : Fld := ⟨0x000B0000 + 0x10 + 4 * i, 0, 32, 0⟩
/-- SEC_SVN[6:0] svn, RO; Table 22.5. -/
def SEC_SVN.svn : Fld := ⟨0x000B0000 + 0x40, 0, 7, 0⟩
/-- SEC_TAMPER[2:0] flags, W1C; Table 22.5. -/
def SEC_TAMPER.flags : Fld := ⟨0x000B0000 + 0x44, 0, 3, 0⟩
/-- SEC_VBAT[11:0] mv, RO; Table 22.5. -/
def SEC_VBAT.mv : Fld := ⟨0x000B0000 + 0x48, 0, 12, 0⟩
/-- SEC_QUOTE_CNT[31:0] count, RO; Table 22.5. -/
def SEC_QUOTE_CNT.count : Fld := ⟨0x000B0000 + 0x4C, 0, 32, 0⟩
/-- SEC_DBG_LEVEL[1:0] level, RW; Table 22.5. -/
def SEC_DBG_LEVEL.level : Fld := ⟨0x000B0000 + 0x50, 0, 2, 0⟩
/-- SEC_DBG_CHAL[31:0] nonce, RO; Table 22.5. -/
def SEC_DBG_CHAL.nonce (i : Nat) : Fld := ⟨0x000B0000 + 0x60 + 4 * i, 0, 32, 0⟩
/-- SEC_DBG_RESP[31:0] sig, WO; Table 22.5. -/
def SEC_DBG_RESP.sig (i : Nat) : Fld := ⟨0x000B0000 + 0x80 + 4 * i, 0, 32, 0⟩
/-- SEC_MR_W[31:0] value, RO; Table 22.5. -/
def SEC_MR_W.value (m i : Nat) : Fld := ⟨0x000B0000 + 0x100 + 64 * m + 4 * i, 0, 32, 0⟩
/-- SEC_LOG_SEL[7:0] slot, RW; Table 22.5. -/
def SEC_LOG_SEL.slot : Fld := ⟨0x000B0000 + 0x500, 0, 8, 0⟩
/-- SEC_LOG_COUNT[31:0] count, RO; Table 22.5. -/
def SEC_LOG_COUNT.count : Fld := ⟨0x000B0000 + 0x504, 0, 32, 0⟩
/-- SEC_LOG_INFO[3:0] mr, RO; Table 22.5. -/
def SEC_LOG_INFO.mr : Fld := ⟨0x000B0000 + 0x508, 0, 4, 0⟩
/-- SEC_LOG_INFO[6:4] source, RO; Table 22.5. -/
def SEC_LOG_INFO.source : Fld := ⟨0x000B0000 + 0x508, 4, 3, 0⟩
/-- SEC_LOG_INFO[13:8] region, RO; Table 22.5. -/
def SEC_LOG_INFO.region : Fld := ⟨0x000B0000 + 0x508, 8, 6, 0⟩
/-- SEC_LOG_INFO[31] valid, RO; Table 22.5. -/
def SEC_LOG_INFO.valid : Fld := ⟨0x000B0000 + 0x508, 31, 1, 0⟩
/-- SEC_LOG_DIGEST[31:0] digest, RO; Table 22.5. -/
def SEC_LOG_DIGEST.digest (i : Nat) : Fld := ⟨0x000B0000 + 0x510 + 4 * i, 0, 32, 0⟩
/-- SEC_LOG_STAMP_LO[31:0] stamp_lo, RO; Table 22.5. -/
def SEC_LOG_STAMP_LO.stamp_lo : Fld := ⟨0x000B0000 + 0x540, 0, 32, 0⟩
/-- SEC_LOG_STAMP_HI[23:0] stamp_hi, RO; Table 22.5. -/
def SEC_LOG_STAMP_HI.stamp_hi : Fld := ⟨0x000B0000 + 0x544, 0, 24, 0⟩
/-- PWR_CTRL[0] signpost_en, RW; Table 23.9. -/
def PWR_CTRL.signpost_en : Fld := ⟨0x000D0000, 0, 1, 0⟩
/-- PWR_CTRL[3:1] max_state, RW; Table 23.9. -/
def PWR_CTRL.max_state : Fld := ⟨0x000D0000, 1, 3, 3⟩
/-- PWR_CTRL[11:4] qmax, RW; Table 23.9. -/
def PWR_CTRL.qmax : Fld := ⟨0x000D0000, 4, 8, 170⟩
/-- PWR_STATUS[2:0] state, RO; Table 23.9. -/
def PWR_STATUS.state : Fld := ⟨0x000D0000 + 0x4, 0, 3, 0⟩
/-- PWR_STATUS[10:3] qstate, RO; Table 23.9. -/
def PWR_STATUS.qstate : Fld := ⟨0x000D0000 + 0x4, 3, 8, 0⟩
/-- PWR_STATUS[11] input_ok, RO; Table 23.9. -/
def PWR_STATUS.input_ok : Fld := ⟨0x000D0000 + 0x4, 11, 1, 0⟩
/-- PWR_STATUS[12] vault_ready, RO; Table 23.9. -/
def PWR_STATUS.vault_ready : Fld := ⟨0x000D0000 + 0x4, 12, 1, 0⟩
/-- PWR_STATUS[13] sealing, RO; Table 23.9. -/
def PWR_STATUS.sealing : Fld := ⟨0x000D0000 + 0x4, 13, 1, 0⟩
/-- PWR_STATUS[14] sealed_live, W1C; Table 23.9. -/
def PWR_STATUS.sealed_live : Fld := ⟨0x000D0000 + 0x4, 14, 1, 0⟩
/-- PWR_STATUS[15] unreleased, RO; Table 23.9. -/
def PWR_STATUS.unreleased : Fld := ⟨0x000D0000 + 0x4, 15, 1, 0⟩
/-- PWR_STATUS[19:16] wake_cause, RO; Table 23.9. -/
def PWR_STATUS.wake_cause : Fld := ⟨0x000D0000 + 0x4, 16, 4, 0⟩
/-- PWR_ERR[0] input_warn, W1C; Table 23.9. -/
def PWR_ERR.input_warn : Fld := ⟨0x000D0000 + 0x8, 0, 1, 0⟩
/-- PWR_ERR[1] rail_fault, W1C; Table 23.9. -/
def PWR_ERR.rail_fault : Fld := ⟨0x000D0000 + 0x8, 1, 1, 0⟩
/-- PWR_ERR[2] thermal_warn, W1C; Table 23.9. -/
def PWR_ERR.thermal_warn : Fld := ⟨0x000D0000 + 0x8, 2, 1, 0⟩
/-- PWR_ERR[3] thermal_crit, W1C; Table 23.9. -/
def PWR_ERR.thermal_crit : Fld := ⟨0x000D0000 + 0x8, 3, 1, 0⟩
/-- PWR_ERR[4] vault, W1C; Table 23.9. -/
def PWR_ERR.vault : Fld := ⟨0x000D0000 + 0x8, 4, 1, 0⟩
/-- PWR_ERR[5] late_wake, W1C; Table 23.9. -/
def PWR_ERR.late_wake : Fld := ⟨0x000D0000 + 0x8, 5, 1, 0⟩
/-- PWR_ERR[6] seal_incomplete, W1C; Table 23.9. -/
def PWR_ERR.seal_incomplete : Fld := ⟨0x000D0000 + 0x8, 6, 1, 0⟩
/-- PWR_ERR[7] restore_failed, W1C; Table 23.9. -/
def PWR_ERR.restore_failed : Fld := ⟨0x000D0000 + 0x8, 7, 1, 0⟩
/-- PWR_ERR[8] bad_value, W1C; Table 23.9. -/
def PWR_ERR.bad_value : Fld := ⟨0x000D0000 + 0x8, 8, 1, 0⟩
/-- PWR_CMD[0] wake_now, WO; Table 23.9. -/
def PWR_CMD.wake_now : Fld := ⟨0x000D0000 + 0xC, 0, 1, 0⟩
/-- PWR_CMD[1] seal_now, WO; Table 23.9. -/
def PWR_CMD.seal_now : Fld := ⟨0x000D0000 + 0xC, 1, 1, 0⟩
/-- PWR_CMD[2] restore, WO; Table 23.9. -/
def PWR_CMD.restore : Fld := ⟨0x000D0000 + 0xC, 2, 1, 0⟩
/-- PWR_CMD[3] release, WO; Table 23.9. -/
def PWR_CMD.release : Fld := ⟨0x000D0000 + 0xC, 3, 1, 0⟩
/-- PWR_VETO[14:0] rows, RO; Table 23.9. -/
def PWR_VETO.rows : Fld := ⟨0x000D0000 + 0x10, 0, 15, 0⟩
/-- PWR_MARGIN[15:0] us, RW; Table 23.9. -/
def PWR_MARGIN.us : Fld := ⟨0x000D0000 + 0x14, 0, 16, 10⟩
/-- PWR_DWELL_STBY[15:0] us, RW; Table 23.9. -/
def PWR_DWELL_STBY.us : Fld := ⟨0x000D0000 + 0x18, 0, 16, 200⟩
/-- PWR_DWELL_DORM[15:0] ms, RW; Table 23.9. -/
def PWR_DWELL_DORM.ms : Fld := ⟨0x000D0000 + 0x1C, 0, 16, 50⟩
/-- PWR_DWELL_SEAL[15:0] s, RW; Table 23.9. -/
def PWR_DWELL_SEAL.s : Fld := ⟨0x000D0000 + 0x20, 0, 16, 10⟩
/-- PWR_IDLE_NS[15:0] ns, RW; Table 23.9. -/
def PWR_IDLE_NS.ns : Fld := ⟨0x000D0000 + 0x24, 0, 16, 1000⟩
/-- PWR_LOSS[4:0] debounce_ms, RW; Table 23.9. -/
def PWR_LOSS.debounce_ms : Fld := ⟨0x000D0000 + 0x28, 0, 5, 5⟩
/-- PWR_MARK_LO[31:0] mark_lo, RO; Table 23.9. -/
def PWR_MARK_LO.mark_lo : Fld := ⟨0x000D0000 + 0x2C, 0, 32, 0⟩
/-- PWR_MARK_HI[31:0] mark_hi, RO; Table 23.9. -/
def PWR_MARK_HI.mark_hi : Fld := ⟨0x000D0000 + 0x30, 0, 32, 0⟩
/-- PWR_MARK_TOP[7:0] mark_top, RO; Table 23.9. -/
def PWR_MARK_TOP.mark_top : Fld := ⟨0x000D0000 + 0x34, 0, 8, 0⟩
/-- PWR_SEAL_INFO[3:0] cause, RO; Table 23.9. -/
def PWR_SEAL_INFO.cause : Fld := ⟨0x000D0000 + 0x38, 0, 4, 0⟩
/-- PWR_SEAL_INFO[10:4] slot, RO; Table 23.9. -/
def PWR_SEAL_INFO.slot : Fld := ⟨0x000D0000 + 0x38, 4, 7, 0⟩
/-- PWR_SEAL_INFO[31] valid, RO; Table 23.9. -/
def PWR_SEAL_INFO.valid : Fld := ⟨0x000D0000 + 0x38, 31, 1, 0⟩
/-- PWR_SEAL_TIME[31:0] us, RO; Table 23.9. -/
def PWR_SEAL_TIME.us : Fld := ⟨0x000D0000 + 0x3C, 0, 32, 0⟩
/-- PWR_SEAL_CNT[31:0] count, RO; Table 23.9. -/
def PWR_SEAL_CNT.count : Fld := ⟨0x000D0000 + 0x40, 0, 32, 0⟩
/-- PWR_LATE_CNT[31:0] count, RC; Table 23.9. -/
def PWR_LATE_CNT.count : Fld := ⟨0x000D0000 + 0x44, 0, 32, 0⟩
/-- PWR_RESTORE_BASE_LO[31:20] base_lo, RW; Table 23.9. -/
def PWR_RESTORE_BASE_LO.base_lo : Fld := ⟨0x000D0000 + 0x48, 20, 12, 0⟩
/-- PWR_RESTORE_BASE_HI[8:0] base_hi, RW; Table 23.9. -/
def PWR_RESTORE_BASE_HI.base_hi : Fld := ⟨0x000D0000 + 0x4C, 0, 9, 0⟩
/-- PWR_RESTORE_RESULT[1:0] result, RO; Table 23.9. -/
def PWR_RESTORE_RESULT.result : Fld := ⟨0x000D0000 + 0x50, 0, 2, 0⟩
/-- PWR_RESTORE_RESULT[31:16] poisoned, RO; Table 23.9. -/
def PWR_RESTORE_RESULT.poisoned : Fld := ⟨0x000D0000 + 0x50, 16, 16, 0⟩
/-- PWR_VIN[15:0] vin, RO; Table 23.9. -/
def PWR_VIN.vin : Fld := ⟨0x000D0000 + 0x60, 0, 16, 0⟩
/-- PWR_IIN[15:0] iin, RO; Table 23.9. -/
def PWR_IIN.iin : Fld := ⟨0x000D0000 + 0x64, 0, 16, 0⟩
/-- PWR_PIN[15:0] pin, RO; Table 23.9. -/
def PWR_PIN.pin : Fld := ⟨0x000D0000 + 0x68, 0, 16, 0⟩
/-- PWR_BUS[15:0] mv, RO; Table 23.9. -/
def PWR_BUS.mv : Fld := ⟨0x000D0000 + 0x6C, 0, 16, 0⟩
/-- PWR_TEMP[15:0] temp, RO; Table 23.9. -/
def PWR_TEMP.temp : Fld := ⟨0x000D0000 + 0x70, 0, 16, 0⟩
/-- PWR_TEMP_WARN[15:0] warn, RW; Table 23.9. -/
def PWR_TEMP_WARN.warn : Fld := ⟨0x000D0000 + 0x74, 0, 16, 320⟩
/-- PWR_TEMP_CRIT[15:0] crit, RW; Table 23.9. -/
def PWR_TEMP_CRIT.crit : Fld := ⟨0x000D0000 + 0x78, 0, 16, 360⟩
/-- PWR_VCORE[4:0] code, RO; Table 23.9. -/
def PWR_VCORE.code (q : Nat) : Fld := ⟨0x000D0000 + 0x80 + 4 * q, 0, 5, 0⟩
/-- PWR_RAIL_STATUS[10:0] good, RO; Table 23.9. -/
def PWR_RAIL_STATUS.good : Fld := ⟨0x000D0000 + 0x90, 0, 11, 0⟩
/-- OD_CTRL[0] en, RW; Table 24.3. -/
def OD_CTRL.en : Fld := ⟨0x000E0000, 0, 1, 1⟩
/-- OD_CTRL[7:4] lock, RW; Table 24.3. -/
def OD_CTRL.lock : Fld := ⟨0x000E0000, 4, 4, 0⟩
/-- OD_STATUS[3:0] measuring, RO; Table 24.3. -/
def OD_STATUS.measuring : Fld := ⟨0x000E0000 + 0x4, 0, 4, 0⟩
/-- OD_STATUS[7:4] pending, RO; Table 24.3. -/
def OD_STATUS.pending : Fld := ⟨0x000E0000 + 0x4, 4, 4, 0⟩
/-- OD_ERR[3:0] low_margin, W1C; Table 24.3. -/
def OD_ERR.low_margin : Fld := ⟨0x000E0000 + 0x8, 0, 4, 0⟩
/-- OD_ERR[7:4] exhausted, W1C; Table 24.3. -/
def OD_ERR.exhausted : Fld := ⟨0x000E0000 + 0x8, 4, 4, 0⟩
/-- OD_ERR[11:8] negative, W1C; Table 24.3. -/
def OD_ERR.negative : Fld := ⟨0x000E0000 + 0x8, 8, 4, 0⟩
/-- OD_ERR[15:12] overdue, W1C; Table 24.3. -/
def OD_ERR.overdue : Fld := ⟨0x000E0000 + 0x8, 12, 4, 0⟩
/-- OD_ERR[19:16] sensor, W1C; Table 24.3. -/
def OD_ERR.sensor : Fld := ⟨0x000E0000 + 0x8, 16, 4, 0⟩
/-- OD_ERR[20] bad_value, W1C; Table 24.3. -/
def OD_ERR.bad_value : Fld := ⟨0x000E0000 + 0x8, 20, 1, 0⟩
/-- OD_CMD[3:0] measure_now, WO; Table 24.3. -/
def OD_CMD.measure_now : Fld := ⟨0x000E0000 + 0xC, 0, 4, 0⟩
/-- OD_INTERVAL[15:0] s, RW; Table 24.3. -/
def OD_INTERVAL.s : Fld := ⟨0x000E0000 + 0x10, 0, 16, 600⟩
/-- OD_MARGIN_MIN[15:0] min, RW; Table 24.3. -/
def OD_MARGIN_MIN.min : Fld := ⟨0x000E0000 + 0x14, 0, 16, 200⟩
/-- OD_STEP_MAX[2:0] codes, RW; Table 24.3. -/
def OD_STEP_MAX.codes : Fld := ⟨0x000E0000 + 0x18, 0, 3, 1⟩
/-- OD_PLAN[4:0] plan, RO; Table 24.3. -/
def OD_PLAN.plan (q : Nat) : Fld := ⟨0x000E0000 + 0x20 + 4 * q, 0, 5, 0⟩
/-- OD_PLAN[12:8] fact, RO; Table 24.3. -/
def OD_PLAN.fact (q : Nat) : Fld := ⟨0x000E0000 + 0x20 + 4 * q, 8, 5, 0⟩
/-- OD_Q_MARGIN[15:0] margin, RO; Table 24.4. -/
def OD_Q_MARGIN.margin (q : Nat) : Fld := ⟨odqBase q, 0, 16, 0⟩
/-- OD_Q_AGE[31:0] hours, RO; Table 24.4. -/
def OD_Q_AGE.hours (q : Nat) : Fld := ⟨odqBase q + 0x4, 0, 32, 0⟩
/-- OD_Q_STAMP_LO[31:0] stamp_lo, RO; Table 24.4. -/
def OD_Q_STAMP_LO.stamp_lo (q : Nat) : Fld := ⟨odqBase q + 0x8, 0, 32, 0⟩
/-- OD_Q_STAMP_HI[23:0] stamp_hi, RO; Table 24.4. -/
def OD_Q_STAMP_HI.stamp_hi (q : Nat) : Fld := ⟨odqBase q + 0xC, 0, 24, 0⟩
/-- OD_Q_TEMP[15:0] temp, RO; Table 24.4. -/
def OD_Q_TEMP.temp (q : Nat) : Fld := ⟨odqBase q + 0x10, 0, 16, 0⟩
/-- OD_RMARGIN[15:0] margin, RO; Table 24.4. -/
def OD_RMARGIN.margin (q r : Nat) : Fld := ⟨odqBase q + 0x40 + 4 * r, 0, 16, 0⟩
/-- OD_RMARGIN[31] valid, RO; Table 24.4. -/
def OD_RMARGIN.valid (q r : Nat) : Fld := ⟨odqBase q + 0x40 + 4 * r, 31, 1, 0⟩
/-- OD_RO_FREQ[23:0] khz, RO; Table 24.4. -/
def OD_RO_FREQ.khz (q i : Nat) : Fld := ⟨odqBase q + 0x80 + 4 * i, 0, 24, 0⟩
/-- OD_RO_FREQ[31] discarded, RO; Table 24.4. -/
def OD_RO_FREQ.discarded (q i : Nat) : Fld := ⟨odqBase q + 0x80 + 4 * i, 31, 1, 0⟩
/-- OD_GMARGIN[15:0] ps, RO; Table 24.4. -/
def OD_GMARGIN.ps (q g : Nat) : Fld := ⟨odqBase q + 0xC0 + 4 * g, 0, 16, 0⟩
/-- OD_GMARGIN[31] valid, RO; Table 24.4. -/
def OD_GMARGIN.valid (q g : Nat) : Fld := ⟨odqBase q + 0xC0 + 4 * g, 31, 1, 0⟩
/-- OD_DLM[15:0] drift, RO; Table 24.4. -/
def OD_DLM.drift (q g : Nat) : Fld := ⟨odqBase q + 0x100 + 4 * g, 0, 16, 0⟩
/-- DBG_CTRL[9:0] max_wait, RW; Table 25.5. -/
def DBG_CTRL.max_wait : Fld := ⟨0x00100000, 0, 10, 256⟩
/-- DBG_CTRL[10] wake_ok, RW; Table 25.5. -/
def DBG_CTRL.wake_ok : Fld := ⟨0x00100000, 10, 1, 0⟩
/-- DBG_CTRL[11] step_irq, RW; Table 25.5. -/
def DBG_CTRL.step_irq : Fld := ⟨0x00100000, 11, 1, 0⟩
/-- DBG_STATUS[1:0] level, RO; Table 25.5. -/
def DBG_STATUS.level : Fld := ⟨0x00100000 + 0x4, 0, 2, 0⟩
/-- DBG_STATUS[3:2] core_state, RO; Table 25.5. -/
def DBG_STATUS.core_state : Fld := ⟨0x00100000 + 0x4, 2, 2, 0⟩
/-- DBG_STATUS[4] lockheld, RO; Table 25.5. -/
def DBG_STATUS.lockheld : Fld := ⟨0x00100000 + 0x4, 4, 1, 0⟩
/-- DBG_STATUS[5] held, RO; Table 25.5. -/
def DBG_STATUS.held : Fld := ⟨0x00100000 + 0x4, 5, 1, 0⟩
/-- DBG_ERR[0] fault, W1C; Table 25.5. -/
def DBG_ERR.fault : Fld := ⟨0x00100000 + 0x8, 0, 1, 0⟩
/-- DBG_ERR[1] bad_value, W1C; Table 25.5. -/
def DBG_ERR.bad_value : Fld := ⟨0x00100000 + 0x8, 1, 1, 0⟩
/-- DBG_CMD[0] halt_core, WO; Table 25.5. -/
def DBG_CMD.halt_core : Fld := ⟨0x00100000 + 0xC, 0, 1, 0⟩
/-- DBG_CMD[1] resume_core, WO; Table 25.5. -/
def DBG_CMD.resume_core : Fld := ⟨0x00100000 + 0xC, 1, 1, 0⟩
/-- DBG_CMD[2] step_core, WO; Table 25.5. -/
def DBG_CMD.step_core : Fld := ⟨0x00100000 + 0xC, 2, 1, 0⟩
/-- DBG_CMD[3] halt_cl, WO; Table 25.5. -/
def DBG_CMD.halt_cl : Fld := ⟨0x00100000 + 0xC, 3, 1, 0⟩
/-- DBG_CMD[4] resume_cl, WO; Table 25.5. -/
def DBG_CMD.resume_cl : Fld := ⟨0x00100000 + 0xC, 4, 1, 0⟩
/-- DBG_CMD[5] step_cl, WO; Table 25.5. -/
def DBG_CMD.step_cl : Fld := ⟨0x00100000 + 0xC, 5, 1, 0⟩
/-- DBG_CMD[6] sd_reset, WO; Table 25.5. -/
def DBG_CMD.sd_reset : Fld := ⟨0x00100000 + 0xC, 6, 1, 0⟩
/-- DBG_CL_SEL[8:0] cluster, RW; Table 25.5. -/
def DBG_CL_SEL.cluster : Fld := ⟨0x00100000 + 0x10, 0, 9, 0⟩
/-- DBG_HALT_INFO[4:0] ws, RO; Table 25.5. -/
def DBG_HALT_INFO.ws : Fld := ⟨0x00100000 + 0x14, 0, 5, 0⟩
/-- DBG_HALT_INFO[31] valid, RO; Table 25.5. -/
def DBG_HALT_INFO.valid : Fld := ⟨0x00100000 + 0x14, 31, 1, 0⟩
/-- DBG_HALT_PC[31:0] pc, RO; Table 25.5. -/
def DBG_HALT_PC.pc : Fld := ⟨0x00100000 + 0x18, 0, 32, 0⟩
/-- DBG_HALT_STAMP_LO[31:0] stamp_lo, RO; Table 25.5. -/
def DBG_HALT_STAMP_LO.stamp_lo : Fld := ⟨0x00100000 + 0x1C, 0, 32, 0⟩
/-- DBG_HALT_STAMP_HI[23:0] stamp_hi, RO; Table 25.5. -/
def DBG_HALT_STAMP_HI.stamp_hi : Fld := ⟨0x00100000 + 0x20, 0, 24, 0⟩
/-- DBG_FAULT[2:0] cause, RO; Table 25.5. -/
def DBG_FAULT.cause : Fld := ⟨0x00100000 + 0x24, 0, 3, 0⟩
/-- DBG_FAULT[6:4] resp, RO; Table 25.5. -/
def DBG_FAULT.resp : Fld := ⟨0x00100000 + 0x24, 4, 3, 0⟩
/-- DBG_TRACE_SEL[5:0] entry, RW; Table 25.5. -/
def DBG_TRACE_SEL.entry : Fld := ⟨0x00100000 + 0x30, 0, 6, 0⟩
/-- DBG_TRACE_INFO[3:0] op, RO; Table 25.5. -/
def DBG_TRACE_INFO.op : Fld := ⟨0x00100000 + 0x34, 0, 4, 0⟩
/-- DBG_TRACE_INFO[6:4] ack, RO; Table 25.5. -/
def DBG_TRACE_INFO.ack : Fld := ⟨0x00100000 + 0x34, 4, 3, 0⟩
/-- DBG_TRACE_INFO[31:8] addr, RO; Table 25.5. -/
def DBG_TRACE_INFO.addr : Fld := ⟨0x00100000 + 0x34, 8, 24, 0⟩
/-- DBG_TRACE_STAMP_LO[31:0] stamp_lo, RO; Table 25.5. -/
def DBG_TRACE_STAMP_LO.stamp_lo : Fld := ⟨0x00100000 + 0x38, 0, 32, 0⟩
/-- DBG_TRACE_STAMP_HI[23:0] stamp_hi, RO; Table 25.5. -/
def DBG_TRACE_STAMP_HI.stamp_hi : Fld := ⟨0x00100000 + 0x3C, 0, 24, 0⟩
/-- DBG_TRACE_COUNT[31:0] count, RO; Table 25.5. -/
def DBG_TRACE_COUNT.count : Fld := ⟨0x00100000 + 0x40, 0, 32, 0⟩
/-- WDG_CTRL[0] en, RW; Table 25.5. -/
def WDG_CTRL.en : Fld := ⟨0x00100000 + 0x80, 0, 1, 1⟩
/-- WDG_CTRL[1] run_in_halt, RW; Table 25.5. -/
def WDG_CTRL.run_in_halt : Fld := ⟨0x00100000 + 0x80, 1, 1, 0⟩
/-- WDG_PERIOD[15:0] ms, RW; Table 25.5. -/
def WDG_PERIOD.ms : Fld := ⟨0x00100000 + 0x84, 0, 16, 1000⟩
/-- WDG_REMAIN[31:0] us, RO; Table 25.5. -/
def WDG_REMAIN.us : Fld := ⟨0x00100000 + 0x88, 0, 32, 1000000⟩
/-- WDG_KICK[31:0] kick, WO; Table 25.5. -/
def WDG_KICK.kick : Fld := ⟨0x00100000 + 0x8C, 0, 32, 0⟩
/-- WDG_EXPIRE_CNT[15:0] count, RC; Table 25.5. -/
def WDG_EXPIRE_CNT.count : Fld := ⟨0x00100000 + 0x90, 0, 16, 0⟩
/-- DTR_ADDR[22:2] addr, RW; Table 25.5. -/
def DTR_ADDR.addr (d : Nat) : Fld := ⟨(0x00100800 + 0x10 * d), 2, 21, 0⟩
/-- DTR_DATA[31:0] data, RW; Table 25.5. -/
def DTR_DATA.data (d : Nat) : Fld := ⟨(0x00100800 + 0x10 * d) + 0x4, 0, 32, 0⟩
/-- DTR_CTL[0] en, RW; Table 25.5. -/
def DTR_CTL.en (d : Nat) : Fld := ⟨(0x00100800 + 0x10 * d) + 0x8, 0, 1, 0⟩
/-- DTR_CTL[1] mode, RW; Table 25.5. -/
def DTR_CTL.mode (d : Nat) : Fld := ⟨(0x00100800 + 0x10 * d) + 0x8, 1, 1, 0⟩
/-- DTR_CTL[31] hit, W1C; Table 25.5. -/
def DTR_CTL.hit (d : Nat) : Fld := ⟨(0x00100800 + 0x10 * d) + 0x8, 31, 1, 0⟩
/-- DTR_HITCNT[31:0] count, RC; Table 25.5. -/
def DTR_HITCNT.count (d : Nat) : Fld := ⟨(0x00100800 + 0x10 * d) + 0xC, 0, 32, 0⟩
/-- ID_DEVICE[15:0] device, RO; Table 27.4. -/
def ID_DEVICE.device : Fld := ⟨0x00000000, 0, 16, 2676⟩
/-- ID_DEVICE[23:16] hub_rev, RO; Table 27.4. -/
def ID_DEVICE.hub_rev : Fld := ⟨0x00000000, 16, 8, 0⟩
/-- ID_VARIANT[0] grade, RO; Table 27.4. -/
def ID_VARIANT.grade : Fld := ⟨0x00000000 + 0x4, 0, 1, 0⟩
/-- ID_VARIANT[1] keys, RO; Table 27.4. -/
def ID_VARIANT.keys : Fld := ⟨0x00000000 + 0x4, 1, 1, 0⟩
/-- ID_SERIAL_LO[31:0] lo, RO; Table 27.4. -/
def ID_SERIAL_LO.lo : Fld := ⟨0x00000000 + 0x8, 0, 32, 0⟩
/-- ID_SERIAL_HI[31:0] hi, RO; Table 27.4. -/
def ID_SERIAL_HI.hi : Fld := ⟨0x00000000 + 0xC, 0, 32, 0⟩
/-- ID_QUARTERS[3:0] offline, RO; Table 27.4. -/
def ID_QUARTERS.offline : Fld := ⟨0x00000000 + 0x10, 0, 4, 0⟩
/-- ID_QUARTERS[7:4] ready, RO; Table 27.4. -/
def ID_QUARTERS.ready : Fld := ⟨0x00000000 + 0x10, 4, 4, 0⟩
/-- GC_ERR[0] decode, W1C; Table 27.4. -/
def GC_ERR.decode : Fld := ⟨0x00000000 + 0x20, 0, 1, 0⟩
/-- GC_ERR[1] bad_value, W1C; Table 27.4. -/
def GC_ERR.bad_value : Fld := ⟨0x00000000 + 0x20, 1, 1, 0⟩
/-- GC_DECODE[25:2] offset, RO; Table 27.4. -/
def GC_DECODE.offset : Fld := ⟨0x00000000 + 0x24, 2, 24, 0⟩
/-- GC_DECODE[28:27] kind, RO; Table 27.4. -/
def GC_DECODE.kind : Fld := ⟨0x00000000 + 0x24, 27, 2, 0⟩
/-- GC_DECODE[29] debug, RO; Table 27.4. -/
def GC_DECODE.debug : Fld := ⟨0x00000000 + 0x24, 29, 1, 0⟩
/-- GC_DECODE[31] valid, RO; Table 27.4. -/
def GC_DECODE.valid : Fld := ⟨0x00000000 + 0x24, 31, 1, 0⟩
/-- GC_DECODE_CNT[31:0] count, RC; Table 27.4. -/
def GC_DECODE_CNT.count : Fld := ⟨0x00000000 + 0x28, 0, 32, 0⟩
/-- GC_CMD[0] tile_reset, WO; Table 27.4. -/
def GC_CMD.tile_reset : Fld := ⟨0x00000000 + 0x2C, 0, 1, 0⟩
/-- GC_CMD[31:16] key, WO; Table 27.4. -/
def GC_CMD.key : Fld := ⟨0x00000000 + 0x2C, 16, 16, 0⟩

end Sys2Proof.Machine
end

