-- ==== Sys2Proof/Machine/Tab.lean ====
section
/-! DEFINITION. Sparse tables: lists of (number, value) pairs in one canonical form, numbers strictly rising and no entry
equal to the table's default. Register fields, per-unit state and memory are kept in them. -/

namespace Sys2Proof.Machine

/-- A sparse table; an unlisted number holds a default the reader names. -/
abbrev Tab (α : Type) := List (Nat × α)

/-- The value at `k`, `d` where nothing is listed. -/
def Tab.get {α : Type} (d : α) : Tab α → Nat → α
  | [], _ => d
  | e :: t, k => if e.1 = k then e.2 else Tab.get d t k

/-- The table without `k`. -/
def Tab.del {α : Type} : Tab α → Nat → Tab α
  | [], _ => []
  | e :: t, k => if e.1 = k then Tab.del t k else e :: Tab.del t k

/-- Put `k` before the first larger number. -/
def Tab.ins {α : Type} : Tab α → Nat → α → Tab α
  | [], k, v => [(k, v)]
  | e :: t, k, v => if k < e.1 then (k, v) :: e :: t else e :: Tab.ins t k v

/-- Set `k` to `v`; a value equal to the default leaves no entry. -/
def Tab.set {α : Type} [DecidableEq α] (d : α) (t : Tab α) (k : Nat) (v : α) : Tab α :=
  if v = d then Tab.del t k else Tab.ins (Tab.del t k) k v

/-- Numbers strictly rising. -/
def Tab.rising {α : Type} : Tab α → Bool
  | [] => true
  | [_] => true
  | a :: b :: t => decide (a.1 < b.1) && Tab.rising (b :: t)

/-- Canonical form: strictly rising and no entry equal to `d`. -/
def Tab.wf {α : Type} [DecidableEq α] (d : α) (t : Tab α) : Bool :=
  Tab.rising t && t.all (fun e => e.2 ≠ d)

end Sys2Proof.Machine
end

