-- ==== Sys2Proof/Machine/State.lean ====
section
/-! DEFINITION. The state of the tile as plain data: the register file (one entry per register field), the staged and
active copies of staged fields, and for each block the state the manual gives it beside its registers. `Chip` holds all of
it but the tile DRAM contents and the queue of waiting commands. -/

namespace Sys2Proof.Machine

/-- Why a step can stop with a fault. No command of this model does (NOTES.md, Stops). -/
inductive Fault where
  /-- Raised by nothing in this model; kept so that a later repair can name a stuck state. Safe: it only stops. -/
  | stuck
deriving DecidableEq, Repr

/-- Why a step can refuse a command. -/
inductive Refusal where
  /-- Raised by `exec` for a command of the table that has no meaning yet. Safe: the run stops. -/
  | notModelled (mnemonic : String)
deriving DecidableEq, Repr

/-- What the block drives to the outside, oldest first: the outcome of a command that is not a change of state. -/
inductive Out where
  /-- Data of a completed register read, by requesting source. -/
  | csr (src : Src) (addr value : Nat)
  /-- A trunk message sent on a port (17 R389): its kind, sequence number, acknowledgement and fields. -/
  | trunk (port : Nat) (kind : MsgKind) (seq ack : Nat) (fields : List Nat)
  /-- An injected error on a lane of a port (17 R393): 0 BIT, 1 BURST of that many bits, 2 CRC of the next reliable message. -/
  | trunkError (port lane kind len : Nat)
  /-- A READ of tile DRAM issued by an agent. -/
  | dramRead (who : Agent) (addr len : Nat)
  /-- A WRITE or PARTIAL of tile DRAM issued by an agent, with its bytes. -/
  | dramWrite (who : Agent) (addr : Nat) (bytes : List Nat)
  /-- The same with its payload flagged poisoned (12 R291). -/
  | dramPoison (who : Agent) (addr : Nat) (bytes : List Nat)
  /-- An OR_WRITE issued by an agent: address of the 64-bit word and mask. -/
  | dramOr (who : Agent) (addr mask : Nat)
  /-- The answer of a DRAM controller or of the network to a request: requester, request, response code, the line as a
  number (byte 0 in bits 7 to 0), 0 when the answer carries no data. -/
  | answer (who : Agent) (req : Nat) (resp : Resp) (line : Nat)
  /-- A taint notice sent to a requester (13 R312): its request, the line and the record stamp F of the forward. -/
  | taint (who : Agent) (req line f : Nat)
  /-- A packet leaves a junction on a port (14 R321): 0 to 3 its links, 4 + n local port Ln, 10 an attach junction's link to
  the hub. -/
  | packet (junction port : Nat) (head : Line) (payload : List Flit)
  /-- A memory write to host memory. -/
  | hostWrite (addr : Nat) (bytes : List Nat)
  /-- A memory read request to host memory. -/
  | hostRead (addr len : Nat)
  /-- A 64-byte event record written to host memory (16 Table 16.3): address, then event number, originating tile, epoch, cause,
  flags, sequence number, full stamp, and what its payload carries. -/
  | eventRecord (addr num tile epoch cause flags seq stamp : Nat) (payload : List Nat)
  /-- A completion of a BAR2 read: status (0 SC, 1 SC with EP, 2 CA) and bytes. -/
  | completion (status : Nat) (bytes : List Nat)
  /-- An MSI-X message of a vector. -/
  | msix (vector addr data : Nat)
  /-- A pulse on a fabric trigger line of a quarter at an instant. -/
  | trigger (q line at_ : Nat)
  /-- A pin edge at a rounded instant: channel, 0 DRV or 1 DEN or 2 INH, level. -/
  | edge (ch sig level at_ : Nat)
  /-- A strobe result sent to the fabric: channel, fail bit, instant. -/
  | strobe (ch fail at_ : Nat)
  /-- A Causeway frame started on the bus. -/
  | frame (bytes : List Nat)
  /-- A reply to an SPDM request: response name code and payload. -/
  | spdm (code : Nat) (payload : List Nat)
  /-- A PMBus reply, or no acknowledgement. -/
  | pmbus (ack : Bool) (bytes : List Nat)
  /-- A Twivel acknowledgement with data. -/
  | twivel (ack data : Nat)
  /-- A request handed to firmware, with its parameters. -/
  | firmware (what : Nat) (args : List Nat)
  /-- Something a unit presents to the region's user logic: region, kind, values. -/
  | fabric (r kind : Nat) (vals : List Nat)
deriving DecidableEq, Repr

/-- An event raised and not yet at the router (16 R372): number, cause, record stamp, payload. -/
structure Raised where
  num     : Nat
  cause   : Nat
  stamp   : Nat
  payload : List Nat
deriving DecidableEq, Repr

/-- A time-transfer exchange in progress on the downstream side (02 R45): port, exchange number, t1, t2, t3 once DELAY_REQ is sent, and the asymmetry held at t2. -/
structure Xchg where
  port : Nat
  num  : Nat
  t1   : Nat
  t2   : Nat
  t3   : Option Nat
  asym : Int
deriving DecidableEq, Repr

/-- An absorption (02 R53): what is left to lose, in 2^-32 MT, the counter before it, its size, the state to return to. -/
structure Absorb where
  left   : Nat
  before : Nat
  size   : Nat
  back   : Nat
deriving DecidableEq, Repr

/-- Milepost beside its registers (02). Signed quantities below a MT are kept in units of 2^-32 MT. -/
structure Milepost where
  /-- The 72-bit counter, after the vote of its three copies (R36, R39). -/
  counter   : Nat := 0
  /-- The 32-bit fraction the counter keeps internally (R36). -/
  frac      : Nat := 0
  /-- Frequency term: deviation of the rate word from nominal, per REF cycle, in 2^-32 MT (R38, R47). -/
  freq      : Int := 0
  /-- Correction still to slew, in 2^-32 MT (R51). -/
  slew      : Int := 0
  /-- The running mean is empty (R46). -/
  meanEmpty : Bool := true
  /-- Consecutive gate discards (R46). -/
  gateRun   : Nat := 0
  /-- Consecutive exchanges missing or discarded (R48). -/
  missRun   : Nat := 0
  xchg      : Option Xchg := none
  /-- Upstream side: number of the last SYNC sent on each port, while no DELAY_REQ has answered it (R45). -/
  syncSent  : Tab (Option Nat) := []
  /-- Number of the next exchange this tile starts. -/
  xnum      : Nat := 0
  absorb    : Option Absorb := none
  /-- Holdover estimate in 10^-6 MT (R58). -/
  holdAcc   : Nat := 0
  /-- Last accepted offset, MT (R47, R58). -/
  theta     : Int := 0
  /-- The interval of R54 is open: from cold start to the first launch of the first batch, or after a resync. -/
  openWin   : Bool := true
  /-- A forward step or an absorption ended in that interval: the open stamp of batch 0 follows it (03 R88). -/
  lastStep  : Nat := 0
deriving DecidableEq, Repr

/-- A message on a trunk link: sequence number, kind, fields (17 R389). -/
structure TMsg where
  seq    : Nat
  kind   : MsgKind
  fields : List Nat
deriving DecidableEq, Repr

/-- A trunk port beside its registers (17). -/
structure TrkPort where
  /-- Next sequence number to give a reliable message (R391). -/
  nextSeq : Nat := 0
  /-- Reliable messages sent and not acknowledged, oldest first, at most 64 (R391). -/
  window  : List TMsg := []
  /-- Reliable messages waiting for room or for the link (R391). -/
  waiting : List TMsg := []
  /-- Reliable messages held for an ASLEEP peer, at most 64 (R399). -/
  held    : List TMsg := []
  /-- Sequence number of the next reliable message to be received in order (R391). -/
  expect  : Nat := 0
  /-- Errors counted in the current 1 ms window (R388). -/
  errs    : Nat := 0
  /-- Step of a training attempt in progress, 0 when none (R384). -/
  step    : Nat := 0
  /-- Full training attempts failed in a row (R384). -/
  fails   : Nat := 0
  /-- Serial and epoch of the peer the link last carried messages for (R391). -/
  peer    : Option (Nat × Nat) := none
  /-- Serial the stored coefficients were trained with (R387). -/
  storedFor : Option Nat := none
  /-- The training in progress uses the stored coefficients (R387). -/
  quick   : Bool := false
  /-- A lane test runs, and this end started it (R392). -/
  testing : Bool := false
  /-- TRK_TEST value the test in progress runs with (R392). -/
  testVal : Nat := 0
  /-- Injections still to apply, and the value of TRK_INJ they were started with (R393). -/
  inject  : Nat := 0
  injVal  : Nat := 0
  /-- A role written to a port that is not OFF, waiting for en to be cleared (R394). -/
  roleNext : Option Nat := none
  /-- The peer's last HELLO came from a manager (17 Table 17.4 row 4). -/
  peerMgr : Bool := false
  /-- The DOWN link has been out of ACTIVE without SLEEP for its 1 s and LOST was sent (R398). -/
  lostSent : Bool := false
deriving DecidableEq, Repr

/-- A tile number's entry in the manager's hierarchy table (17 R395, R398, R402): state 0 FREE, 1 RESERVED, 2 ENROLLED,
3 LOST; epoch and trunk paths of the enrolled tile, manager's trunk first. -/
structure HyEntry where
  serial  : Nat := 0
  reserve : Bool := false
  state   : Nat := 0
  epoch   : Nat := 0
  path    : List Nat := []
  alt     : Option (List Nat) := none
deriving DecidableEq, Repr

/-- A request to enrol (17 R395): serial, epoch, path, alternate flag, the port it came in on, the number chosen and the
nonce of its QUOTE_REQ. -/
structure Enrol where
  serial : Nat
  epoch  : Nat
  path   : List Nat
  alt    : Bool
  port   : Nat
  number : Nat
  nonce  : Nat
deriving DecidableEq, Repr

/-- The hierarchy beside its registers (17): the manager's table; requests waiting for their quote; requests a member received
before its own grant; the port that leads to each serial; the epoch in which the first QUOTE was sent (22 R489). -/
structure Hier where
  tab     : Tab HyEntry := []
  pending : List Enrol := []
  early   : List Enrol := []
  routes  : List (Nat × Nat) := []
  quoted  : Option Nat := none
deriving DecidableEq, Repr

/-- A frame held by the Causeway port (18 R410, R411): type, priority, sequence number, payload (a BEACON's is made when it
starts), copies left, whether one has been sent. -/
structure CwFrame where
  ftype   : Nat
  prio    : Nat
  seq     : Nat
  payload : List Nat
  copies  : Nat
  sent    : Bool
deriving DecidableEq, Repr

/-- The Causeway port beside its registers (18): key slots of generations 0 and 1, next sequence number, frames held in push
order, the slot chosen in the open window with its frame's sequence number, the frame on the bus, strangers in the current and in the last 1 ms
window, and windows below CW_Q_LIMIT in a row. -/
structure Causeway where
  key0    : Option Nat := none
  key1    : Option Nat := none
  seq     : Nat := 0
  queue   : List CwFrame := []
  slot    : Option (Nat × Nat) := none
  sending : Option Nat := none
  strange : Nat := 0
  lastWin : Nat := 0
  calm    : Nat := 0
deriving DecidableEq, Repr

/-- An entry of the measurement log (22 R486). -/
structure SecLog where
  mr     : Nat
  source : Nat
  region : Nat
  digest : Nat
  stamp  : Nat
deriving DecidableEq, Repr

/-- The security engine beside its registers (22): the measurement log by slot; whether the nonce in SEC_DBG_CHAL may still serve
an attempt; failed attempts in a row; the keys of key select 1 and 2; tamper flags whose event waits for the hub core. -/
structure Security where
  log     : Tab (Option SecLog) := []
  chal    : Bool := false
  fails   : Nat := 0
  fuseKey : Option Nat := none
  batKey  : Option Nat := none
  due     : Bool := false
  /-- Bytes of the hub recovery SRAM (R487). -/
  sram    : Tab Nat := []
deriving DecidableEq, Repr

/-- An event record formed by a router (16 Table 16.3). -/
structure EvRec where
  num     : Nat
  tile    : Nat
  epoch   : Nat
  cause   : Nat
  flags   : Nat
  seq     : Nat
  stamp   : Nat
  payload : List Nat
deriving DecidableEq, Repr

/-- A vault slot (23 R507 to R510): seal number, its cause, 0 incomplete 1 complete and unreleased 2 released; by line of the slot the
lines that are not zero, and those stored as poisoned. -/
structure VSlot where
  n      : Nat
  cause  : Nat
  state  : Nat
  lines  : Tab Nat
  poison : List Nat
deriving DecidableEq, Repr

/-- A seal in progress (23 R503 to R506): its cause, whether the tile was below RUN at the mark and a crossing was in progress, the level
of each fail log, MP_STATUS, offset and holdover estimate at the mark, quarters whose span cannot be read, whether input has
returned. -/
structure Seal where
  cause    : Nat
  at_      : Nat
  below    : Bool
  crossing : Bool
  levels   : List Nat
  mpStatus : Nat
  offset   : Nat
  hold     : Nat
  missing  : Nat
  returned : Bool
deriving DecidableEq, Repr

/-- Power entry, Signpost and sealing beside their registers (23). -/
structure Power where
  /-- Domains whose wake is in progress: quarters 0 to 3, 4 the tile (R500). -/
  waking   : List Nat := []
  /-- The power-fail mark, while in force (R503). -/
  mark     : Option Nat := none
  sealing  : Option Seal := none
  /-- Vault slots that hold a seal. -/
  slots    : Tab (Option VSlot) := []
  /-- The slot firmware has erased for the next seal (R507). -/
  next     : Option Nat := none
  /-- Slot a restore copies, and the slot the last one copied (R510). -/
  restore  : Option Nat := none
  restored : Option Nat := none
  /-- Tile state being entered, 3 DORMANT or 4 SEALED (R498, Table 23.4). -/
  entering : Option Nat := none
  /-- When each quarter last had a group running or a request at its ports (R498). -/
  busyAt   : Tab Nat := []
  /-- What holds the tile in SEALED: 1 OPERATION off, 2 temperature, 3 a rail (R505, R511, R512). -/
  shut     : List Nat := []
  /-- Latched PMBus status: 0 input undervoltage, 1 off, 2 overtemperature warning, 3 overtemperature fault (R513). -/
  faults   : Nat := 0
deriving DecidableEq, Repr

/-- One entry of the launch queue (03 R69). -/
structure LqEntry where
  t      : Nat
  action : Nat
  arg    : Nat
  id     : Nat
  /-- Insertion order. -/
  order  : Nat
  /-- Epoch of the manager when the entry is a system launch (R77). -/
  sys    : Option Nat
  /-- When the entry became ready: inserted with every domain it targets in RUN (R73). -/
  ready  : Option Nat
  /-- Release by the crossing that held it (R89). -/
  rel    : Option Nat
deriving DecidableEq, Repr

/-- A commit whose groups have not all switched (03 R85): its set, and the groups still to switch with the staged values
they had at the commit instant (R86). -/
structure Commit where
  cset   : Nat
  groups : List (Nat × Tab Nat)
  /-- LQ_COMMIT_STATUS reports this commit: no later one has started. -/
  last   : Bool
deriving DecidableEq, Repr

/-- The counts of one batch (03 Table 3.8) that no register holds. -/
structure Batch where
  openStamp  : Nat := 0
  legs       : Nat := 0
  legsCut    : Nat := 0
  executed   : Nat := 0
  late       : Nat := 0
  rejected   : Nat := 0
  refusedC   : Nat := 0
  outOfTol   : Bool := false
  stepped    : Bool := false
  absorbed   : Bool := false
  unaligned  : Bool := false
deriving DecidableEq, Repr

/-- The launch queue and crossings beside their registers (03). -/
structure Launch where
  entries  : List LqEntry := []
  nextId   : Nat := 1
  nextOrd  : Nat := 0
  /-- System launches already received: epoch and identifier (R79). -/
  seen     : List (Nat × Nat) := []
  /-- System launches this tile has executed: for TOO_LATE (R81). -/
  done     : List (Nat × Nat) := []
  /-- Identifiers of the system launches this manager pushed (R81). -/
  pushed   : List Nat := []
  commits  : List Commit := []
  batch    : Batch := {}
  /-- A crossing is in progress, waiting in step 7 for an absorption: its start stamp (R87). -/
  crossing : Option Nat := none
  /-- Further crossings waiting to run (R87). -/
  waiting  : Nat := 0
deriving DecidableEq, Repr

/-- The cells of one match entry (04 R108, R111): valid bit, 40-bit mask and value, parity agrees. -/
structure MatchCells where
  valid  : Bool := false
  mask   : Nat := 0
  value  : Nat := 0
  parity : Bool := true
deriving DecidableEq, Repr

/-- One entry with its latest writes, newest first, each with the clock edge of the write (04 R110). -/
structure MatchEntry where
  writes : List (Nat × MatchCells) := []
deriving DecidableEq, Repr

/-- A region's fabric beside its registers (04): which logic blocks are in match mode, their entries, avenues disabled by
contention, frozen by a fault, user registers as last held. -/
structure Region where
  /-- Mode of a logic block: 0 logic, 1 match, 2 match with all four LBs of its spine group spined (R108, R113). -/
  lbMode   : Tab Nat := []
  /-- Match entries: LB index times 64 plus entry. -/
  entries  : Tab MatchEntry := []
  /-- Avenues whose drivers are disabled (R124). -/
  disabled : List Nat := []
  /-- The region holds a released image (20 R449). -/
  loaded   : Bool := false
  /-- A load has clamped the region and has not released it (20 R446). -/
  loading  : Bool := false
  /-- Clock enables stopped by a fault until the region is reloaded (R126). -/
  frozen   : Bool := false
  /-- Regions of the GCK mask the image uses (05 R135). -/
  gcks     : Nat := 0
  /-- User registers, macrocell number to value, as last initialised or captured (R104, 05 R140). -/
  user     : Tab Nat := []
  /-- Stamp of each reflex flag's latest set (R117). -/
  flagAt   : Tab Nat := []
  /-- The 24 reflex terms: inputs that must be 1, inputs that must be 0, destination code (R114, R115). -/
  reflex   : List (Nat × Nat × Nat) := []
  /-- Initial values of the user registers, as the image gives them (R104). -/
  init     : Tab Nat := []
  /-- The Kerb value store, by word (20 R444, R458). -/
  kerb     : Tab Nat := []
  /-- Payloads of the LOGIC and AVENUE frames, by index (20 R439); cells of each upset since it was written, check cells above
  bit 32767 (21 R460); live frames (R112). -/
  frames   : Tab Nat := []
  upsets   : Tab Nat := []
  live     : List Nat := []
  /-- Where a reload finds each frame: flash slot, header digest, chunk (21 R463). -/
  locator  : Tab (Option (Nat × Nat × Nat)) := []
deriving DecidableEq, Repr

/-- A Cadence PLL beside its registers (05 R131 to R133): 0 stopped, 1 started and not locked, 2 locked; the setting it
runs: n, m - 1, p - 1. -/
structure Cpll where
  state : Nat := 0
  n     : Nat := 0
  m1    : Nat := 0
  p1    : Nat := 0
deriving DecidableEq, Repr

/-- What a capture copied of one region (05 R140): macrocell registers, reflex flags, block-memory output registers. -/
structure Shadow where
  user  : Tab Nat
  flags : Nat
  outs  : Tab Nat
deriving DecidableEq, Repr

/-- A quarter's clocks, captures and reset beside its registers (05). -/
structure Quarter where
  cplls     : Tab Cpll := []
  /-- Capture instant of a capture waiting for its edge (R140, R143). -/
  capture   : Option Nat := none
  /-- Shadow cells by region of the quarter. -/
  shadow    : Tab (Option Shadow) := []
  /-- Regions of the quarter whose clock enables a FREEZE capture has stopped (R142). -/
  held      : List Nat := []
  /-- A quarter reset is in progress (R138). -/
  resetting : Bool := false
deriving DecidableEq, Repr


/-- A word of a block memory (06 R146, R154): its 64 data bits (72 unprotected), the cells upset since it was written, its
valid bit. -/
structure BmWord where
  data  : Nat := 0
  flips : Nat := 0
  valid : Bool := false
deriving DecidableEq, Repr

/-- A block memory beside its registers (06). -/
structure BmBlock where
  /-- Port mode: 0 TDP, 1 SDP, 2 FIFO, 3 ROM (Table 6.1). -/
  mode   : Nat := 0
  /-- Protection: 0 SECDED, 1 CRC, 2 NONE (Table 6.2). -/
  prot   : Nat := 0
  /-- Widths of ports A and B in bits. -/
  wa     : Nat := 64
  wb     : Nat := 64
  /-- Every word was made valid before release: FILL, or contents from the frames (R154). -/
  filled : Bool := false
  words  : Tab BmWord := []
  /-- CRC lines written as four consecutive writes (R153). -/
  okLines : List Nat := []
  /-- Line being written in order, and its words so far (R153). -/
  run    : Option (Nat × Nat) := none
  /-- Corrected words waiting for their write-back (R151). -/
  fixes  : List Nat := []
  /-- Latest write: port, instant, and the words it replaced (R148). -/
  lastW  : Option (Nat × Nat × List (Nat × BmWord)) := none
  /-- FIFO: read place and entries held, and the two programmable levels. -/
  rd     : Nat := 0
  fill   : Nat := 0
  lvlLo  : Nat := 0
  lvlHi  : Nat := 0
  /-- Output registers of ports A and B. -/
  outA   : Nat := 0
  outB   : Nat := 0
  /-- Contents the image gives, in the retained frames (R154, R440). -/
  init   : Tab BmWord := []
deriving DecidableEq, Repr


/-- A drive edge or DEN change scheduled on a channel (07 R160, R162). `kind` 0 a drive slot, 1 DEN, 2 a level placed by a
state transition (R173: `level` is then the idle or abort code). -/
structure EdgeEv where
  at_   : Nat
  kind  : Nat
  level : Nat
  vec   : Nat
deriving DecidableEq, Repr

/-- One channel's part of a scheduled strobe: channel k, instant, expect code, data bit. -/
structure StrobeCh where
  k      : Nat
  at_    : Nat
  expect : Nat
  data   : Nat
deriving DecidableEq, Repr

/-- A strobe of a pin group scheduled by a vector (07 R160, R166): slot, window mode, its channels, what fail records need
of its vector, and the streamer line and MATCH iterations the vector belongs to. -/
structure StrobeEv where
  slot   : Nat
  window : Bool
  chans  : List StrobeCh
  vec    : Nat
  ts     : Nat
  apg    : Option Nat
  line   : Option (Nat × Nat)
  taint  : Bool
  iters  : List (Nat × Nat)
  leg    : Nat
deriving DecidableEq, Repr

/-- A channel beside its registers (07). -/
structure Chan where
  sched   : List EdgeEv := []
  lastDrv : Option Nat := none
  lastDen : Option Nat := none
  lastStb : Option Nat := none
  /-- Reflex action held (R169): 1 DRIVE_HI, 2 DRIVE_LO, 3 RELEASE, with the earliest instant it applies to. -/
  held    : Option (Nat × Nat) := none
  /-- Levels sampled at the previous enabled strobe of the leg (R166 KEEP): CMPH and CMPL. -/
  prev    : Option (Nat × Nat) := none
  /-- Vector whose edge a RELEASE turned DEN off at: later vectors only turn it on (R169). -/
  relVec  : Option Nat := none
deriving DecidableEq, Repr

/-- A leg running on a pin group (07 R160): launch time, sum of the periods so far with 16 fraction bits, vectors
presented, timing set in force, leg number in the batch, launch identifier. -/
structure Leg where
  t       : Nat
  sum     : Nat
  count   : Nat
  ts      : Nat
  num     : Nat
  launch  : Nat
  /-- Period of the last vector, 16 fraction bits (R175). -/
  period  : Nat
  /-- End requested: 0 none, 1 END, 2 program error, 3 HALT, 4 power-fail mark, 5 last APG vector (R205, R206). -/
  ending  : Nat
  /-- The first void of the leg has set underrun (08 R197). -/
  voided  : Bool
  /-- End of the last vector presented, the leg's instant before any (09 Table 9.3). -/
  fin     : Nat
  /-- Start of the last vector presented, the leg's instant before any (08 Table 8.15). -/
  lastAt  : Nat
deriving DecidableEq, Repr

/-- A pin group beside its registers (07). -/
structure PinGroup where
  leg     : Option Leg := none
  chans   : Tab Chan := []
  strobes : List StrobeEv := []
  /-- STALLs asked for by the fail log: when each was asked for, and when it ended (09 R225). -/
  stalls  : List (Nat × Option Nat) := []
  /-- Measured trims held until the group leaves RUNNING (R181): temperature, then drive and compare trim of each channel. -/
  heldCal : Option (Int × List (Int × Int)) := none
  /-- A calibration measurement runs (R180). -/
  measuring : Bool := false
  /-- Die temperature at the group as last measured, 0.25 degC. -/
  temp    : Int := 0
deriving DecidableEq, Repr

/-- A frame of a streamer's loop stack (08 R198, R199). -/
structure StrFrame where
  isMatch : Bool
  /-- First instruction of the body. -/
  body    : Nat
  /-- Address after the loop (the LOOP's or MATCH's addr). -/
  after   : Nat
  /-- LOOP: iterations left. MATCH: the limit. -/
  count   : Nat
  /-- MATCH: iterations begun. -/
  iter    : Nat
  cond    : Nat
  flag    : Nat
  action  : Nat
  chmask  : Nat
  /-- Address of the MATCH instruction. -/
  here    : Nat
  /-- MATCH: frame number that strobes name. -/
  id      : Nat
  /-- MATCH: per iteration, strobes counted on, done, failed, the last counted instant and whether the iteration is closed. -/
  iters   : Tab (Nat × Nat × Nat × Nat × Bool)
deriving DecidableEq, Repr

/-- A lookahead buffer line (08 R194): its 64 bytes as a number, the response code of its fetch, a late tag failure. -/
structure BufLine where
  data  : Nat
  resp  : Nat
  taint : Bool
  used  : Bool
  /-- Kept resident with a pinned loop body (R195). -/
  keep  : Bool
  /-- Stamps of the first and last vectors drawn from it. -/
  first : Nat
  last  : Nat
deriving DecidableEq, Repr

/-- A streamer beside its registers (08). -/
structure Streamer where
  stack    : List StrFrame := []
  nextId   : Nat := 0
  /-- Vectors of the current VEC still to present, and the address of the next one. -/
  left     : Nat := 0
  vaddr    : Nat := 0
  /-- Timing set to take from the next vector on (R193). -/
  ts       : Nat := 0
  /-- Buffer lines by address. -/
  lines    : Tab (Option BufLine) := []
  fetching : List Nat := []
  /-- Consecutive instructions without a vector (Table 8.9 SPIN). -/
  idle     : Nat := 0
  /-- STR_CTRL in force for the leg: pin_loops and alt_prefetch (R209). -/
  ctrl     : Nat := 1
deriving DecidableEq, Repr

/-- A beat in an APG port's queue (08 Table 8.8), with the instant of its push edge and the vectors already given up. -/
structure Beat where
  sym    : Nat
  count  : Nat
  ts     : Nat
  base   : Nat
  last   : Bool
  void   : Bool
  poison : Bool
  edge   : Nat
  taken  : Nat
deriving DecidableEq, Repr

/-- A result or LEG record in the fail log's intake queue (09 R213). `kind` 0 a result, 1 leg start, 2 leg end. -/
structure FlItem where
  kind   : Nat
  stamp  : Nat
  /-- Global channel of a result; global pin group of a LEG record. -/
  chan   : Nat
  mode   : Nat
  expect : Nat := 0
  cmph   : Nat := 0
  ts     : Nat := 0
  vec    : Nat := 0
  leg    : Nat := 0
  apg    : Option Nat := none
  window : Bool := false
  slot   : Nat := 0
  stale  : Bool := false
  taint  : Bool := false
  oot    : Bool := false
  line   : Option (Nat × Nat) := none
  hold   : Nat := 0
  launch : Nat := 0
deriving DecidableEq, Repr

/-- A dirty bitmap line (09 R221): pin group, insertion instant, stamp of the first update, taint, harvest asked for. -/
structure DirtyLine where
  line  : Nat
  g     : Nat
  since : Nat
  first : Nat
  taint : Bool
  due   : Bool
deriving DecidableEq, Repr

/-- A harvest read outstanding (09 R222), with the attempts made. -/
structure Harvest where
  line  : DirtyLine
  tries : Nat
deriving DecidableEq, Repr

/-- The overflow interval (09 R226): first and last stamp, results and bitmap updates dropped, its causes as bits of Table
9.3 (1 LEVEL, 2 RATE, 4 STALL_MISS, 8 WRITE), and those that have not ended. -/
structure Interval where
  first  : Nat
  last   : Nat
  drops  : Nat
  bm     : Nat
  causes : Nat
  live   : Nat
deriving DecidableEq, Repr

/-- A fail log beside its registers (09). -/
structure FailLog where
  intake   : List FlItem := []
  dirty    : List DirtyLine := []
  /-- OR-writes not answered: word address, mask, the results that make it up (R220). -/
  ors      : List (Nat × Nat × List FlItem) := []
  /-- Records emitted and not yet written, oldest first; the write of the first is outstanding. -/
  records  : List (List Nat) := []
  /-- Attempts made for the first record (R227). -/
  tries    : Nat := 0
  harvests : List Harvest := []
  interval : Option Interval := none
  /-- When the present back-pressure started. -/
  bpSince  : Nat := 0
  /-- Post-mark results discarded and the stamp of the last (R231). -/
  postCnt  : Nat := 0
  postLast : Nat := 0
  /-- The seal in progress (Table 9.7): its mark, flags, level at the mark, and whether its SEAL record is emitted. -/
  atSeal   : Option (Nat × Nat × Nat × Bool) := none
  /-- A forced drain is asked for and not begun (15 R360). -/
  forced   : Bool := false
deriving DecidableEq, Repr

/-- A word of a cluster's local memory (10 R235): data, cells upset since it was written, poison. -/
structure LmWord where
  data   : Nat := 0
  flips  : Nat := 0
  poison : Bool := false
deriving DecidableEq, Repr

/-- A beat of a cluster's fabric queues (R245): 512 bits of lanes, a poison bit per lane, taint. -/
structure ClBeat where
  lanes  : Nat
  poison : Nat
  taint  : Bool
deriving DecidableEq, Repr

/-- A local-memory write on its way (Table 10.3): slot it is first seen in, word, bits it sets, their values, poison,
whether a HIST made it. -/
structure LmWrite where
  due    : Nat
  word   : Nat
  mask   : Nat
  data   : Nat
  poison : Bool
  hist   : Bool
deriving DecidableEq, Repr

/-- A transfer in flight (R246): direction, DRAM and local byte addresses, lines, lines answered, first non-OK response. -/
structure Transfer where
  toDram : Bool
  dram   : Nat
  loc    : Nat
  lines  : Nat
  got    : List Nat
  bad    : Option Nat
deriving DecidableEq, Repr

/-- A cluster beside its registers (10). -/
structure Cluster where
  /-- Handler mode (R250). -/
  handler  : Bool := false
  /-- Instruction slots issued. -/
  slot     : Nat := 0
  /-- Branches on their way: slot they are fetched in, target (R241). -/
  redirs   : List (Nat × Nat) := []
  /-- Scalar writes on their way: slot first seen in, register, value (R241). -/
  xw       : List (Nat × Nat × Nat) := []
  lw       : List LmWrite := []
  /-- Local memory by 64-bit word. -/
  lm       : Tab LmWord := []
  /-- Microcode shadow. -/
  ucode    : Tab Nat := []
  inq      : List ClBeat := []
  outq     : List ClBeat := []
  xfer     : Option Transfer := none
  /-- Result code of the last transfer. -/
  result   : Nat := 0
  /-- Lines the engine has read, with the stamp at which each reached local memory (R246). -/
  read     : Tab Nat := []
  /-- Levels of the region interrupt lines as last sampled. -/
  irqLines : Nat := 0
  /-- A halt is asked for (R252, 25 R537). -/
  haltReq  : Bool := false
deriving DecidableEq, Repr



/-- A request at a DRAM controller (11 Table 11.3): requester and its request number, kind (0 READ, 1 WRITE, 2 PARTIAL,
3 OR_WRITE), line address, the payload placed in the line (for an OR_WRITE the mask), byte enables, whether the payload came
flagged poisoned, the urgent mark (R269), and the requests merged into it (R266). -/
structure DReq where
  who    : Agent
  id     : Nat
  kind   : Nat
  addr   : Nat
  data   : Nat
  be     : Nat
  bad    : Bool
  urgent : Bool
  more   : List (Agent × Nat)
deriving DecidableEq, Repr

/-- A protected request waiting for its tag (13 R309, R310); `fwd` the record stamp F of a speculative forward. -/
structure DTag where
  req : DReq
  fwd : Option Nat
deriving DecidableEq, Repr

/-- An entry of a controller's error log (12 R292): kind 0 UE, 1 POISON_WRITE, 2 HARD. -/
structure EccLog where
  addr    : Nat
  symbols : Nat
  kind    : Nat
  patrol  : Bool
  channel : Nat
  slot    : Nat
  stamp   : Nat
deriving DecidableEq, Repr

/-- A set-point change or training on its way (11 R275 to R279): the set points still to train, first the present one; the
step of Table 11.6 (2 to 5) and the failures of this step; its start; and whether a retrain made it. -/
structure Training where
  todo  : List Nat
  step  : Nat
  fails : Nat
  start : Nat
deriving DecidableEq, Repr

/-- A DRAM controller beside its registers (11, 12). Banks are numbered channel * 32 + bank. -/
structure DCtl where
  queues : Tab (List DReq) := []
  /-- Open row of each bank. -/
  rows   : Tab (Option Nat) := []
  /-- Requests to the open row served ahead of an older request to another row (R267). -/
  ahead  : Tab Nat := []
  /-- Bank of each channel activated last (R267). -/
  last   : Tab Nat := []
  /-- Requests waiting at the junction, oldest first (R267, R275, R571). -/
  gate   : List DReq := []
  /-- Requests served by their bank that wait for their check bytes, oldest first (R263). -/
  ring   : List DReq := []
  verify : List DTag := []
  /-- Check-line cache, channel * 2^28 + slot of each line it holds, and whether it is dirty (R263). -/
  cache  : List (Nat × Bool) := []
  log    : List EccLog := []
  /-- Lines waiting for their write-back (12 R289). -/
  fixes  : List Nat := []
  /-- Next slot of each channel the patrol visits, 2^28 once its lap is done (12 R295, R297). -/
  pos    : Tab Nat := []
  lines  : Nat := 0
  lapAt  : Nat := 0
  /-- Next pair of banks to refresh and intervals postponed, by channel * 2 + rank (R271). -/
  pair   : Tab Nat := []
  owed   : Tab Nat := []
  train  : Option Training := none
  /-- Set point a deferred or running switch goes to (R278, R279). -/
  want   : Option Nat := none
  /-- Die temperature at the last training of each set point (R276). -/
  temps  : Tab Int := []
  /-- A low-power entry in progress: the state it leads to, and whether its entry command is issued (R274). -/
  entry  : Option (Nat × Bool) := none
  /-- Banks with a spare row, as the devices report (R280). -/
  spares : List Nat := []
  /-- A request cancelled the last low-power entry: the power-state request is refused back to Signpost (R274). -/
  refuse : Bool := false
deriving DecidableEq, Repr

/-- How the bytes of a window of tile DRAM are stored (13 R304, R306): `kind` 0 plain, 1 encrypted under a key with KID `kid`
and write counter `bias` above the line's own, 2 the metadata of a range that was turned off. -/
structure Layer where
  lo   : Nat
  hi   : Nat
  kind : Nat
  key  : Nat
  kid  : Nat
  bias : Nat
deriving DecidableEq, Repr

/-- A protected range beside its registers (13 R307, R308): counters of its nodes and roots, by level * 2^40 + node; nodes
changed since their last write-back; poisoned nodes, level and number. -/
structure PRange where
  nodes    : Tab Nat := []
  dirty    : List (Nat × Nat) := []
  poisoned : List (Nat × Nat) := []
  /-- A commit turns it off, with these staged values, once its accepted requests have completed (R317). -/
  closing  : Option (Tab Nat) := none
deriving DecidableEq, Repr

/-- An alarm-log entry (13 R319): kind 0 TAG, 1 NODE_TAG, 2 NODE_UE, 3 ROOT_UE, 4 MAP, 5 EXHAUSTED. -/
structure PrLog where
  addr  : Nat
  range : Nat
  kind  : Nat
  level : Nat
  stamp : Nat
deriving DecidableEq, Repr

/-- The DRAM subsystem (11 to 13). The DRAM bytes themselves stand in the machine's memory, a protected line as its plaintext
(R304: what is stored is that plaintext XOR the keystream of its key and counter). -/
structure Dram where
  /-- Difference of a line's stored check bytes from the check bytes of its stored data, by line number: check byte k in
  bits 8k to 8k + 7; 0 in a clean line (12 R285). -/
  dev     : Tab Nat := []
  /-- Write counter of each line of a protected range (13 R304). -/
  ctr     : Tab Nat := []
  /-- Lines written as plain DRAM since the newest layer over them (13 R317). -/
  solid   : Tab Bool := []
  /-- Newest first. -/
  layers  : List Layer := []
  /-- Extent map in force: mode plus twice the grain code (R258, R261). -/
  maps    : Tab Nat := []
  /-- Extents an apply is filling. -/
  applying : List Nat := []
  ctls    : Tab DCtl := []
  prs     : Tab PRange := []
  prLog   : List PrLog := []
  /-- Keys generated so far, and the key each KID slot holds (13 R314). -/
  keys    : Nat := 0
  slotKey : Tab Nat := []
deriving DecidableEq, Repr



/-- A junction beside its registers (14): packets held during a swap, ports that have not taken the shadow settings, requests
of its local ports without a response (port, tag, target), failed replays of the flit on each link, and for an attach junction
whether its link to the hub is down. -/
structure Junction where
  held    : List (Line × List Flit) := []
  waiting : List Nat := []
  open_   : List (Nat × Nat × Nat) := []
  fails   : Tab Nat := []
  hubDown : Bool := false
deriving DecidableEq, Repr



/-- A descriptor (15 Table 15.3): word 0x14 and the shuffle parameters as they stand. -/
structure Desc where
  src    : Nat
  dst    : Nat
  len    : Nat
  word   : Nat
  params : Nat
  cookie : Nat
  own    : Bool
deriving DecidableEq, Repr

/-- A request of an executing descriptor without an answer: a tile READ of a line (bytes to skip, bytes to keep), a tile write
(its line), a host read (bytes). -/
inductive DmaReq where
  | read (line skip n : Nat) | write (line : Nat) | host (n : Nat)
deriving DecidableEq, Repr

/-- A descriptor being executed or not yet written back (15 R354): its entry, the next unit of work, the bytes read for it, its
requests, whether host data came with EP, bytes delivered, the position of a FAIL descriptor, its status once it has ended. -/
structure DmaRun where
  entry  : Nat
  /-- Host address of its entry. -/
  addr   : Nat
  desc   : Desc
  unit   : Nat
  got    : List Nat
  wait   : List DmaReq
  ep     : Bool
  bytes  : Nat
  pos    : Nat
  /-- FAIL: bytes it copies; else its length. -/
  total  : Nat
  status : Option Nat
  /-- Record stamp of its end. -/
  stamp  : Nat
  /-- Its ring was disabled and enabled again while it executed (15 R350). -/
  stale  : Bool := false
deriving DecidableEq, Repr

/-- A ring beside its registers (15 R349 to R354, R359, 16 R375). -/
structure Ring where
  /-- Next entry to fetch. -/
  fetch   : Nat := 0
  /-- Descriptors fetched and not started, with their entries. -/
  ready   : List (Nat × Desc) := []
  runs    : List DmaRun := []
  /-- Stopped at an entry it does not own (R353). -/
  stopped : Bool := false
  /-- FAIL descriptors written back and not released: entry, quarter, fail-log byte count of their end, whether they ended OK. -/
  fails   : List (Nat × Nat × Nat × Bool) := []
  /-- Holdoff (R359): 0 none, 1 running, 2 running with completions merged. -/
  hold    : Nat := 0
  /-- EVENT ring: the open buffer: entry, descriptor, records written, sequence number of the first. -/
  buf     : Option (Nat × Desc × Nat × Nat) := none
deriving DecidableEq, Repr

/-- A DMA channel beside its registers (15 R357 to R363). -/
structure DmaCh where
  /-- Ring of the channel served last. -/
  rr       : Nat := 3
  /-- Quarters whose drain is under way. -/
  draining : List Nat := []
  /-- Quarters whose undelivered fail data has waited DMA_PACE_WAIT since it last became non-zero (R360). -/
  aged     : List Nat := []
  /-- en was cleared while descriptors executed. -/
  stopping : Bool := false
  /-- Rings whose head FAIL descriptor waits for its drain (R360). -/
  waits    : List Nat := []
  /-- Quarter of the FAIL descriptor that halted the channel. -/
  failQ    : Option Nat := none
  t2       : Option DmaRun := none
deriving DecidableEq, Repr

/-- The PCIe function beside its registers (15): host requests waiting for Bus Master Enable, BAR2 reads without an answer
(identifier, address, length), MSI-X Enable and Function Mask. -/
structure HostIf where
  held     : List Out := []
  reads    : List (Nat × Nat × Nat) := []
  msixEn   : Bool := false
  funcMask : Bool := false
deriving DecidableEq, Repr



/-- The event router beside its registers (16): records waiting, with their rings; the standby queue of DORMANT and SEALED;
records lost since the last one written; copies dropped since the last one sent. -/
structure Router where
  queue   : List (Nat × EvRec) := []
  standby : List (Nat × EvRec) := []
  lost    : Bool := false
  dropped : Bool := false
deriving DecidableEq, Repr


/-- A Waystation message (19 R424): its words not yet read, the sender's kind, number and reset epoch, the receiver's reset
epoch at posting; the doorbell bits it still carries on its way to a trunk (R435). -/
structure WsMsg where
  words : List Nat
  kind  : Nat
  num   : Nat
  epoch : Nat
  /-- Reset epoch of the sending end at posting. -/
  tx    : Nat
  rx    : Nat
  bells : Nat
deriving DecidableEq, Repr

/-- A Waystation beside its registers (19): its queues by receiving end (0 is BA, read at A; 1 is AB), the open messages by
sending end, broken ones, the lock's owner, and the trunk credits held and granted (R435). -/
structure Waystation where
  queues  : Tab (List WsMsg) := []
  opens   : Tab (List Nat) := []
  owner   : Option (Nat × Nat) := none
  credits : Nat := 0
  granted : Nat := 0
deriving DecidableEq, Repr


/-- A load on a configuration port (20 R445 to R453), kept under the number of its quarter, a FULL load under 4: what
CFG_EXPECT and CFG_SRC named, when it started; states of its regions before it; its header once accepted; the Kerb words of
chunk 0; the clamp instant; the next chunk; frame addresses written; BMEM frames flagged as contents; all chunks done; firmware's
load of the boot image (20 R456). -/
structure CfgLoad where
  full    : Bool
  region  : Nat
  slot    : Option Nat
  start   : Nat
  was     : List (Nat × Nat)
  header  : Option ImgHeader
  kerbs   : Option (List (Nat × List Nat))
  clamp   : Option Nat
  chunk   : Nat
  written : List Nat
  contents : Tab Nat
  flagged : List Nat
  done    : Bool
  boot    : Bool
deriving DecidableEq, Repr

/-- A readback on a port (20 R454): region, first index, count. -/
structure CfgRead where
  region : Nat
  first  : Nat
  count  : Nat
deriving DecidableEq, Repr

/-- The configuration controller beside its registers (20). -/
structure Cfg where
  loads : Tab (Option CfgLoad) := []
  reads : Tab (Option CfgRead) := []
deriving DecidableEq, Repr

/-- The Sweeper beside its registers (21): next position of each quarter in its lap (region of the quarter times 4096 plus
index), frames visited in it, quarters that have finished; sweeping time of the lap before its last start, and that start;
frames waiting for a reload, whether found by a correction that breaks R122; watchdog expiries in a row. -/
structure Sweeper where
  pos     : Tab Nat := []
  seen    : Tab Nat := []
  done    : List Nat := []
  base    : Nat := 0
  since   : Nat := 0
  reload  : List (Nat × Nat) := []
  expired : Nat := 0
deriving DecidableEq, Repr

/-- An entry of the BIST log (21 Table 21.4). -/
structure BistEntry where
  unit   : Nat
  number : Nat
  addr   : Nat
  bit    : Nat
  repair : Nat
  slice  : Bool
deriving DecidableEq, Repr

/-- The BIST controller beside its registers (21): target of the slice test running (kind, index); next target of the round
robin, regions 0, clusters 64, groups 576 on; the log; entries of it that BIST_CMD.ppr_apply still has to repair, the first
under way. -/
structure Bist where
  run  : Option (Nat × Nat) := none
  next : Nat := 0
  log  : List BistEntry := []
  ppr  : List Nat := []
deriving DecidableEq, Repr

/-- Odometer beside its registers (24): full stamp of each quarter's last measurement; quarters whose measurement is due at once;
code and equivalent age the store flash holds for each quarter (R520). -/
structure Odometer where
  last   : Tab Nat := []
  due    : List Nat := []
  stored : Tab (Option (Nat × Nat)) := []
deriving DecidableEq, Repr


/-- How a Twivel access ended (25 R530, Table 25.2): with data, or in a FAULT with its cause and the response a TARGET fault holds. -/
inductive TwvEnd where
  | ok (data : Nat)
  | fault (cause : Nat) (resp : Option Nat)
deriving DecidableEq, Repr
/-- An access of the Twivel port that is held (25 R530): op, byte address, data of a write, what its outcome will be once it is known,
and whether a protocol reset has given the outcome up (R531). -/
structure TwvHeld where
  op   : Nat
  addr : Nat
  data : Nat := 0
  done : Option TwvEnd := none
  drop : Bool := false
deriving DecidableEq, Repr

/-- The debug block beside its registers (25): the held access; trace entries (op, ack, address, stamp) by ring place; the time the
watchdog had left, in MT, and the instant it had it; the instant of the halt; clusters the debugger has asked to halt. -/
structure Debug where
  held    : Option TwvHeld := none
  trace   : Tab (Option (Nat × Nat × Nat × Nat)) := []
  wdgLeft : Nat := 1024000000000
  wdgAt   : Nat := 0
  haltAt  : Nat := 0
  cls     : List Nat := []
deriving DecidableEq, Repr


/-- A CSR access that waits for the wake of its quarter, or of the tile (23 R500, 14 R339): requester, address, the value of a write,
and what actions it starts take from outside. -/
structure CsrWait where
  src  : Src
  addr : Nat
  data : Option Nat
  env  : CsrEnv
deriving DecidableEq, Repr

/-- The CSR endpoints beside the registers (00 R15, 02 R65): words of values of several words written and not applied, by address; the
captures of each source, by source times 2^26 plus address; accesses that wait. -/
structure Csr where
  held    : Tab (Option Nat) := []
  caps    : Tab (Option Nat) := []
  waiting : List CsrWait := []
deriving DecidableEq, Repr


/-- The tile: everything the manual gives it beside the contents of its DRAM. -/
structure Chip where
  /-- Register fields that differ from their reset value (not the staged ones). -/
  regs     : Tab Nat := []
  /-- Active values of staged fields (03 R82). -/
  active   : Tab Nat := []
  /-- Staged values of staged fields (03 R82). -/
  staged   : Tab Nat := []
  /-- What the block has driven to the outside, oldest first. -/
  out      : List Out := []
  /-- Events raised and not yet at the router, oldest first (16 R372). -/
  inflight : List Raised := []
  mp       : Milepost := {}
  lq       : Launch := {}
  quarters : Tab Quarter := []
  regions  : Tab Region := []
  blocks   : Tab BmBlock := []
  groups   : Tab PinGroup := []
  streams  : Tab Streamer := []
  apgs     : Tab (List Beat) := []
  logs     : Tab FailLog := []
  clusters : Tab Cluster := []
  ways     : Tab Waystation := []
  /-- Regions marked faulted in the current batch (04 R126, 03 Table 3.8). -/
  marks    : List Nat := []
  /-- Free values used so far: the model's own count of open values (not the manual's). -/
  free     : Nat := 0
  dram     : Dram := {}
  juncs    : Tab Junction := []
  rings    : Tab Ring := []
  dmas     : Tab DmaCh := []
  host     : HostIf := {}
  router   : Router := {}
  pwr      : Power := {}
  trk      : Tab TrkPort := []
  hy       : Hier := {}
  cw       : Causeway := {}
  sec      : Security := {}
  cfg      : Cfg := {}
  sw       : Sweeper := {}
  bist     : Bist := {}
  od       : Odometer := {}
  dbg      : Debug := {}
  csr      : Csr := {}
deriving DecidableEq, Repr


/-- The machine: the tile, its DRAM bytes (02 R30; an unlisted byte reads 0, 11 R571) and the commands waiting, first in,
first out. -/
structure State where
  chip    : Chip := {}
  mem     : List Host.Cell := []
  pending : List Sys2Proof.Instr := []
deriving DecidableEq, Repr

/-- The tile right after power-on reset: every register field at its reset value (00 R10), every block at the state the
manual gives it, memory with nothing listed, no command waiting. -/
def State.reset : State := {}

end Sys2Proof.Machine
end

