-- ==== Sys2Proof/Machine/Ops.lean ====
section
/-! DEFINITION. The named operations over the register file, the staged copies, events and outputs. Every block reads and
writes its registers through these and through nothing else. -/

namespace Sys2Proof.Machine

/-- The outcome of a command. -/
abbrev Res := Host.Outcome State Fault Refusal

/-- A command that acts on the tile and on neither its DRAM nor the queue. -/
def State.on (s : State) (f : Chip → Chip) : Res := .next { s with chip := f s.chip }

/-- The value of a register field. -/
def Chip.fld (c : Chip) (f : Fld) : Nat := Tab.get f.reset c.regs f.key % 2 ^ f.width
/-- Set a register field; only the bits the field has are kept. -/
def Chip.put (c : Chip) (f : Fld) (v : Nat) : Chip :=
  { c with regs := Tab.set f.reset c.regs f.key (v % 2 ^ f.width) }
/-- A one-bit field as a truth value. -/
def Chip.flag (c : Chip) (f : Fld) : Bool := c.fld f = 1
/-- Set a one-bit field. -/
def Chip.putB (c : Chip) (f : Fld) (b : Bool) : Chip := c.put f (ofBool b)
/-- The active (committed) value of a staged field: what a read returns (00 R11, 03 R82). -/
def Chip.act (c : Chip) (f : Fld) : Nat := Tab.get f.reset c.active f.key % 2 ^ f.width
/-- Set the active value of a staged field. -/
def Chip.putAct (c : Chip) (f : Fld) (v : Nat) : Chip :=
  { c with active := Tab.set f.reset c.active f.key (v % 2 ^ f.width) }
/-- The staged value of a staged field. -/
def Chip.stg (c : Chip) (f : Fld) : Nat := Tab.get f.reset c.staged f.key % 2 ^ f.width
/-- Set the staged value of a staged field. -/
def Chip.putStg (c : Chip) (f : Fld) (v : Nat) : Chip :=
  { c with staged := Tab.set f.reset c.staged f.key (v % 2 ^ f.width) }

/-- A field read as a signed number. -/
def Chip.fldS (c : Chip) (f : Fld) : Int := signedOf f.width (c.fld f)
/-- A signed number put in a field, saturating. -/
def Chip.putS (c : Chip) (f : Fld) (v : Int) : Chip := c.put f (patternOf f.width (clampS f.width v))
/-- A value of two words: its low word field and its high word field (00 R15). -/
def Chip.fld2 (c : Chip) (lo hi : Fld) : Nat := c.fld lo + 2 ^ 32 * c.fld hi
/-- Set a value of two words. -/
def Chip.put2 (c : Chip) (lo hi : Fld) (v : Nat) : Chip := (c.put lo v).put hi (v / 2 ^ 32)
/-- A value of three words (02 R65). -/
def Chip.fld3 (c : Chip) (lo hi top : Fld) : Nat := c.fld lo + 2 ^ 32 * c.fld hi + 2 ^ 64 * c.fld top
/-- Set a value of three words. -/
def Chip.put3 (c : Chip) (lo hi top : Fld) (v : Nat) : Chip := ((c.put lo v).put hi (v / 2 ^ 32)).put top (v / 2 ^ 64)

/-- Count up by `n`; a counter of a register saturates at all ones. -/
def Chip.addSat (c : Chip) (f : Fld) (n : Nat) : Chip := c.put f (satN f.width (c.fld f + n))
/-- Count up by one, saturating. -/
def Chip.incSat (c : Chip) (f : Fld) : Chip := c.addSat f 1
/-- Count up by one, wrapping. -/
def Chip.incWrap (c : Chip) (f : Fld) : Chip := c.put f (c.fld f + 1)

/-- The Milepost counter: the full stamp of this instant (02 R37). -/
def Chip.now (c : Chip) : Nat := c.mp.counter
/-- The record stamp of a full stamp: its bits 55 to 0 (02 R37). -/
def recStamp (t : Nat) : Nat := t % 2 ^ 56

/-- Drive something to the outside. -/
def Chip.emit (c : Chip) (o : Out) : Chip := { c with out := c.out ++ [o] }
/-- Raise an event with its cause code and what its record carries (16 R371, R372), stamped at this instant. -/
def Chip.raise (c : Chip) (num cause : Nat) (payload : List Nat) : Chip :=
  { c with inflight := c.inflight ++ [⟨num, cause, recStamp c.now, payload⟩] }
/-- Raise an event whose stamp is another instant. -/
def Chip.raiseAt (c : Chip) (num cause t : Nat) (payload : List Nat) : Chip :=
  { c with inflight := c.inflight ++ [⟨num, cause, recStamp t, payload⟩] }

/-- Do `f` when `b` holds. -/
def Chip.doIf (c : Chip) (b : Bool) (f : Chip → Chip) : Chip := if b then f c else c
/-- Do `f` for every element of a list, in order. -/
def Chip.each {α : Type} (c : Chip) (l : List α) (f : Chip → α → Chip) : Chip := l.foldl f c

/-- The bits of `v` a field takes on a register write. -/
def Fld.of (f : Fld) (v : Nat) : Nat := bits v f.lo f.width

/-- Number of the first element that holds, counted from `i`. -/
def indexFrom {α : Type} (p : α → Bool) : List α → Nat → Option Nat
  | [], _ => none
  | a :: l, i => if p a then some i else indexFrom p l (i + 1)

/-- The numbers below `n` that hold, lowest first. -/
def numbersBelow (n : Nat) (p : Nat → Bool) : List Nat := (List.range n).filter p
/-- The word whose bit `i` is set for every `i` of the list. -/
def maskOf (l : List Nat) : Nat := l.foldl (fun m i => m ||| 2 ^ i) 0
/-- `n` with bit `i` set or cleared. -/
def withBit (n i : Nat) (b : Bool) : Nat := if b then n ||| 2 ^ i else if bit n i then n - 2 ^ i else n

/-- A word of a value of several words is held until the value's last word is written (00 R15, 02 R65). -/
def Chip.hold (c : Chip) (a v : Nat) : Chip := { c with csr := { c.csr with held := Tab.set none c.csr.held a (some (v % 2 ^ 32)) } }
/-- The word held at an address, its reset value where none has been written since reset. -/
def Chip.heldWord (c : Chip) (a reset : Nat) : Nat := (Tab.get none c.csr.held a).getD reset

/-- Words held and captures of the addresses from `lo` up to `hi` are forgotten (00 R15: until a reset). -/
def Chip.csrForget (c : Chip) (lo hi : Nat) : Chip :=
  let out (k : Nat) : Bool := decide (k % 2 ^ 26 < lo) || decide (hi ≤ k % 2 ^ 26)
  { c with csr := { c.csr with held := c.csr.held.filter fun e => out e.1, caps := c.csr.caps.filter fun e => out e.1 } }

/-- The tile manages its hierarchy (17 R394). -/
def Chip.isManager (c : Chip) : Bool := c.flag HY_CTRL.manager
/-- Quarter `q` is reported offline by the identity block (01 R34). -/
def Chip.offline (c : Chip) (q : Nat) : Bool := bit (c.fld ID_QUARTERS.offline) q
/-- Signpost state of quarter `q`: 0 RUN, 1 IDLE, 2 STANDBY (23 R497). -/
def Chip.qstate (c : Chip) (q : Nat) : Nat := bits (c.fld PWR_STATUS.qstate) (2 * q) 2
/-- The tile is neither DORMANT nor SEALED. -/
def Chip.tileUp (c : Chip) : Bool := c.fld PWR_STATUS.state < 3
/-- Quarter `q` is in RUN: out of reset, not offline, with its state and the tile's above IDLE (23 R497). -/
def Chip.quarterRun (c : Chip) (q : Nat) : Bool :=
  c.tileUp && c.qstate q = 0 && c.flag (QC_STATUS.ready q) && !c.offline q

/-- GCK `g` of quarter `q` runs (05 R132 to R134, R136): enabled, not stopped, its source running, the quarter in RUN. -/
def Chip.gckRuns (c : Chip) (q g : Nat) : Bool :=
  let src := c.fld (QC_GCK_SEL.src q g)
  c.quarterRun q && !bit (c.fld (QC_STATUS.gck_stopped q)) g &&
    (decide (src = 5) || (decide (1 ≤ src ∧ src ≤ 4) && bit (c.fld (QC_STATUS.locked q)) (src - 1)))

/-- Every register field from address `a` up to `b` takes its reset value. -/
def Chip.resetRange (c : Chip) (a b : Nat) : Chip :=
  { c with regs := c.regs.filter fun e => !(decide (a * 8 ≤ e.1) && decide (e.1 < b * 8)) }

/-- DRAM low-power entries that Signpost has begun on the controllers `p` are reversed (23 R500). -/
def Chip.dropEntries (c : Chip) (p : Nat → Bool) : Chip :=
  c.each (c.dram.ctls.map (·.1)) fun c k =>
    let d := Tab.get {} c.dram.ctls k
    match d.entry with
    | some (st, cmd) =>
      if st = 3 ∨ !p k then c
      else
        let c := { c with dram := { c.dram with ctls := Tab.set {} c.dram.ctls k { d with entry := none } } }
        if cmd then c.put (DMC_STATUS.state k) 2 else c
    | none => c

/-- An entry to DORMANT or SEALED in progress is reversed: the local ports open again (23 R500). -/
def Chip.reverseEntry (c : Chip) : Chip :=
  if c.pwr.entering.isNone then c
  else
    let c := ({ c with pwr := { c.pwr with entering := none } }).dropEntries fun _ => true
    let here := (List.range 4).filter fun q => !c.offline q
    let c := c.each here fun c q => (List.range 64).foldl (fun c i => c.put (NOC_JSTATUS.lstate (64 * q + i)) 0) c
    let c := c.each (List.range 4) fun c h => c.put (NOC_JSTATUS.lstate (256 + h)) 0
    c.each (0 :: here.map (· + 1)) fun c d =>
      let w := c.fld NOC_DOM_STATUS.dom
      (c.put NOC_DOM_STATUS.dom (w - bits w (2 * d) 2 * 2 ^ (2 * d))).raise 12 5 [d, recStamp c.now]

/-- The wake of a domain starts, with its cause (23 R500): 0 to 3 a quarter, 4 the tile. A domain in RUN has none, but an entry
in progress is reversed; a wake of the tile that meets a seal follows it; SEALED holds while a seal's cause does (R505, R511, R512). -/
def Chip.startWake (c : Chip) (dom cause : Nat) : Chip :=
  let wake (c : Chip) (d : Nat) : Chip :=
    let c := c.put PWR_STATUS.wake_cause cause
    if c.pwr.waking.contains d then c else { c with pwr := { c.pwr with waking := c.pwr.waking ++ [d] } }
  if c.pwr.sealing.isSome then (if 4 ≤ dom then wake c 4 else c)
  else if c.tileUp then
    let c := c.reverseEntry
    if 4 ≤ dom then c
    else if c.qstate dom = 0 then c.dropEntries fun k => k / 9 = dom
    else wake (c.dropEntries fun k => k / 9 = dom) dom
  else if c.fld PWR_STATUS.state = 4 ∧ !c.pwr.shut.isEmpty then c
  else wake c 4

/-- Quarter `q` had a request at its ports or a leg until now (23 R498). -/
def Chip.stir (c : Chip) (q : Nat) : Chip := { c with pwr := { c.pwr with busyAt := Tab.set 0 c.pwr.busyAt q c.now } }

/-- An Odometer measurement of quarter `q` in progress is abandoned without result and retried at the next window (24 R517). -/
def Chip.odAbandon (c : Chip) (q : Nat) : Chip :=
  if bit (c.fld OD_STATUS.measuring) q then
    let c := c.put OD_STATUS.measuring (withBit (c.fld OD_STATUS.measuring) q false)
    { c with od := { c.od with due := if c.od.due.contains q then c.od.due else c.od.due ++ [q] } }
  else c

end Sys2Proof.Machine
end

