-- ==== Sys2Proof/Machine/Flags.lean ====
section
/-! DEFINITION. Status and error bits: setting an error bit, the event that goes with its change from 0 to 1, and the
writes that clear or set bits (00 R11). -/

namespace Sys2Proof.Machine

/-- Set an error bit. -/
def Chip.setErr (c : Chip) (f : Fld) : Chip := c.put f 1
/-- Set an error bit and raise its event when the bit changes from 0 to 1 (00 R11, 16 R372). -/
def Chip.errEvt (c : Chip) (f : Fld) (num cause : Nat) (payload : List Nat) : Chip :=
  if c.flag f then c else (c.put f 1).raise num cause payload
/-- A W1C write of `v`: each 1 bit clears that bit (00 R11). -/
def Chip.w1c (c : Chip) (f : Fld) (v : Nat) : Chip := c.put f (c.fld f - (c.fld f &&& f.of v))
/-- A W1S write of `v`: each 1 bit sets that bit (00 R11). -/
def Chip.w1s (c : Chip) (f : Fld) (v : Nat) : Chip := c.put f (c.fld f ||| f.of v)
/-- An RC read leaves the field at zero (00 R11). -/
def Chip.readClear (c : Chip) (f : Fld) : Chip := c.put f 0
/-- A write of a field with a legal code takes it; a reserved code keeps the previous value and sets the block's error
bit (00 R13). -/
def Chip.putLegal (c : Chip) (f bad : Fld) (legal : Bool) (v : Nat) : Chip :=
  if legal then c.put f v else c.put bad 1

end Sys2Proof.Machine
end

