-- ==== Sys2Proof/Machine/Link.lean ====
section
/-! DEFINITION. The message service of a trunk link (17 R389 to R391, R399): timed messages, reliable go-back-N delivery,
forwarding to downstream ports, holding messages for an ASLEEP peer. -/

namespace Sys2Proof.Machine

/-- Port `u`. -/
def Chip.port (c : Chip) (u : Nat) : TrkPort := Tab.get {} c.trk u
/-- Replace port `u`. -/
def Chip.setPort (c : Chip) (u : Nat) (p : TrkPort) : Chip := { c with trk := Tab.set {} c.trk u p }
/-- Port `u` is ACTIVE. -/
def Chip.portActive (c : Chip) (u : Nat) : Bool := c.fld (TRK_STATUS.state u) = 4
/-- Acknowledgement port `u` sends: the last reliable message received in order (R389). -/
def TrkPort.ack (p : TrkPort) : Nat := (p.expect + 65535) % 65536

/-- Send a timed message; it is never resent (R391). -/
def Chip.sendTimed (c : Chip) (u : Nat) (k : MsgKind) (fs : List Nat) : Chip := c.emit (.trunk u k 0 (c.port u).ack fs)

/-- Put a reliable message on the wire with the next sequence number when the window has room, else let it wait (R391). -/
def Chip.transmit (c : Chip) (u : Nat) (k : MsgKind) (fs : List Nat) : Chip :=
  let p := c.port u
  if c.portActive u && p.window.length < 64 then
    let m : TMsg := ⟨p.nextSeq, k, fs⟩
    (c.setPort u { p with nextSeq := (p.nextSeq + 1) % 65536, window := p.window ++ [m] }).emit
      (.trunk u k m.seq p.ack fs)
  else c.setPort u { p with waiting := p.waiting ++ [⟨0, k, fs⟩] }

/-- Hold a message for an ASLEEP peer; false when 64 are held already (R399). -/
def Chip.holdFor (c : Chip) (u : Nat) (k : MsgKind) (fs : List Nat) : Chip × Bool :=
  let p := c.port u
  if p.held.length < 64 then
    ((c.setPort u { p with held := p.held ++ [⟨0, k, fs⟩] }).put (TRK_HELD.msgs u) (p.held.length + 1), true)
  else (c, false)

/-- The type byte of a message (17 Table 17.2). -/
def msgCode : MsgKind → Nat
  | .idle => 0x00 | .sync => 0x01 | .delayReq => 0x02 | .followUp => 0x03 | .launch => 0x10 | .cancel => 0x11
  | .report => 0x12 | .eventFwd => 0x20 | .hello => 0x30 | .enrolReq => 0x31 | .enrolGrant => 0x32 | .enrolRefuse => 0x33
  | .quoteReq => 0x34 | .quote => 0x35 | .lost => 0x36 | .sleep => 0x37 | .powerfail => 0x38 | .mailbox => 0x40
  | .control => 0x41 | .testReq => 0x42
/-- The launch identifier a LAUNCH, CANCEL or REPORT carries. -/
def msgId (k : MsgKind) (fs : List Nat) : Nat := if k = .cancel then fs.getD 0 0 else fs.getD 1 0
/-- A launch, cancel or report message is discarded and counted (R391, R399), with the event of Table 17.10. -/
def Chip.dropForward (c : Chip) (u : Nat) (k : MsgKind) (fs : List Nat) : Chip :=
  (c.incSat (TRK_FWD_DROP_CNT.count u)).errEvt (TRK_ERR.fwd_drop u) (160 + u) 9 [msgCode k, msgId k fs]

/-- Send a reliable message that is not a forward: it waits through recovery and training, and is held for an ASLEEP peer, the
65th being discarded (R399). -/
def Chip.sendReliable (c : Chip) (u : Nat) (k : MsgKind) (fs : List Nat) : Chip :=
  if c.fld (TRK_STATUS.state u) = 7 then
    match c.holdFor u k fs with
    | (c', true) => c'
    | (c', false) => c'.dropForward u k fs
  else c.transmit u k fs

/-- R399: forward a LAUNCH or CANCEL to one port. -/
def Chip.forwardTo (c : Chip) (k : MsgKind) (fs : List Nat) (u : Nat) : Chip :=
  if c.portActive u then c.transmit u k fs
  else if c.fld (TRK_STATUS.state u) = 7 then
    match c.holdFor u k fs with
    | (c', true) => c'
    | (c', false) => c'.dropForward u k fs
  else c.dropForward u k fs

/-- The ports that lead downstream to an enrolled peer: DOWN ports and granted alternates of a peer (R399). -/
def Chip.downPorts (c : Chip) : List Nat :=
  (List.range 8).filter fun u => c.fld (TRK_CTRL.role u) = 2 && c.flag (TRK_STATUS.enrolled u)

/-- R399: forward a LAUNCH or CANCEL downstream. -/
def Chip.forwardDown (c : Chip) (k : MsgKind) (fs : List Nat) : Chip := c.each c.downPorts fun c u => c.forwardTo k fs u

/-- The port that leads to the manager, when this tile is enrolled (17 R394, R397). -/
def Chip.upPort (c : Chip) : Option Nat := if c.flag HY_STATUS.enrolled && !c.isManager then some (c.fld HY_STATUS.up) else none
/-- Send a reliable message towards the manager. -/
def Chip.sendUp (c : Chip) (k : MsgKind) (fs : List Nat) : Chip :=
  match c.upPort with
  | some u => c.sendReliable u k fs
  | none => c

/-- Give waiting messages their place in the window while there is room. -/
def Chip.drainWaiting (c : Chip) (u : Nat) : Nat → Chip
  | 0 => c
  | n + 1 =>
    let p := c.port u
    match p.waiting with
    | [] => c
    | m :: ms =>
      if c.portActive u && p.window.length < 64 then
        Chip.drainWaiting ((c.setPort u { p with waiting := ms }).transmit u m.kind m.fields) u n
      else c

/-- An acknowledgement frees the window up to the message it names (R389, R391). -/
def Chip.takeAck (c : Chip) (u ack : Nat) : Chip :=
  let p := c.port u
  match indexFrom (fun m : TMsg => m.seq = ack) p.window 0 with
  | some i => (c.setPort u { p with window := p.window.drop (i + 1) }).drainWaiting u 64
  | none => c

/-- A reliable message arrives (R391): its acknowledgement counts, and it is taken only when it is the next in order. -/
def Chip.receive (c : Chip) (u seq ack : Nat) (f : Chip → Chip) : Chip :=
  if !c.portActive u then c else
  let c := c.takeAck u ack
  let p := c.port u
  if seq = p.expect then f (c.setPort u { p with expect := (p.expect + 1) % 65536 }) else c

end Sys2Proof.Machine
end

