-- ==== Sys2Proof/Machine/Milepost.lean ====
section
/-! DEFINITION. The Milepost timebase (02): the counter and its rate word, the exchange with the upstream tile, the servo,
slews, steps and absorptions, tolerance and holdover. -/

namespace Sys2Proof.Machine

/-- Nominal rate word, 10,240 MT in units of 2^-32 MT (R36). -/
def nominalRate : Nat := 10240 * 2 ^ 32
/-- Rate word of an absorption, one sixteenth of nominal (R38). -/
def absorbRate : Nat := 640 * 2 ^ 32
/-- `ppm` parts per million of nominal, per REF cycle. -/
def ppmRate (ppm : Nat) : Nat := ppm * nominalRate / 1000000

/-- The slew applied in the next REF cycle: slew_limit, or the remainder when less is left (R51). -/
def Chip.slewStep (c : Chip) : Int := clampAbs (ppmRate (c.fld MP_CTRL.slew_limit)) c.mp.slew
/-- The rate word of the next REF cycle (R36, R38): nominal, frequency term and slew, or the absorption's rate; the last
cycle of an absorption loses only what is left. -/
def Chip.rateWord (c : Chip) : Nat :=
  match c.mp.absorb with
  | some a => if a.left = 0 then (nominalRate + c.mp.freq).toNat else nominalRate - min a.left (nominalRate - absorbRate)
  | none => (nominalRate + c.mp.freq + c.slewStep).toNat

/-- MP_SLEW_REMAIN: whole MT still to slew (R51). -/
def Chip.slewRemain (c : Chip) : Int := c.mp.slew.tdiv (2 ^ 32 : Nat)
/-- Move the counter forward by `d` MT; a change of bit 55 raises event 39 with the full stamp (R62). -/
def Chip.advance (c : Chip) (d : Nat) : Chip :=
  let t := (c.mp.counter + d) % 2 ^ 72
  let c' := { c with mp := { c.mp with counter := t } }
  c'.doIf (bit t 55 != bit c.mp.counter 55) (·.raise 39 0 [t])

/-- Upstream or FREE/REFIN state of the servo is not a matter of tolerance on a manager (R43): MP_STATUS.in_tol as read. -/
def Chip.inTol (c : Chip) : Bool := c.isManager || c.flag MP_STATUS.in_tol

/-- MP_STATUS as a word. -/
def Chip.mpStatusWord (c : Chip) : Nat :=
  c.fld MP_STATUS.state + 8 * ofBool c.inTol + 16 * ofBool (decide (c.slewRemain ≠ 0)) + 32 * c.fld MP_STATUS.pending +
    64 * c.fld MP_STATUS.acquired + 256 * c.fld MP_STATUS.hops

/-- Change MP_STATUS.state: event 32 with the old and the new state (Table 2.11); leaving LOCKED starts the holdover
estimate from the last accepted offset and a return to LOCKED resets it (R58); the first LOCKED sets acquired (R54). -/
def Chip.mpState (c : Chip) (st : Nat) : Chip :=
  let old := c.fld MP_STATUS.state
  if old = st then c else
  let c := (c.put MP_STATUS.state st).raise 32 0 [old, st]
  if st = 2 then
    ({ c with mp := { c.mp with holdAcc := 0 } }.put MP_HOLD_EST.est 0).put MP_STATUS.acquired 1
  else if old = 2 then
    { c with mp := { c.mp with holdAcc := c.mp.theta.natAbs * 1000000 } }.put MP_HOLD_EST.est (satN 32 c.mp.theta.natAbs)
  else c

/-- Judge tolerance (R49, R52): LOCKED with the last offset in the limit, or HOLDOVER with the estimate in the limit, and
nothing pending. Leaving raises event 33; regaining raises event 32, which a change of state since `was` has raised already (Table 2.11). -/
def Chip.judgeTolFrom (c : Chip) (was : Nat) : Chip :=
  if c.isManager then c else
  let st := c.fld MP_STATUS.state
  let lim := c.fld MP_ALIGN_LIMIT.limit
  let ok := !c.flag MP_STATUS.pending &&
    ((st = 2 && c.mp.theta.natAbs ≤ lim) || (st = 3 && c.fld MP_HOLD_EST.est ≤ lim))
  if ok = c.flag MP_STATUS.in_tol then c
  else if ok then (c.put MP_STATUS.in_tol 1).doIf (decide (was = st)) (·.raise 32 0 [st, st])
  else
    let c := ((c.put MP_STATUS.in_tol 0).put MP_ERR.out_of_tol 1).raise 33 0
      [if st = 3 then c.fld MP_HOLD_EST.est else c.fld MP_OFFSET.offset]
    { c with lq := { c.lq with batch := { c.lq.batch with outOfTol := true } } }

/-- Judge tolerance with MP_STATUS.state as it was. -/
def Chip.judgeTol (c : Chip) : Chip := c.judgeTolFrom (c.fld MP_STATUS.state)

/-- Hold a correction for the next crossing, or clear it (R51, R52). -/
def Chip.setPending (c : Chip) (v : Int) : Chip :=
  (c.put2 MP_PENDING_LO.pend_lo MP_PENDING_HI.pend_hi (patternOf 64 v)).put MP_STATUS.pending (if v = 0 then 0 else 1)
/-- The correction held, 0 when none. -/
def Chip.pendingStep (c : Chip) : Int := signedOf 64 (c.fld2 MP_PENDING_LO.pend_lo MP_PENDING_HI.pend_hi)

/-- Delivery latency D of a launch, 32 ns (03 R73). -/
def deliveryD : Nat := 32768
/-- The execution instant of a ready entry: max(T, ready + D), and not before it was released (03 R73, R89). -/
def LqEntry.instant (e : LqEntry) : Option Nat := e.ready.map fun r => max (max e.t (r + deliveryD)) (e.rel.getD 0)

/-- Launches whose instant a step passes over execute at once, late by the counter after the step (R55). -/
def Chip.lqSkip (c : Chip) (before : Nat) : Chip :=
  let pass (e : LqEntry) : LqEntry :=
    match e.instant with
    | some i => if before < i ∧ i ≤ c.now then { e with rel := some c.now } else e
    | none => e
  { c with lq := { c.lq with entries := c.lq.entries.map pass } }

/-- A forward step of `d` MT (R53): event 34 with the counter before it and its size; MP_LASTSTEP. -/
def Chip.forwardStep (c : Chip) (d : Nat) : Chip :=
  let before := c.now
  let c := (c.put2 MP_LASTSTEP_LO.step_lo MP_LASTSTEP_HI.step_hi (patternOf 64 d)).advance d |>.lqSkip before
  let c := c.raise 34 0 [before, patternOf 64 d]
  { c with mp := { c.mp with lastStep := c.now },
           lq := { c.lq with batch := { c.lq.batch with stepped := true } } }
/-- An absorption of `d` MT starts (R53): state ABSORB until the counter has lost `d`. -/
def Chip.startAbsorb (c : Chip) (d : Nat) : Chip :=
  let back := c.fld MP_STATUS.state
  let c := c.mpState 4
  { c with mp := { c.mp with absorb := some ⟨d * 2 ^ 32, c.now, d, back⟩, slew := 0 },
           lq := { c.lq with batch := { c.lq.batch with absorbed := true } } }

/-- Milepost's step 7 of a crossing: the pending step or absorption is applied (R53), the value held now (R52). -/
def Chip.applyPending (c : Chip) : Chip :=
  let p := c.pendingStep
  if p = 0 then c else
  let c := c.setPending 0
  if p > 0 then (c.forwardStep p.toNat).judgeTol else (c.startAbsorb p.natAbs).judgeTol

/-- The crossing interval of R54 is open: before the first launch, or after a resync, while no pin group runs. -/
def Chip.openWin (c : Chip) : Bool :=
  c.mp.openWin && !(List.range 64).any fun g => decide (c.fld (PGR_STATUS.state g) = 3)

/-- Table 2.4 for a correction of at least -2^30 MT (R51, R52, R54). -/
def Chip.applyCorrection (c : Chip) (v : Int) : Chip :=
  if v.natAbs ≤ 1024 then
    let c := c.setPending 0
    { c with mp := { c.mp with slew := v * 2 ^ 32 } }
  else if c.openWin then
    let c := { c.setPending 0 with mp := { c.mp with slew := 0 } }
    if v > 0 then c.forwardStep v.toNat else c.startAbsorb v.natAbs
  else
    let first := !c.flag MP_STATUS.pending
    let c := { c.setPending v with mp := { c.mp with slew := 0 } }
    c.doIf first (·.raise 35 0 [patternOf 64 v])

/-- The running mean restarts (R46). -/
def Chip.restartMean (c : Chip) : Chip := { c with mp := { c.mp with meanEmpty := true, gateRun := 0 } }

/-- Trunk `u` is the upstream of a worker with TRUNK source and en set (R43). -/
def Chip.upstreamIs (c : Chip) (u : Nat) : Bool :=
  !c.isManager && c.flag MP_CTRL.en && c.fld MP_CTRL.source = 2 && c.flag MP_UPSTREAM.valid && c.fld MP_UPSTREAM.trunk = u
/-- Discipline over trunk `u` is on: it is the upstream, and the hop count would not exceed 5 (R44). -/
def Chip.disciplined (c : Chip) (u : Nat) : Bool := c.upstreamIs u && decide (c.fld (TRK_PEER.hops u) < 5)

/-- R43, R44: the state from which discipline starts, for the source, en and the hierarchy as they stand now. -/
def Chip.mpRestart (c : Chip) : Chip :=
  let u := c.fld MP_UPSTREAM.trunk
  if !c.flag MP_CTRL.en then c.mpState 0
  else if c.isManager then
    let c := c.put MP_STATUS.hops 0
    if c.fld MP_CTRL.source = 0 then c.mpState 2
    else if c.fld MP_CTRL.source = 1 then c.mpState 1 else c
  else if c.fld MP_CTRL.source = 2 ∧ c.flag MP_UPSTREAM.valid then
    if c.fld (TRK_PEER.hops u) < 5 then (c.put MP_STATUS.hops (c.fld (TRK_PEER.hops u) + 1)).mpState 1
    else
      let c := (c.put MP_ERR.hop_limit 1).mpState 0
      c.raise 37 0 [c.fld MP_ERR.hop_limit * 4 + c.fld MP_ERR.systime_behind * 8]
  else c.mpState 0

/-- R48: one more exchange missing or discarded; the third in a row enters HOLDOVER with event 36. -/
def Chip.missExchange (c : Chip) : Chip :=
  let c := c.incSat MP_REJECT_CNT.count
  let n := c.mp.missRun + 1
  let c := { c with mp := { c.mp with missRun := n, xchg := none } }
  if n = 3 ∧ c.fld MP_STATUS.state ≠ 3 then
    let c := (c.put MP_ERR.upstream_lost 1).raise 36 0 [patternOf 32 c.mp.theta]
    match c.mp.absorb with
    | some a => { c with mp := { c.mp with absorb := some { a with back := 3 } } }
    | none => (c.mpState 3).judgeTol
  else c

/-- The offset and mean path delay of one exchange (R46); divisions round toward zero. -/
def exchangeTheta (t1 t2 t3 t4 : Nat) (asym : Int) : Int := Int.tdiv (((t2 : Int) - t1) - ((t4 : Int) - t3) - asym) 2
/-- The mean path delay of one exchange (R46). -/
def exchangeDelay (t1 t2 t3 t4 : Nat) : Int := Int.tdiv (((t2 : Int) - t1) + ((t4 : Int) - t3)) 2

/-- R47: the frequency term takes -theta / 2^ki_shift spread over the 100,000 REF cycles of 1 ms, within 100 ppm. -/
def Chip.servo (c : Chip) (theta : Int) : Chip :=
  let d := Int.tdiv (theta * 2 ^ 32) (2 ^ c.fld MP_SERVO.ki_shift * 100000 : Nat)
  { c with mp := { c.mp with freq := clampAbs (ppmRate 100) (c.mp.freq - d) } }

/-- What an accepted exchange does with its offset (R47 to R53). -/
def Chip.acceptTheta (c : Chip) (theta : Int) : Chip :=
  let was := c.fld MP_STATUS.state
  let c := { (c.putS MP_OFFSET.offset theta) with mp := { c.mp with theta := theta, missRun := 0 } }
  if c.mp.absorb.isSome then c
  else if -theta < -(2 ^ 30) then
    let c := (c.setPending 0).put MP_ERR.systime_behind 1
    let c := c.raise 37 0 [c.fld MP_ERR.hop_limit * 4 + 8]
    (if c.fld MP_STATUS.state = 2 then c.mpState 3 else c).judgeTol
  else
    let c := c.mpState 2
    let c := c.applyCorrection (-theta)
    let c := if c.flag MP_STATUS.pending then c else c.servo theta
    c.judgeTolFrom was

/-- R46: the path-delay gate; a discard counts, an accept updates the mean and goes on to the offset. -/
def Chip.judgeExchange (c : Chip) (theta delay : Int) : Chip :=
  let mean := c.fldS MP_PATH_DELAY.delay
  if c.mp.meanEmpty then
    ({ c.putS MP_PATH_DELAY.delay delay with mp := { c.mp with meanEmpty := false, gateRun := 0 } }).acceptTheta theta
  else if (delay - mean).natAbs > c.fld MP_DELAY_GATE.gate then
    let n := c.mp.gateRun + 1
    ({ c with mp := { c.mp with gateRun := if n = 8 then 0 else n, meanEmpty := n = 8 } }).missExchange
  else
    ({ c.putS MP_PATH_DELAY.delay (mean + Int.tdiv (delay - mean) 16) with mp := { c.mp with gateRun := 0 } }).acceptTheta
      theta

/-- One REF cycle (R36, R39, R43): the vote of the copies, REF_IN steering on a manager in REFIN, the slew's progress. -/
def Chip.refCycle (c : Chip) (upset : Option (Fin 3)) (steer : Option Int) : Chip :=
  let c := match upset with
    | some k => (c.put MP_ERR.counter_fault 1).raise 38 0 [k.val]
    | none => c
  let c := match steer with
    | some f =>
      if c.isManager && c.flag MP_CTRL.en && c.fld MP_CTRL.source = 1 && c.fld MP_STATUS.state ≠ 3 then
        { c with mp := { c.mp with freq := clampAbs (ppmRate 100) f } }.mpState 2
      else c
    | none => c
  let total := c.mp.frac + c.rateWord
  let c' := c.advance (total / 2 ^ 32)
  let mp := c'.mp
  match mp.absorb with
  | some a => { c' with mp := { mp with frac := total % 2 ^ 32,
                                        absorb := some { a with left := a.left - (nominalRate - absorbRate) } } }
  | none => { c' with mp := { mp with frac := total % 2 ^ 32, slew := mp.slew - c.slewStep } }

/-- REF_CYCLE (R36). `upset` names a counter copy that disagrees; `steer` is the deviation measured against REF_IN. -/
def execRefCycle (upset : Option (Fin 3)) (steer : Option Int) (s : State) : Res := s.on (·.refCycle upset steer)

/-- SYNC_TIMER (R45): a downstream port stamps t1 and sends SYNC; a port that cannot send it loses the message (17 R391). -/
def execSyncTimer (u : Fin 8) (s : State) : Res := s.on fun c =>
  if c.fld (TRK_CTRL.role u) ≠ 2 ∨ !c.flag (TRK_STATUS.enrolled u) then c
  else if !c.portActive u then c.incSat (TRK_TIMED_LOST_CNT.count u)
  else
    { c.sendTimed u .sync [c.mp.xnum, c.now, c.fld MP_STATUS.hops, c.fld MP_STATUS.state, ofBool c.inTol,
        c.fld MP_EPOCH.epoch] with
      mp := { c.mp with syncSent := Tab.set none c.mp.syncSent u (some c.mp.xnum), xnum := (c.mp.xnum + 1) % 2 ^ 32 } }

/-- SYNC (R43 to R45): the downstream stamps t2 and takes the upstream's hop count; a count that would exceed 5 stops
discipline, and one that no longer does starts it again. The asymmetry held now is the exchange's (R66). -/
def execSync (u : Fin 8) (x t1 hops : Nat) (s : State) : Res := s.on fun c =>
  if c.upstreamIs u then
    let was := c.disciplined u
    let c := c.put (TRK_PEER.hops u) hops
    if c.fld (TRK_PEER.hops u) < 5 then
      let c := if was then c else (c.restartMean.mpRestart).judgeTol
      { c.put MP_STATUS.hops (c.fld (TRK_PEER.hops u) + 1) with
        mp := { c.mp with xchg := some ⟨u, x, t1, c.now, none, c.fldS (MP_TRUNK_ASYM.asym u)⟩ } }
    else if was then c.mpRestart.judgeTol
    else c
  else c

/-- DELAY_REQ_SEND (R45): the downstream stamps t3, no later than 100 µs after t2. -/
def execDelayReqSend (s : State) : Res := s.on fun c =>
  match c.mp.xchg with
  | some x =>
    if x.t3 = none ∧ c.now ≤ x.t2 + 100 * usMT then
      if c.portActive x.port then
        { c.sendTimed x.port .delayReq [x.num] with mp := { c.mp with xchg := some { x with t3 := some c.now } } }
      else c.incSat (TRK_TIMED_LOST_CNT.count x.port)
    else c
  | none => c

/-- DELAY_REQ (R45): the upstream stamps t4 and returns it in FOLLOW_UP. -/
def execDelayReq (u : Fin 8) (x : Nat) (s : State) : Res := s.on fun c =>
  if Tab.get none c.mp.syncSent u = some x ∧ c.portActive u then
    { c.sendTimed u .followUp [x, c.now] with mp := { c.mp with syncSent := Tab.set none c.mp.syncSent u none } }
  else c

/-- FOLLOW_UP (R46): the downstream has all four stamps and judges the exchange. -/
def execFollowUp (u : Fin 8) (x t4 : Nat) (s : State) : Res := s.on fun c =>
  match c.mp.xchg with
  | some ⟨p, n, t1, t2, some t3, asym⟩ =>
    if p = u.val ∧ n = x ∧ c.disciplined u then
      ({ c with mp := { c.mp with xchg := none } }).judgeExchange
        (exchangeTheta t1 t2 t3 t4 asym) (exchangeDelay t1 t2 t3 t4)
    else c
  | _ => c

/-- EXCHANGE_MISSING (R46, R48). -/
def execExchangeMissing (s : State) : Res := s.on fun c =>
  if c.disciplined (c.fld MP_UPSTREAM.trunk) then c.missExchange else c

/-- HOLDOVER_TICK (R58): MP_HOLD_EST grows by MP_HOLD_PPT parts per 10^12 of 1 ms, in HOLDOVER and in FREERUN after
acquisition. -/
def execHoldoverTick (s : State) : Res := s.on fun c =>
  let st := c.fld MP_STATUS.state
  if st = 3 ∨ (st = 0 ∧ c.flag MP_STATUS.acquired) then
    let a := c.mp.holdAcc + c.fld MP_HOLD_PPT.ppt * 1024
    ({ c with mp := { c.mp with holdAcc := a } }.put MP_HOLD_EST.est (satN 32 (a / 1000000))).judgeTol
  else c

/-- Registers a write of MP_CTRL takes (R13, R43); a change of source or en restarts discipline, and FREE runs at the nominal rate. -/
def Chip.mpCtrlWrite (c : Chip) (v : Nat) : Chip :=
  let src := MP_CTRL.source.of v
  let en := MP_CTRL.en.of v
  let sl := MP_CTRL.slew_limit.of v
  let old := (c.fld MP_CTRL.source, c.fld MP_CTRL.en)
  let c := c.putLegal MP_CTRL.source MP_ERR.bad_value (src < 3) src
  let c := c.putLegal MP_CTRL.slew_limit MP_ERR.bad_value (1 ≤ sl ∧ sl ≤ 100) sl
  let c := c.put MP_CTRL.en en
  if old = (c.fld MP_CTRL.source, c.fld MP_CTRL.en) then c
  else
    let c := if c.fld MP_CTRL.source = 0 then { c with mp := { c.mp with freq := 0 } } else c
    ({ c.restartMean with mp := { c.restartMean.mp with missRun := 0, xchg := none } }.mpRestart).judgeTol

/-- MP_CTRL_WRITE (R43, R66). -/
def execMpCtrlWrite (v : Word) (s : State) : Res := s.on (·.mpCtrlWrite v.toNat)

/-- A change of MP_UPSTREAM (R66): the mean restarts; the new upstream is used from the next exchange. -/
def Chip.setUpstream (c : Chip) (trunk valid : Nat) : Chip :=
  if c.fld MP_UPSTREAM.trunk = trunk ∧ c.fld MP_UPSTREAM.valid = valid then c
  else
    let c := ((c.put MP_UPSTREAM.trunk trunk).put MP_UPSTREAM.valid valid).restartMean
    let c := if c.fld MP_STATUS.state = 0 then c.mpRestart else
      c.put MP_STATUS.hops (if c.isManager then 0 else c.fld (TRK_PEER.hops trunk) + 1)
    c.judgeTol

/-- MP_UPSTREAM_WRITE (R66). -/
def execMpUpstreamWrite (v : Word) (s : State) : Res := s.on fun c =>
  c.setUpstream (MP_UPSTREAM.trunk.of v.toNat) (MP_UPSTREAM.valid.of v.toNat)

/-- MP_CMD.set (R57): a manager sets system time; a value below the counter is ignored. -/
def Chip.mpSet (c : Chip) : Chip :=
  let t := c.fld3 MP_SET_LO.set_lo MP_SET_HI.set_hi MP_SET_TOP.set_top
  if !c.isManager then c
  else if t < c.now then c.put MP_ERR.set_backward 1
  else c.applyCorrection ((t : Int) - c.now)

/-- MP_SET (R57). -/
def execMpSet (s : State) : Res := s.on (·.mpSet)

/-- MP_CMD.resync (R54): drop lock and reacquire; the interval of R54 opens. -/
def Chip.resync (c : Chip) : Chip :=
  if c.flag MP_CTRL.en then
    let c := { c with mp := { c.mp with openWin := true, missRun := 0, xchg := none } }
    (c.restartMean.mpRestart).judgeTol
  else c
/-- MP_RESYNC (R54). -/
def execMpResync (s : State) : Res := s.on (·.resync)

/-- REF_IN_LOSS (R68): a manager in REFIN keeps its frequency term and enters HOLDOVER with event 36. -/
def execRefInLoss (s : State) : Res := s.on fun c =>
  if c.isManager && c.flag MP_CTRL.en && c.fld MP_CTRL.source = 1 && c.fld MP_STATUS.state ≠ 3 then
    (c.mpState 3).raise 36 0 [patternOf 32 c.mp.theta]
  else c

/-- REF_IN_RETURN (R43): the manager reacquires and leaves HOLDOVER. -/
def execRefInReturn (s : State) : Res := s.on fun c =>
  if c.isManager && c.flag MP_CTRL.en && c.fld MP_CTRL.source = 1 && c.fld MP_STATUS.state = 3 then c.mpState 1 else c

/-- An absorption that has lost its size ends (R53): event 34, MP_LASTSTEP, back to the state before it. -/
def Chip.endAbsorb (c : Chip) (a : Absorb) : Chip :=
  let c := c.put2 MP_LASTSTEP_LO.step_lo MP_LASTSTEP_HI.step_hi (patternOf 64 (-(a.size : Int)))
  let c := c.raise 34 0 [a.before, patternOf 64 (-(a.size : Int))]
  let c := { c with mp := { c.mp with absorb := none, lastStep := c.now } }
  (c.mpState a.back).judgeTolFrom (c.fld MP_STATUS.state)

end Sys2Proof.Machine
end

