-- ==== Sys2Proof/Machine/LaunchQueue.lean ====
section
/-! DEFINITION. The launch queue (03 R69 to R81): insertion and refusal, order, readiness, lateness, system launches, their
reports and cancels. The actions that touch pins and crossings stand in Legs.lean, Commit.lean and Crossing.lean. -/

namespace Sys2Proof.Machine

/-- Place of an action among entries of one launch time (Table 3.2). -/
def actionClass (a : Nat) : Nat :=
  if a = 2 then 1 else if a = 5 then 2 else if a = 3 ∨ a = 4 then 3 else if a = 1 then 4 else if a = 7 then 6 else 5

/-- The order of R69: launch time, class, insertion. -/
def LqEntry.before (a b : LqEntry) : Bool :=
  if a.t ≠ b.t then a.t < b.t
  else if actionClass a.action ≠ actionClass b.action then actionClass a.action < actionClass b.action
  else a.order < b.order

/-- The first of a list of entries in the order of R69. -/
def firstEntry : List LqEntry → Option LqEntry
  | [] => none
  | e :: l => match firstEntry l with
    | none => some e
    | some f => if f.before e then some f else some e

/-- The first entry of all, whatever it waits for. -/
def Chip.earliest (c : Chip) : Option LqEntry := firstEntry c.lq.entries

/-- Groups named by commit set `n` (R83): the valid bits of its mask, groups 0 to 191. -/
def Chip.setGroups (c : Chip) (n : Nat) : List Nat :=
  numbersBelow 192 fun g => bit (c.fld (LQ_CSET_W.mask n (g / 32))) (g % 32)

/-- Quarter that owns a staged group, none for the protected ranges of the hub (Table 3.6). -/
def groupQuarter (g : Nat) : Option Nat :=
  if g < 64 then some (g / 16) else if g < 136 then some ((g - 64) / 18) else if g < 140 then some (g - 136)
  else if g < 176 then some ((g - 140) / 9) else none

/-- Quarters in a 4-bit mask. -/
def maskQuarters (m : Nat) : List Nat := numbersBelow 4 (bit m)

/-- Quarters an action targets (R72 and R73, "Launch time, guard and lateness"). -/
def Chip.targets (c : Chip) (action arg : Nat) : List Nat :=
  if action = 1 ∨ action = 3 ∨ action = 4 ∨ action = 5 then maskQuarters (bits arg 0 4)
  else if action = 6 then maskQuarters (bits arg 4 4)
  else if action = 2 then numbersBelow 4 fun q => (c.setGroups (bits arg 0 4)).any fun g => groupQuarter g = some q
  else if action = 7 then numbersBelow 4 fun q => !c.offline q
  else []

/-- Every domain the action targets is in RUN, the hub among them. -/
def Chip.domainsRun (c : Chip) (action arg : Nat) : Bool := c.tileUp && (c.targets action arg).all c.quarterRun

/-- The readiness of one entry at this instant. -/
def Chip.refreshEntry (c : Chip) (e : LqEntry) : LqEntry :=
  { e with ready := if c.domainsRun e.action e.arg then some (e.ready.getD c.now) else none }

/-- Judge readiness again for every waiting entry: ready from the instant all its domains are in RUN (R73). -/
def Chip.lqRefresh (c : Chip) : Chip :=
  { c with lq := { c.lq with entries := c.lq.entries.map c.refreshEntry } }

/-- R75: start the wake of every targeted domain below RUN. -/
def Chip.wakeTargets (c : Chip) (action arg cause : Nat) : Chip :=
  c.each (if c.tileUp then c.targets action arg else [4]) fun c q => c.startWake q cause

/-- An argument that names an offline quarter (R70). -/
def Chip.namesOffline (c : Chip) (action arg : Nat) : Bool :=
  (if action = 6 then maskQuarters (bits arg 4 4)
   else if action = 1 ∨ action = 3 ∨ action = 4 ∨ action = 5 then maskQuarters (bits arg 0 4) else []).any c.offline

/-- Refused by every tile, whoever inserts it: a reserved type, or a CROSSING whose argument is not 0 (R70). -/
def badAction (action arg : Nat) : Bool := 8 ≤ action || (action = 7 && arg ≠ 0)

/-- What an insertion answered: the disposition codes of LQ_NEW_RESULT (R71, Table 3.12). -/
abbrev Disp := Nat

/-- Insert an entry (R70, R71, R74, R75): refused, full, or queued outside or inside the guard. -/
def Chip.lqInsert (c : Chip) (t action arg id : Nat) (sys : Option Nat) : Chip × Disp :=
  if badAction action arg || c.namesOffline action arg then
    ((c.put LQ_ERR.bad_action 1).raise 42 0 [id, action, arg], 4)
  else if 1024 ≤ c.lq.entries.length then
    ((c.put LQ_ERR.queue_full 1).raise 52 0 [(c.earliest.map (·.id)).getD 0], 3)
  else
    let e : LqEntry := ⟨t, action, arg, id, c.lq.nextOrd, sys,
      if c.domainsRun action arg then some c.now else none, none⟩
    let c' := { c with lq := { c.lq with entries := c.lq.entries ++ [e], nextOrd := c.lq.nextOrd + 1 } }
    let c' := c'.doIf (c'.lq.entries.length = 896) (·.raise 43 0 [896])
    (c'.wakeTargets action arg 2, if t < c.now + c.fld LQ_GUARD.guard then 2 else 1)

/-- Entries whose instant came while nothing could execute are released now: their lateness is measured to this instant (R73, R89). -/
def Chip.lqAge (c : Chip) : Chip :=
  let free (e : LqEntry) : LqEntry :=
    match e.instant with
    | some i => if i ≤ c.now then { e with rel := some c.now } else e
    | none => e
  { c with lq := { c.lq with entries := c.lq.entries.map free } }
/-- A write of LQ_CTRL: entries that aged while en was 0 are late from their own time to this instant (Table 3.10). -/
def Chip.lqCtrlWrite (c : Chip) (v : Nat) : Chip :=
  let was := c.flag LQ_CTRL.en
  let c := (c.put LQ_CTRL.en v).put LQ_CTRL.reject_untol (LQ_CTRL.reject_untol.of v)
  if !was && c.flag LQ_CTRL.en then c.lqAge else c

/-- Remove an entry by its insertion number. -/
def Chip.lqRemove (c : Chip) (e : LqEntry) : Chip :=
  { c with lq := { c.lq with entries := c.lq.entries.filter fun x => x.order ≠ e.order } }

/-- R80: the manager counts one report for the identifier in LQ_SYS_ID (Table 3.12); the first refusal raises event 51. -/
def Chip.countReport (c : Chip) (tile id code : Nat) : Chip :=
  if code = 0 ∨ 9 ≤ code then c.put LQ_ERR.bad_value 1
  else if code = 8 then if id = c.fld LQ_SYS_ID.id then c.put LQ_ERR.cancel_late 1 else c
  else if id ≠ c.fld LQ_SYS_ID.id then c
  else if code = 1 ∨ code = 2 then c.addSat LQ_SYS_ACK.acks 1
  else if code = 6 then c.addSat LQ_SYS_LATE.late 1
  else if code = 5 then c
  else
    let c := c.doIf (c.fld LQ_SYS_ACK.refusals = 0) (·.raise 51 0 [id, tile])
    c.addSat LQ_SYS_ACK.refusals 1

/-- Report a disposition of a system launch: counted on the manager, sent upstream elsewhere (R79). -/
def Chip.report (c : Chip) (id code : Nat) : Chip :=
  if c.isManager then c.countReport (c.fld HY_SELF.tile) id code
  else c.sendUp .report [c.fld HY_SELF.tile, id, code]

/-- Report when the entry came from a system launch. -/
def Chip.reportFor (c : Chip) (e : LqEntry) (code : Nat) : Chip :=
  match e.sys with
  | some _ => c.report e.id code
  | none => c

/-- The scope of a system launch matches this tile (Table 3.4). -/
def Chip.scopeMatches (c : Chip) (scope target : Nat) : Bool :=
  scope = 1 || (scope = 2 && c.flag HY_SELF.valid && c.fld HY_SELF.tile = target) ||
    (scope = 3 && c.fld LQ_GROUP.group = target % 256)

/-- Identifiers count up from 1 in each epoch. -/
def Chip.takeId (c : Chip) : Chip × Nat :=
  ({ c with lq := { c.lq with nextId := (c.lq.nextId + 1) % 2 ^ 32 } }, c.lq.nextId)

/-- A local push (R71): the disposition and, where inserted, the identifier are reported. -/
def Chip.pushLocal (c : Chip) (t action arg : Nat) : Chip :=
  if badAction action arg || c.namesOffline action arg then
    let (c, d) := c.lqInsert t action arg (c.fld LQ_NEW_ID.id) none
    c.put LQ_NEW_RESULT.disp d
  else if 1024 ≤ c.lq.entries.length then
    let (c, d) := c.lqInsert t action arg (c.fld LQ_NEW_ID.id) none
    c.put LQ_NEW_RESULT.disp d
  else
    let (c, id) := c.takeId
    let (c, d) := c.lqInsert t action arg id none
    (c.put LQ_NEW_ID.id id).put LQ_NEW_RESULT.disp d

/-- A system launch pushed on the manager (R77): identifier, forwarding, and its own disposition where the scope matches. -/
def Chip.pushSystem (c : Chip) (t action arg scope target : Nat) : Chip :=
  if badAction action arg then
    ((c.put LQ_ERR.bad_action 1).raise 42 0 [c.fld LQ_NEW_ID.id, action, arg]).put LQ_NEW_RESULT.disp 4
  else
    let (c, id) := c.takeId
    let ep := c.fld MP_EPOCH.epoch
    let c := (c.put LQ_NEW_ID.id id).put LQ_SYS_ID.id id
    let c := ((c.put LQ_SYS_ACK.acks 0).put LQ_SYS_ACK.refusals 0).put LQ_SYS_LATE.late 0
    let c := { c with lq := { c.lq with seen := (ep, id) :: c.lq.seen, pushed := id :: c.lq.pushed } }
    let c := c.forwardDown .launch [ep, id, t, action, arg, scope, target]
    if c.scopeMatches scope target then
      let (c, d) := c.lqInsert t action arg id (some ep)
      (c.report id d).put LQ_NEW_RESULT.disp d
    else c.put LQ_NEW_RESULT.disp 6

/-- LQ_NEW_PUSH (R70, R71, R77). -/
def Chip.lqPush (c : Chip) : Chip :=
  let t := c.fld3 LQ_NEW_T_LO.t_lo LQ_NEW_T_HI.t_hi LQ_NEW_T_TOP.t_top
  let action := c.fld LQ_NEW_ACTION.type
  let arg := c.fld LQ_NEW_ARG.arg
  let scope := c.fld LQ_NEW_ACTION.scope
  if scope = 0 then c.pushLocal t action arg
  else if c.isManager then c.pushSystem t action arg scope (c.fld LQ_NEW_ACTION.target)
  else ((c.put LQ_ERR.bad_action 1).raise 42 0 [c.fld LQ_NEW_ID.id, action, arg]).put LQ_NEW_RESULT.disp 4

/-- LAUNCH_PUSH: a write of LQ_NEW_PUSH (R71). -/
def execLaunchPush (v : Word) (s : State) : Res := s.on fun c =>
  if bit v.toNat 0 then c.lqPush else c

/-- The waiting entry with an identifier, first in the order of R69. -/
def Chip.findId (c : Chip) (id : Nat) : Option LqEntry := firstEntry (c.lq.entries.filter fun e => e.id = id)

/-- LQ_CANCEL (R72, R81): remove the waiting entry; on the manager a system launch's cancel is forwarded too. -/
def Chip.lqCancel (c : Chip) (id : Nat) : Chip :=
  let fwd := c.isManager && c.lq.pushed.contains id
  let c' := match c.findId id with
    | some e => (c.lqRemove e).put LQ_NEW_RESULT.disp 5
    | none => c.put LQ_NEW_RESULT.disp 0
  c'.doIf fwd (·.forwardDown .cancel [id])

/-- LAUNCH_CANCEL: a write of LQ_CANCEL (R72). -/
def execLaunchCancel (v : Word) (s : State) : Res := s.on (·.lqCancel v.toNat)

/-- LAUNCH (R77 to R79): a received system launch is forwarded, queued where its scope matches, and reported; a second
receipt is discarded and counted. -/
def Chip.lqReceive (c : Chip) (ep id t action arg scope target : Nat) : Chip :=
  if c.lq.seen.contains (ep, id) then (c.incSat LQ_CNT_DUP.count).put LQ_ERR.dup_seen 1
  else
    let c := { c with lq := { c.lq with seen := (ep, id) :: c.lq.seen } }
    let c := c.forwardDown .launch [ep, id, t, action, arg, scope, target]
    if c.scopeMatches scope target then
      let (c, d) := c.lqInsert t action arg id (some ep)
      c.report id d
    else c

/-- LAUNCH (R77). -/
def execLaunch (u : Fin 8) (seq ack ep id t action arg scope target : Nat) (s : State) : Res :=
  s.on fun c => c.receive u seq ack (·.lqReceive ep id t action arg scope target)

/-- CANCEL (R81): forwarded; the waiting entry is removed and answered CANCELLED, one already executed TOO_LATE. -/
def execCancel (u : Fin 8) (seq ack id : Nat) (s : State) : Res := s.on fun c => c.receive u seq ack fun c =>
  let c := c.forwardDown .cancel [id]
  match firstEntry (c.lq.entries.filter fun e => e.id = id && e.sys.isSome) with
  | some e => (c.lqRemove e).report id 5
  | none => if c.lq.done.any (·.2 = id) then c.report id 8 else c

/-- REPORT (R79, R80): counted on the manager, passed upstream unchanged elsewhere. -/
def execReport (u : Fin 8) (seq ack tile id code : Nat) (s : State) : Res := s.on fun c => c.receive u seq ack fun c =>
  if c.isManager then c.countReport tile id code else c.sendUp .report [tile, id, code]

/-- The entry that executes next: the queue enabled, no crossing running, the first in order among those whose instant has
come and whose domains are in RUN (R69, R73, R87). -/
def Chip.lqDue (c : Chip) : Option LqEntry :=
  if c.flag LQ_CTRL.en && c.lq.crossing.isNone then
    firstEntry (c.lq.entries.filter fun e =>
      c.domainsRun e.action e.arg && (match e.instant with | some i => i ≤ c.now | none => false))
  else none

/-- Count into the batch. -/
def Chip.onBatch (c : Chip) (f : Batch → Batch) : Chip := { c with lq := { c.lq with batch := f c.lq.batch } }

/-- R73 and R76: reject an entry for lateness. -/
def Chip.rejectLate (c : Chip) (e : LqEntry) (late : Nat) : Chip :=
  let c := ((c.lqRemove e).incSat LQ_CNT_REJECT.count).put LQ_ERR.late_reject 1
  ((c.raise 41 0 [e.id, e.t, late]).onBatch fun b => { b with rejected := b.rejected + 1 }).reportFor e 7

/-- R76: reject an entry that meets an out-of-tolerance tile. -/
def Chip.rejectUntol (c : Chip) (e : LqEntry) : Chip :=
  let c := (c.lqRemove e).incSat LQ_CNT_REJECT.count
  ((c.raise 49 0 [e.id, c.mpStatusWord]).onBatch fun b => { b with rejected := b.rejected + 1 }).reportFor e 7

/-- R73, R76: an entry executes at its instant, on time or LATE, flagged UNALIGNED where the tile is out of tolerance. -/
def Chip.countExec (c : Chip) (e : LqEntry) (late : Nat) : Chip :=
  let una := !c.inTol
  let c := (c.lqRemove e).doIf una (·.raise 49 0 [e.id, c.mpStatusWord])
  let c := c.onBatch fun b => { b with executed := b.executed + 1, unaligned := b.unaligned || una,
                                       late := b.late + (if late = 0 then 0 else 1) }
  let c := { c with mp := { c.mp with openWin := false },
                    lq := { c.lq with done := match e.sys with | some ep => (ep, e.id) :: c.lq.done | none => c.lq.done } }
  if late = 0 then c.incSat LQ_CNT_EXEC.count
  else
    let c := (c.incSat LQ_CNT_LATE.count).put LQ_LAST_LATE.late late
    (c.raise 40 0 [e.id, e.t, late, ofBool una]).reportFor e 6

/-- The next due entry, when it is of the type the command names: judged (Table 3.3, R76) and, where it executes, its action
done with the entry and its execution instant. -/
def Chip.runEntry (c : Chip) (action : Nat) (act : Chip → LqEntry → Nat → Chip) : Chip :=
  match c.lqDue with
  | none => c
  | some e =>
    if e.action ≠ action then c else
    let i := e.instant.getD e.t
    let late := i - e.t
    if c.fld LQ_LATE_TOL.tol < late then c.rejectLate e late
    else if !c.inTol && c.flag LQ_CTRL.reject_untol then c.rejectUntol e
    else act (c.countExec e late) e i

/-- MARK (R70 Table 3.1): event 55 with the user value, stamped at the execution instant. -/
def execMark (s : State) : Res := s.on (·.runEntry 0 fun c e i => c.raiseAt 55 0 i [e.arg])

/-- TRIGGER (R70 Table 3.1): one pulse on the named fabric trigger line of each masked quarter. -/
def execTrigger (s : State) : Res := s.on (·.runEntry 6 fun c e i =>
  c.each (maskQuarters (bits e.arg 4 4)) fun c q => c.emit (.trigger q (bits e.arg 0 4) i))

end Sys2Proof.Machine
end

