-- ==== Sys2Proof/Machine/FailLog.lean ====
section
/-! DEFINITION. The fail log (09): intake and its hold, records and their writes, bitmaps and harvests, counters, level and
back-pressure, overflow intervals. -/

namespace Sys2Proof.Machine

/-- Fail log of quarter `q`. -/
def Chip.log (c : Chip) (q : Nat) : FailLog := Tab.get {} c.logs q
/-- Replace the fail log of quarter `q`. -/
def Chip.setLog (c : Chip) (q : Nat) (l : FailLog) : Chip := { c with logs := Tab.set {} c.logs q l }
/-- Change the fail log of quarter `q`. -/
def Chip.onLog (c : Chip) (q : Nat) (f : FailLog → FailLog) : Chip := c.setLog q (f (c.log q))

/-- Event number of fail-log cause `j` (R233). -/
def flEvent (q j : Nat) : Nat := 224 + q * 136 + 32 + j
/-- FL_WR_PTR. -/
def Chip.flWr (c : Chip) (q : Nat) : Nat := c.fld2 (FL_WR_PTR_LO.wr_lo q) (FL_WR_PTR_HI.wr_hi q)
/-- FL_ACK_PTR. -/
def Chip.flAck (c : Chip) (q : Nat) : Nat := c.fld2 (FL_ACK_PTR_LO.ack_lo q) (FL_ACK_PTR_HI.ack_hi q)
/-- Mode of group `g` (global) in the active FL_MODE (Table 9.1). -/
def Chip.flMode (c : Chip) (g : Nat) : Nat := c.act (FL_MODE.mode (g / 16) (g % 16))
/-- A group of the quarter is in COUNT mode. -/
def Chip.anyCount (c : Chip) (q : Nat) : Bool := (List.range 16).any fun g => c.flMode (16 * q + g) = 3
/-- A counter of the quarter is not 0. -/
def Chip.anyCnt (c : Chip) (q : Nat) : Bool :=
  c.regs.any fun e => (FL_CNT.count q 0).key ≤ e.1 && e.1 ≤ (FL_CNT.count q 255).key && e.2 ≠ 0

/-- The level L (R217). Records emitted and not yet written, and harvest reads outstanding, still count: emission leaves L
unchanged. -/
def Chip.flLevel (c : Chip) (q : Nat) : Nat :=
  let l := c.log q
  (c.flWr q - c.flAck q) + (l.records.map List.length).sum + 32 * l.intake.length
    + 96 * (l.dirty.length + l.harvests.length) + (if c.anyCount q || c.anyCnt q then 1056 else 0)
/-- Ceiling C (R224). -/
def Chip.flCeil (c : Chip) (q : Nat) : Nat := c.act (FL_LIMIT.limit q) * 65536 - 4096
/-- High-water H (R224). -/
def Chip.flHigh (c : Chip) (q : Nat) : Nat := (c.act (FL_LIMIT.limit q) - c.act (FL_HEADROOM.headroom q)) * 65536

/-- Ask the head record's write of the memory (R215): the slot at FL_WR_PTR, wrapping at the buffer's end. -/
def Chip.flIssue (c : Chip) (q : Nat) : Chip :=
  match (c.log q).records with
  | [] => c
  | r :: _ =>
    let size := 2 ^ c.act (FL_BUF_SIZE.log2 q)
    let base := c.act (FL_BUF_BASE_LO.base_lo q) + 2 ^ 32 * c.act (FL_BUF_BASE_HI.base_hi q)
    let off := c.flWr q % size
    if off + r.length ≤ size then c.emit (.dramWrite (.failLog q) (base + off) r)
    else (c.emit (.dramWrite (.failLog q) (base + off) (r.take (size - off)))).emit
      (.dramWrite (.failLog q) base (r.drop (size - off)))

/-- A record is emitted: it takes the next sequence number (R218) and joins the writes, the first of which is issued. -/
def Chip.flRecord (c : Chip) (q : Nat) (make : Nat → List Nat) : Chip :=
  let r := make (c.fld (FL_SEQ.seq q))
  let idle := (c.log q).records.isEmpty
  let c := (c.incWrap (FL_SEQ.seq q)).onLog q fun l => { l with records := l.records ++ [r], tries := if idle then 0 else l.tries }
  if idle then c.flIssue q else c

/-- The common slot of a record (Table 9.2): stamp, type and flag byte, sequence number, 18 bytes of type fields, CRC-16. -/
def slot32 (stamp kind seq : Nat) (fields : List Nat) : List Nat :=
  let b := bytesLE 7 stamp ++ [kind % 256] ++ bytesLE 4 seq ++ fields.take 18
  b ++ bytesLE 2 (crc16 b)

/-- A FAIL record (Table 9.3). `range`, `werr` flag a bitmap range or write error. -/
def failRecord (i : FlItem) (batch : Nat) (range werr : Bool) (seq : Nat) : List Nat :=
  slot32 i.stamp (16 * ofBool i.taint + 32 * ofBool i.window + 64 * i.slot + 128 * ofBool i.stale) seq
    (bytesLE 2 (i.chan % 1024 + 1024 * (i.expect % 16) + 16384 * (i.cmph % 2)) ++ [i.ts % 256] ++
     [ofBool range + 2 * ofBool werr + 4 * ofBool i.oot + 8 * ofBool (i.mode ≠ 1)] ++ bytesLE 6 i.vec ++ bytesLE 2 i.leg ++
     bytesLE 4 (i.apg.getD 0) ++ bytesLE 2 batch)

/-- A LEG record (Table 9.3). -/
def legRecord (i : FlItem) (batch seq : Nat) : List Nat :=
  slot32 i.stamp 1 seq
    ([i.chan % 64 + 128 * (i.kind - 1), i.hold % 8, 0, 0] ++ bytesLE 6 i.vec ++ bytesLE 2 i.leg ++ bytesLE 4 i.launch ++
     bytesLE 2 batch)

/-- An OVERFLOW record (Table 9.3). -/
def overflowRecord (v : Interval) (batch seq : Nat) : List Nat :=
  slot32 v.first 2 seq (bytesLE 4 v.drops ++ bytesLE 7 v.last ++ [v.causes % 16] ++ bytesLE 4 v.bm ++ bytesLE 2 batch)

/-- A HARVEST record (Table 9.3) with the 64 bytes of the line. -/
def harvestRecord (d : DirtyLine) (poison : Bool) (payload : List Nat) (batch seq : Nat) : List Nat :=
  slot32 d.first (3 + 16 * ofBool d.taint) seq
    ([d.g % 64 + 64 * ofBool poison, 0, 0, 0] ++ bytesLE 8 d.line ++ bytesLE 4 (crc32c payload) ++ bytesLE 2 batch) ++ payload

/-- A COUNT record (Table 9.3): reason 0 crossing, 1 seal, 2 quarter reset; the 256 counters. -/
def countRecord (stamp reason : Nat) (counts : List Nat) (batch seq : Nat) : List Nat :=
  let payload := counts.flatMap (bytesLE 4)
  slot32 stamp 4 seq ([reason, 0, 0, 0] ++ bytesLE 8 0 ++ bytesLE 4 (crc32c payload) ++ bytesLE 2 batch) ++ payload

/-- An END record (Table 9.3). -/
def endRecord (stamp fails tainted intervals batch seq : Nat) : List Nat :=
  slot32 stamp 5 seq (bytesLE 4 fails ++ bytesLE 4 tainted ++ bytesLE 2 intervals ++ [0, 0] ++ bytesLE 4 batch ++ bytesLE 2 batch)

/-- A SEAL record (Table 9.3). -/
def sealRecord (stamp discarded last flags level batch seq : Nat) : List Nat :=
  slot32 stamp 6 seq (bytesLE 4 discarded ++ bytesLE 7 last ++ [flags] ++ bytesLE 4 level ++ bytesLE 2 batch)

/-- Ask every RUNNING group of the quarter whose mode is not OFF to stall (R225), or end the request. -/
def Chip.askStall (c : Chip) (q : Nat) (on : Bool) : Chip :=
  c.each (List.range 16) fun c i =>
    let g := 16 * q + i
    let p := Tab.get {} c.groups g
    if on then
      if c.fld (PGR_STATUS.state g) = 3 ∧ c.flMode g ≠ 0 then
        { c with groups := Tab.set {} c.groups g { p with stalls := p.stalls ++ [(c.now, none)] } }
      else c
    else if p.stalls.isEmpty then c
    else
      let stop (e : Nat × Option Nat) : Nat × Option Nat := if e.2.isNone then (e.1, some c.now) else e
      { c with groups := Tab.set {} c.groups g { p with stalls := p.stalls.map stop } }

/-- Close the open interval with an OVERFLOW record when every cause in it has ended (R226). -/
def Chip.flClose (c : Chip) (q : Nat) (force : Bool) : Chip :=
  match (c.log q).interval with
  | some v =>
    if v.live = 0 ∨ force then
      let c := c.onLog q fun l => { l with interval := none }
      let c := (c.put (FL_STATUS.interval_open q) 0).addSat (FL_OVF_CNT.count q) 1
      c.flRecord q (overflowRecord v (c.fld LQ_BATCH.batch))
    else c
  | none => c

/-- A drop opens an interval or adds its cause to the open one (R226). Causes as bits: 1 LEVEL, 2 RATE, 4 STALL_MISS,
8 WRITE. `stamp` is none for a record lost with cause WRITE. -/
def Chip.flDrop (c : Chip) (q cause stamp results bm : Nat) : Chip :=
  let v := match (c.log q).interval with
    | some v => { v with last := stamp, drops := v.drops + results, bm := v.bm + bm, causes := v.causes ||| cause,
                         live := v.live ||| cause }
    | none => ⟨stamp, stamp, results, bm, cause, cause⟩
  (((c.onLog q fun l => { l with interval := some v }).put (FL_STATUS.interval_open q) 1).addSat
    (FL_DROP_CNT.count q) results).addSat (FL_BMDROP_CNT.count q) bm

/-- Back-pressure lasts. -/
def Chip.flPressed (c : Chip) (q : Nat) : Bool := c.fld (FL_STATUS.flow q) = 1 || c.fld (FL_STATUS.flow q) = 2
/-- The cause that holds back-pressure now, for a drop (R226). -/
def Chip.flCause (c : Chip) (q : Nat) : Nat := if c.flHigh q ≤ c.flLevel q then 1 else 2

/-- A forced drain of the quarter's fail data (15 R360), with the event of its drain channel (Table 15.12). -/
def Chip.forceDrain (c : Chip) (q : Nat) : Chip :=
  let ch := c.act (FL_DMA_CH.ch q)
  (c.onLog q fun l => { l with forced := true }).raise (64 + ch / 2) 2 [ch, q, c.flLevel q]

/-- Back-pressure ends (R224 to R226): stalled time, groups resume, the interval's causes but WRITE end, RESUMED. -/
def Chip.flRelease (c : Chip) (q : Nat) : Chip :=
  let dur := (c.now - (c.log q).bpSince) / nsMT
  let stalling := c.fld (FL_STATUS.flow q) = 1
  let drops := ((c.log q).interval.map (·.drops)).getD 0
  let c := c.put (FL_STATUS.flow q) 0
  let c := if stalling then (c.addSat (FL_STALL_TIME.ns q) dur).askStall q false else c
  let c := c.onLog q fun l => { l with interval := l.interval.map fun v => { v with live := v.live &&& 8 } }
  (c.flClose q false).raise (flEvent q 1) 0 [dur, drops]

/-- R224: report the level, start back-pressure at H or 12,288 results, end it at FL_RESUME and 8,192 results. -/
def Chip.flJudge (c : Chip) (q : Nat) : Chip :=
  let lvl := c.flLevel q
  let n := (c.log q).intake.length
  let c := (c.put (FL_LEVEL.level q) lvl).put (FL_LEVEL_MAX.max q) (max lvl (c.fld (FL_LEVEL_MAX.max q)))
  let c := (c.putB (FL_STATUS.sealed_veto q) (lvl ≠ 0)).put (FL_DIRTY.lines q) (c.log q).dirty.length
  let c := c.putB (FL_STATUS.harvesting q) (!(c.log q).harvests.isEmpty)
  if c.fld (FL_STATUS.flow q) = 3 then c
  else if !c.flPressed q then
    if c.flHigh q ≤ lvl ∨ 12288 ≤ n then
      let fresh := !c.flag (FL_ERR.level q) && c.flHigh q ≤ lvl || (!c.flag (FL_ERR.rate q) && 12288 ≤ n)
      let c := c.doIf (c.flHigh q ≤ lvl) (·.put (FL_ERR.level q) 1)
      let c := c.doIf (12288 ≤ n) (·.put (FL_ERR.rate q) 1)
      let c := c.doIf fresh (·.raise (flEvent q 0) 0 [lvl, n, c.act (FL_CTRL.bp q)])
      let c := c.onLog q fun l => { l with bpSince := c.now }
      let c := c.doIf (c.flHigh q ≤ lvl) (·.forceDrain q)
      if c.act (FL_CTRL.bp q) = 0 then (c.put (FL_STATUS.flow q) 1).askStall q true else c.put (FL_STATUS.flow q) 2
    else c
  else if lvl ≤ c.act (FL_RESUME.resume q) * 65536 ∧ n ≤ 8192 then c.flRelease q
  else c

/-- A drop beyond the ceiling or a full queue (R225): under STALL it is a STALL_MISS, else its cause is `cause`. -/
def Chip.flMiss (c : Chip) (q cause stamp results bm : Nat) : Chip :=
  if c.fld (FL_STATUS.flow q) = 1 then
    (c.errEvt (FL_ERR.stall_miss q) (flEvent q 2) 0 [stamp]).flDrop q 4 stamp results bm
  else c.flDrop q cause stamp results bm

/-- The instant lies after the power-fail mark (R231). -/
def Chip.afterMark (c : Chip) (t : Nat) : Bool := match c.pwr.mark with | some m => decide (m < t) | none => false

/-- A result or LEG record arrives (R213, R214, R224 to R226). -/
def Chip.flArrive (c : Chip) (q : Nat) (i : FlItem) : Chip :=
  let l := c.log q
  let lvl := c.flLevel q
  if i.kind = 0 ∧ c.afterMark i.stamp then
    c.setLog q { l with postCnt := l.postCnt + 1, postLast := recStamp i.stamp }
  else if i.mode = 0 then c
  else if 16384 ≤ l.intake.length then (c.flMiss q 2 (recStamp i.stamp) 1 0).flJudge q
  else if c.fld (FL_STATUS.flow q) = 2 ∧ (i.mode = 1 ∨ i.kind ≠ 0) then
    (c.flDrop q (c.flCause q) (recStamp i.stamp) 1 0).flJudge q
  else if c.flCeil q < lvl + 32 then (c.flMiss q 1 (recStamp i.stamp) 1 0).flJudge q
  else (c.setLog q { l with intake := l.intake ++ [i] }).flJudge q

/-- Emission order (R213): stamp, then channel number; a leg's start before its results, its end after them. -/
def FlItem.before (a b : FlItem) : Bool :=
  if a.stamp ≠ b.stamp then a.stamp < b.stamp
  else
    let r (x : FlItem) := if x.kind = 1 then 0 else if x.kind = 0 then 1 else 2
    if r a ≠ r b then r a < r b else a.chan < b.chan

/-- The first item in emission order. -/
def firstItem : List FlItem → Option FlItem
  | [] => none
  | e :: l => match firstItem l with
    | none => some e
    | some f => if f.before e then some f else some e

/-- Count a FAIL record and write it. -/
def Chip.flFail (c : Chip) (q : Nat) (i : FlItem) (range werr : Bool) : Chip :=
  (c.addSat (FL_REC_CNT.count q) 1).flRecord q (failRecord i (c.fld LQ_BATCH.batch) range werr)

/-- The bitmap bit of a result (R219): the address of its 64-bit word and the bit in it, none where it has no address or
lies beyond the bitmap. -/
def Chip.bmBit (c : Chip) (i : FlItem) : Option (Nat × Nat) :=
  let g := i.chan / 16
  let q := g / 16
  let k := g % 16
  let w := 2 ^ c.act (FL_BM_CFG.lanes q k)
  let lane := c.act (FL_BM_LANE.lane q (i.chan % 256 / 8) (i.chan % 8)) % w
  let a := if c.act (FL_BM_CFG.addr_src q k) = 0 then i.apg else some (i.vec % 2 ^ 32)
  a.bind fun a =>
    let n := a * w + lane
    if n / 8 < 2 ^ c.act (FL_BM_SIZE.log2 q k) then
      let base := c.act (FL_BM_BASE_LO.base_lo q k) + 2 ^ 32 * c.act (FL_BM_BASE_HI.base_hi q k)
      let byte := base + n / 8
      some (byte / 8 * 8, (byte % 8) * 8 + n % 8)
    else none

/-- FL_FAULT keeps the first failing line and its response (Table 9.8). -/
def Chip.flFault (c : Chip) (q line : Nat) (resp : Nat) : Chip :=
  if c.flag (FL_FAULT_HI.valid q) then c
  else ((c.put2 (FL_FAULT_LO.addr_lo q) (FL_FAULT_HI.addr_hi q) line).put (FL_FAULT_HI.resp q) resp).put (FL_FAULT_HI.valid q) 1

/-- Code of a response in the fault registers (08 Table 8.12). -/
def respCode : Resp → Nat
  | .ok => 0 | .decode => 1 | .denied => 2 | .poison => 3 | .closed => 4 | .timeout => 5

/-- Issue the reads of every line asked for that has no OR-write outstanding (R222); its entry leaves the table. -/
def Chip.flHarvest (c : Chip) (q : Nat) : Chip :=
  let l := c.log q
  let free (d : DirtyLine) := d.due && !(l.ors.any fun o => o.1 / 64 = d.line / 64)
  let go := l.dirty.filter free
  let c := c.setLog q { l with dirty := l.dirty.filter fun d => !free d, harvests := l.harvests ++ go.map fun d => ⟨d, 0⟩ }
  c.each go fun c d => c.emit (.dramRead (.failLog q) d.line 64)

/-- Ask for the harvest of the lines that satisfy `p` (R221). -/
def Chip.flDue (c : Chip) (q : Nat) (p : DirtyLine → Bool) : Chip :=
  (c.onLog q fun l => { l with dirty := l.dirty.map fun d => if p d then { d with due := true } else d }).flHarvest q

/-- Insert a line in the dirty-line table (R221): a full set harvests its oldest line first. -/
def Chip.flInsertLine (c : Chip) (q : Nat) (d : DirtyLine) : Chip :=
  let same := (c.log q).dirty.filter fun e => e.line / 64 % 4096 = d.line / 64 % 4096
  let c := match same with
    | o :: _ => if 16 ≤ same.length then c.flDue q (fun e => e.line = o.line) else c
    | [] => c
  c.onLog q fun l => { l with dirty := l.dirty ++ [d] }

/-- Count a tainted fail result (R228); the first of the batch raises TAINT. -/
def Chip.flTaint (c : Chip) (q : Nat) (i : FlItem) : Chip :=
  if i.taint then
    (c.addSat (FL_TAINT_CNT.count q) 1).doIf (decide (c.fld (FL_TAINT_CNT.count q) = 0))
      (·.errEvt (FL_ERR.taint q) (flEvent q 6) 0 [i.chan, recStamp i.stamp])
  else c

/-- The FAIL record a tainted BITMAP or COUNT result writes beside its update (R228); dropped under MARK (R226)
and above the ceiling (Table 9.5). -/
def Chip.flTaintRecord (c : Chip) (q : Nat) (i : FlItem) : Chip :=
  if !i.taint then c
  else if c.fld (FL_STATUS.flow q) = 2 then c.flDrop q (c.flCause q) (recStamp i.stamp) 1 0
  else if c.flCeil q < c.flLevel q + 32 then c.flMiss q 1 (recStamp i.stamp) 1 0
  else c.flFail q i false false

/-- Emit the bitmap update of a result, merged with the others of its strobe instant and word (R219 to R221, R226). -/
def Chip.flEmitBitmap (c : Chip) (q : Nat) (i : FlItem) : Chip :=
  match c.bmBit i with
  | none =>
    let c := c.onLog q fun l => { l with intake := l.intake.filter (· ≠ i) }
    ((c.flTaint q i).errEvt (FL_ERR.bm_range q) (flEvent q 3) 0 [i.chan / 16, 0, 0]).flFail q i true false
  | some (w, _) =>
    let together := (c.log q).intake.filter fun j =>
      j.kind = 0 && j.mode = 2 && j.stamp = i.stamp && j.chan / 16 = i.chan / 16 &&
        (match c.bmBit j with | some (w', _) => w' = w | none => false)
    let mask := maskOf (together.filterMap fun j => (c.bmBit j).map (·.2))
    let line := w / 64 * 64
    let c := c.onLog q fun l => { l with intake := l.intake.filter fun j => !together.contains j }
    let c := c.each together fun c j => c.flTaint q j
    let known := (c.log q).dirty.any fun d => d.line = line
    if !known ∧ (c.fld (FL_STATUS.flow q) = 2 ∨ c.flCeil q < c.flLevel q + 96) then
      let c := c.flMiss q (c.flCause q) (recStamp i.stamp) 0 together.length
      c.each together fun c j => c.flTaintRecord q j
    else
      let t := together.any (·.taint)
      let c :=
        if known then c.onLog q fun l => { l with dirty := l.dirty.map fun d => if d.line = line then { d with taint := d.taint || t } else d }
        else c.flInsertLine q ⟨line, i.chan / 16, c.now, recStamp i.stamp, t, false⟩
      let c := (c.onLog q fun l => { l with ors := l.ors ++ [(w, mask, together)] }).emit (.dramOr (.failLog q) w mask)
      c.each together fun c j => c.flTaintRecord q j

/-- Emit one item of the intake queue (R212, R213). -/
def Chip.flEmit (c : Chip) (q : Nat) (i : FlItem) : Chip :=
  if i.kind = 0 ∧ i.mode = 2 then (c.flEmitBitmap q i).flJudge q
  else
    let c := c.onLog q fun l => { l with intake := l.intake.filter (· ≠ i) }
    if i.kind ≠ 0 then (c.flRecord q (legRecord i (c.fld LQ_BATCH.batch))).flJudge q
    else
      let c := c.flTaint q i
      if i.mode = 1 then (c.flFail q i false false).flJudge q
      else ((c.addSat (FL_CNT.count q (i.chan % 256)) 1).flTaintRecord q i).flJudge q

/-- INTAKE_EMIT (R213): the first item in order, once its hold of 262,144 MT has passed. -/
def execIntakeEmit (q : Fin 4) (s : State) : Res := s.on fun c =>
  match firstItem (c.log q).intake with
  | some i => if i.stamp + 262144 ≤ c.now then c.flEmit q i else c
  | none => c

/-- Emit everything in the queue, in order (R229, R231). -/
def Chip.flEmitAll (c : Chip) (q : Nat) : Nat → Chip
  | 0 => c
  | n + 1 => match firstItem (c.log q).intake with
    | some i => (c.flEmit q i).flEmitAll q n
    | none => c

/-- A COUNT record under R223, with its reason; the counters are cleared. -/
def Chip.flCount (c : Chip) (q reason : Nat) : Chip :=
  let counts := (List.range 256).map fun k => c.fld (FL_CNT.count q k)
  let c' := { c with regs := c.regs.filter fun e =>
    !((FL_CNT.count q 0).key ≤ e.1 && e.1 ≤ (FL_CNT.count q 255).key) }
  if c.anyCount q || c.anyCnt q then c'.flRecord q (countRecord (recStamp c.now) reason counts (c.fld LQ_BATCH.batch)) else c'

/-- Step 4 of the seal ends (Table 9.7): the COUNT record and the SEAL record. -/
def Chip.flSealRecords (c : Chip) (q mark flags lvl : Nat) : Chip :=
  let c := c.flCount q 1
  let l := c.log q
  (c.flRecord q (sealRecord (recStamp mark) l.postCnt l.postLast flags lvl (c.fld LQ_BATCH.batch))).onLog q fun l =>
    { l with atSeal := some (mark, flags, lvl, true) }
/-- Step 5 of the seal (Table 9.7): FL_SEAL_PTR, SEALED and its event. -/
def Chip.flSealEnd (c : Chip) (q lvl total : Nat) : Chip :=
  let c := (c.put2 (FL_SEAL_PTR_LO.seal_lo q) (FL_SEAL_PTR_HI.seal_hi q) total).put (FL_STATUS.flow q) 3
  (c.onLog q fun l => { l with atSeal := none }).raise (flEvent q 7) 0 [total, lvl]
/-- The seal goes on once nothing is left to harvest, and ends once every record is written (Table 9.7). -/
def Chip.flSealTry (c : Chip) (q : Nat) : Chip :=
  let c := match (c.log q).atSeal with
    | some (m, f, lvl, false) =>
      let l := c.log q
      if l.dirty.isEmpty && l.ors.isEmpty && l.harvests.isEmpty then c.flSealRecords q m f lvl else c
    | _ => c
  match (c.log q).atSeal with
  | some (_, _, lvl, true) => if (c.log q).records.isEmpty then c.flSealEnd q lvl (c.flWr q) else c
  | _ => c
/-- The hold-up ends with a seal not ended: what is left unwritten is counted as written, what is left unharvested is lost. -/
def Chip.flSealForce (c : Chip) (q : Nat) : Chip :=
  match (c.log q).atSeal with
  | none => c
  | some (m, f, lvl, w) =>
    let c := if w then c else c.flSealRecords q m f lvl
    c.flSealEnd q lvl (c.flWr q + ((c.log q).records.map List.length).sum)

/-- FL_RECORD_RESPONSE (R215, R227): OK advances FL_WR_PTR; after three attempts the record is dropped with cause WRITE. -/
def execFlRecordResponse (q : Fin 4) (resp : Resp) (s : State) : Res := s.on fun c =>
  match (c.log q).records with
  | [] => c
  | r :: rs =>
    if resp = .ok then
      let c := c.put2 (FL_WR_PTR_LO.wr_lo q) (FL_WR_PTR_HI.wr_hi q) (c.flWr q + r.length)
      let c := c.onLog q fun l => { l with records := rs, tries := 0,
                                           interval := l.interval.map fun v => { v with live := v.live &&& 7 } }
      (((c.flClose q false).flIssue q).flJudge q).flSealTry q
    else if (c.log q).tries < 2 then (c.onLog q fun l => { l with tries := l.tries + 1 }).flIssue q
    else
      let base := c.act (FL_BUF_BASE_LO.base_lo q) + 2 ^ 32 * c.act (FL_BUF_BASE_HI.base_hi q)
      let line := (base + c.flWr q % 2 ^ c.act (FL_BUF_SIZE.log2 q)) / 64 * 64
      let c := (c.onLog q fun l => { l with records := rs, tries := 0 }).flFault q line (respCode resp)
      let c := c.errEvt (FL_ERR.buf_write q) (flEvent q 4) 0 [line, respCode resp]
      (((c.flDrop q 8 (numLE (r.take 7)) (if r.getD 7 0 % 16 = 0 then 1 else 0) 0).flIssue q).flJudge q).flSealTry q

/-- FL_ORWRITE_RESPONSE (R220): the answer of the `k`-th outstanding OR-write; anything but OK turns its results into FAIL
records. -/
def execFlOrwriteResponse (q : Fin 4) (k : Nat) (resp : Resp) (s : State) : Res := s.on fun c =>
  match (c.log q).ors[k]? with
  | none => c
  | some (w, _, items) =>
    let c := c.onLog q fun l => { l with ors := l.ors.eraseIdx k }
    let c :=
      if resp = .ok then c
      else
        let c := c.flFault q (w / 64 * 64) (respCode resp)
        let c := c.errEvt (FL_ERR.bm_write q) (flEvent q 3) 0
          [((items.head?.map (·.chan)).getD 0) / 16, w / 64 * 64, respCode resp]
        c.each items fun c i => c.flFail q i false true
    ((c.flHarvest q).flJudge q).flSealTry q

/-- DIRTY_LINE_AGE (R221): every line as old as FL_BM_AGE is harvested. -/
def execDirtyLineAge (q : Fin 4) (s : State) : Res := s.on fun c =>
  (c.flDue q fun d => d.since + c.fld (FL_BM_AGE.ms q) * msMT ≤ c.now).flJudge q

/-- HARVEST_ALL (R221). -/
def execHarvestAll (q : Fin 4) (s : State) : Res := s.on fun c => (c.flDue q fun _ => true).flJudge q

/-- HARVEST_READ_RESPONSE (R222): the answer of the `k`-th harvest read; POISON, and a third failure, give a zero payload. -/
def execHarvestReadResponse (q : Fin 4) (k : Nat) (resp : Resp) (data : Line) (s : State) : Res := s.on fun c =>
  match (c.log q).harvests[k]? with
  | none => c
  | some h =>
    let batch := c.fld LQ_BATCH.batch
    let gone (c : Chip) := c.onLog q fun l => { l with harvests := l.harvests.eraseIdx k }
    if resp = .ok then ((gone c).flRecord q (harvestRecord h.line false (bytesLE 64 data.toNat) batch)).flJudge q |>.flSealTry q
    else if resp ≠ .poison ∧ h.tries < 2 then
      (c.onLog q fun l => { l with harvests := l.harvests.set k { h with tries := h.tries + 1 } }).emit
        (.dramRead (.failLog q) h.line.line 64)
    else
      let c := (gone c).flFault q h.line.line (respCode resp)
      let c := c.errEvt (FL_ERR.harvest_poison q) (flEvent q 5) 0 [h.line.line]
      (c.flRecord q (harvestRecord h.line true (List.replicate 64 0) batch)).flJudge q |>.flSealTry q

/-- A write that moves FL_ACK_PTR to `v` (R216): ignored where it would lower it or pass FL_WR_PTR. -/
def Chip.flAckTo (c : Chip) (q v : Nat) : Chip :=
  if v < c.flAck q ∨ c.flWr q < v then c.put (FL_ERR.ack_err q) 1
  else (c.put2 (FL_ACK_PTR_LO.ack_lo q) (FL_ACK_PTR_HI.ack_hi q) v).flJudge q

/-- FL_ACK_WRITE (R216): software's write of the whole pointer; ignored while ack_src is 0. -/
def Chip.flAckWrite (c : Chip) (q v : Nat) : Chip :=
  if c.act (FL_CTRL.ack_src q) = 0 then c.put (FL_ERR.bad_value q) 1 else c.flAckTo q v

/-- FL_ACK_WRITE (R216). -/
def execFlAckWrite (q : Fin 4) (v : BitVec 64) (s : State) : Res := s.on (·.flAckWrite q v.toNat)

/-- Step 4 of a crossing (R229). -/
def Chip.flCrossing (c : Chip) (q : Nat) : Chip :=
  let c := c.flEmitAll q 16384
  let c := (if c.flPressed q then c.flRelease q else c).flClose q true
  let c := c.flCount q 0
  let c := c.flRecord q (endRecord (recStamp c.now) (c.fld (FL_REC_CNT.count q)) (c.fld (FL_TAINT_CNT.count q))
    (c.fld (FL_OVF_CNT.count q)) (c.fld LQ_BATCH.batch))
  c.forceDrain q

/-- Step 6 of a crossing (R229): sequence number, counters and interval state are cleared; a batch that opens with L at or
above H opens under back-pressure. -/
def Chip.flClear (c : Chip) (q : Nat) : Chip :=
  let c := (((c.put (FL_SEQ.seq q) 0).put (FL_REC_CNT.count q) 0).put (FL_TAINT_CNT.count q) 0).put (FL_OVF_CNT.count q) 0
  let c := (c.onLog q fun l => { l with interval := none }).put (FL_STATUS.interval_open q) 0
  c.flJudge q

/-- The fail log's seal begins at the mark (R231 Table 9.7 steps 3 and 4): the intake is written, an open interval closed, every
dirty line harvested; `lvl` is L at the mark. -/
def Chip.flSeal (c : Chip) (q mark lvl : Nat) (crossing : Bool) : Chip :=
  let flags := ofBool crossing + 2 * ofBool (c.log q).interval.isSome
  let c := ((c.flEmitAll q 16384).flClose q true).flDue q fun _ => true
  (c.onLog q fun l => { l with atSeal := some (mark, flags, lvl, false) }).flSealTry q

/-- Quarter reset (R230): the intake is written out, a COUNT record with reason 2, then FL_MODE all OFF. -/
def Chip.flQuarterReset (c : Chip) (q : Nat) : Chip :=
  let c := (c.flEmitAll q 16384).flCount q 2
  let c := c.each (List.range 16) fun c g => (c.putAct (FL_MODE.mode q g) 0).putStg (FL_MODE.mode q g) 0
  c.flJudge q

end Sys2Proof.Machine
end

