-- ==== Sys2Proof/Machine/Streams.lean ====
section
/-! DEFINITION. Pattern streamers (08 R187 to R197, R206): states, the lookahead buffer and its prefetch, program errors and
faults. The instructions stand in StreamOps.lean. -/

namespace Sys2Proof.Machine

/-- Streamer `n`, 0 to 71. -/
def Chip.str (c : Chip) (n : Nat) : Streamer := Tab.get {} c.streams n
/-- Replace streamer `n`. -/
def Chip.setStr (c : Chip) (n : Nat) (x : Streamer) : Chip := { c with streams := Tab.set {} c.streams n x }
/-- Change streamer `n`. -/
def Chip.onStr (c : Chip) (n : Nat) (f : Streamer → Streamer) : Chip := c.setStr n (f (c.str n))
/-- Event of streamer `n` (R211). -/
def strEvent (n : Nat) : Nat := 224 + n / 18 * 136 + 40 + n % 18
/-- Program address of streamer `n`. -/
def Chip.strProg (c : Chip) (n : Nat) : Nat := c.act (STR_PROG_LO.prog_lo n) + 2 ^ 32 * c.act (STR_PROG_HI.prog_hi n)
/-- Current instruction's address. -/
def Chip.strPc (c : Chip) (n : Nat) : Nat := c.fld2 (STR_PC_LO.pc_lo n) (STR_PC_HI.pc_hi n)
/-- Move to an instruction. -/
def Chip.setPc (c : Chip) (n a : Nat) : Chip := c.put2 (STR_PC_LO.pc_lo n) (STR_PC_HI.pc_hi n) a
/-- Bits per channel (R193). -/
def Chip.strWidth (c : Chip) (n : Nat) : Nat := 2 ^ c.act (STR_PACK.width n)
/-- The pin group a streamer is assigned to (R188), global number. -/
def Chip.strGroup (c : Chip) (n : Nat) : Option Nat :=
  if c.act (STR_GROUP.valid n) = 1 then some (16 * (n / 18) + c.act (STR_GROUP.group n)) else none
/-- The one streamer that feeds a group, none when the group is not streamer-fed (R188). -/
def Chip.feeder (c : Chip) (g : Nat) : Option Nat :=
  match (List.range 18).filter fun s => c.strGroup (18 * (g / 16) + s) = some g with
  | [s] => some (18 * (g / 16) + s)
  | _ => none

/-- A streamer instruction (Table 8.3). -/
structure SInstr where
  op     : Nat
  setTs  : Bool
  ts     : Nat
  count  : Nat
  cond   : Nat
  flag   : Nat
  action : Nat
  addr   : Nat
  chmask : Nat
deriving DecidableEq, Repr

/-- The fields of the two words of an instruction (Table 8.3). -/
def sinstr (w0 w1 : Nat) : SInstr :=
  ⟨bits w0 0 4, bit w0 4, bits w0 5 8, bits w0 16 32, bits w0 48 2, bits w0 50 2, bits w0 52 2, bits w1 0 41, bits w1 48 16⟩

/-- The buffer line that holds byte address `a`. -/
def Streamer.line (x : Streamer) (a : Nat) : Option BufLine := Tab.get none x.lines (a / 64 * 64)
/-- The instruction at `a`, when its line is held and was answered OK. -/
def Streamer.instrAt (x : Streamer) (a : Nat) : Option SInstr :=
  match x.line a with
  | some l => if l.resp = 0 then some (sinstr (bits l.data (a % 64 * 8) 64) (bits l.data (a % 64 * 8 + 64) 64)) else none
  | none => none

/-- The first line of `n` bytes from `a` that the buffer does not hold, looking no further than its 16,384 lines. -/
def Streamer.missing (x : Streamer) (a n : Nat) : Option Nat :=
  ((List.range (min ((a % 64 + n + 63) / 64) 16384)).find? fun i => (x.line (a / 64 * 64 + 64 * i)).isNone).map
    fun i => a / 64 * 64 + 64 * i

/-- Follow the program in the order of execution (R194): the first line missing on the path from `pc`, none once it has
reached an END or used up its byte budget. Each BRF is taken as not taken, each MATCH as running to its timeout action. The
stack holds (is a MATCH, its addr, its timeout action). -/
def Streamer.walk (x : Streamer) (w : Nat) : Nat → Nat → Nat → List (Bool × Nat × Nat) → Option Nat
  | 0, _, _, _ => none
  | fuel + 1, budget, pc, stack =>
    if budget = 0 then none else
    match x.line pc with
    | none => some (pc / 64 * 64)
    | some _ =>
      match x.instrAt pc with
      | none => none
      | some i =>
        if i.op = 1 then
          match x.missing i.addr (min (i.count * 2 * w) budget) with
          | some l => some l
          | none => Streamer.walk x w fuel (budget - 16 - i.count * 2 * w) (pc + 16) stack
        else if i.op = 2 then
          if i.count = 0 then Streamer.walk x w fuel (budget - 16) i.addr stack
          else Streamer.walk x w fuel (budget - 16) (pc + 16) ((false, 0, 0) :: stack)
        else if i.op = 4 then
          if i.count = 0 then Streamer.walk x w fuel (budget - 16) i.addr stack
          else Streamer.walk x w fuel (budget - 16) (pc + 16) ((true, i.addr, i.action) :: stack)
        else if i.op = 3 then Streamer.walk x w fuel (budget - 16) (pc + 16) (stack.drop 1)
        else if i.op = 5 then
          match stack with
          | (true, after, action) :: rest =>
            if action = 0 then Streamer.walk x w fuel (budget - 16) after rest
            else if action = 1 then Streamer.walk x w fuel (budget - 16) i.addr rest else none
          | _ => none
        else if i.op = 7 then Streamer.walk x w fuel (budget - 16) i.addr stack
        else if i.op = 0 ∨ i.op = 6 then Streamer.walk x w fuel (budget - 16) (pc + 16) stack
        else none

/-- Starts of the paths not followed (R194, alt_prefetch): each BRF's addr, each MATCH's addr, each ENDM's JUMP target, among
the instructions the buffer holds at 16-byte steps from `pc`. -/
def Streamer.alternates (x : Streamer) : Nat → Nat → List Nat
  | 0, _ => []
  | fuel + 1, pc =>
    match x.instrAt pc with
    | none => []
    | some i =>
      if i.op = 8 then []
      else if i.op = 4 ∨ i.op = 6 ∨ (i.op = 5 ∧ i.addr ≠ 0) then i.addr :: Streamer.alternates x fuel (pc + 16)
      else Streamer.alternates x fuel (pc + 16)

/-- STR_CTRL in force: a write while RUNNING takes effect at the next leg (R209). -/
def Chip.strCtrl (c : Chip) (n : Nat) : Nat :=
  if c.fld (STR_STATUS.state n) = 3 then (c.str n).ctrl
  else c.fld (STR_CTRL.pin_loops n) + 2 * c.fld (STR_CTRL.alt_prefetch n)

/-- The first line the streamer still wants: of the current VEC, of the path ahead, then of the paths not followed. -/
def Chip.strWants (c : Chip) (n : Nat) : Option Nat :=
  let x := c.str n
  let w := c.strWidth n
  let pc := c.strPc n
  match x.missing x.vaddr (x.left * 2 * w) with
  | some l => some l
  | none =>
    match x.walk w 65536 (2 ^ 62) pc (x.stack.map fun f => (f.isMatch, f.after, f.action)) with
    | some l => some l
    | none =>
      if bit (c.strCtrl n) 1 then (x.alternates 1024 pc).findSome? fun a => x.walk w 1024 16384 a []
      else none

/-- Ask for the next wanted line unless it is on its way (R194). -/
def Chip.strPrefetch (c : Chip) (n : Nat) : Chip :=
  let x := c.str n
  if x.lines.length + x.fetching.length < 16384 then
    match c.strWants n with
    | some l =>
      if x.fetching.contains l then c
      else (c.setStr n { x with fetching := x.fetching ++ [l] }).emit (.dramRead (.streamer n) l 64)
    | none => c
  else c

/-- Registers that show the stack (Table 8.12). -/
def Chip.strShow (c : Chip) (n : Nat) : Chip :=
  let x := c.str n
  ((c.put (STR_STATUS.depth n) x.stack.length).putB (STR_STATUS.in_match n) (x.stack.any (·.isMatch))).put
    (STR_FILL.lines n) x.lines.length

/-- To LOADING: position, stack and buffer discarded, the program fetched from its start (R189, R190). -/
def Chip.strLoad (c : Chip) (n : Nat) : Chip :=
  let c := (c.setStr n { nextId := (c.str n).nextId }).put (STR_STATUS.state n) 1
  let c := (c.put (STR_STATUS.pinned n) 0).setPc n (c.strProg n)
  (c.strShow n).strPrefetch n

/-- To STOPPED: buffer discarded (Table 8.1). -/
def Chip.strStop (c : Chip) (n : Nat) : Chip :=
  let c := (c.onStr n fun x => { nextId := x.nextId, left := 0 }).put (STR_STATUS.state n) 4
  (c.put (STR_STATUS.pinned n) 0).strShow n

/-- After SEALED, a cold start or a quarter reset: IDLE with nothing held (Table 8.11). -/
def Chip.strReset (c : Chip) (n : Nat) : Chip := (((c.setStr n {}).put (STR_STATUS.state n) 0).setPc n 0).strShow n

/-- The group's leg is to end at its next vector boundary, for a reason (`Leg.ending`); an earlier reason stands. -/
def Chip.endLegReq (c : Chip) (g why : Nat) : Chip :=
  let p := Tab.get {} c.groups g
  match p.leg with
  | some l => if l.ending = 0 then { c with groups := Tab.set {} c.groups g { p with leg := some { l with ending := why } } } else c
  | none => c

/-- Round a time with 16 fraction bits to whole MT, halves up (07 R160). -/
def roundMT (x : Int) : Nat := ((x + 32768) / 65536).toNat

/-- Start of the next vector of a group's leg (07 R160). -/
def Leg.next (l : Leg) : Nat := roundMT ((l.t * 65536 + l.sum : Nat) : Int)
/-- The instant of the last vector a streamer's group presented. -/
def Chip.lastVector (c : Chip) (n : Nat) : Nat :=
  match c.strGroup n with
  | some g => match (Tab.get {} c.groups g).leg with
    | some l => l.lastAt
    | none => c.now
  | none => c.now

/-- A program error (Table 8.9, R206): the leg ends at the next boundary, the streamer is STOPPED. Codes of STR_PROG_ERR. -/
def Chip.strError (c : Chip) (n code : Nat) : Chip :=
  let pc := c.strPc n
  let c := if c.flag (STR_PROG_ERR.valid n) then c else (c.put (STR_PROG_ERR.code n) code).put (STR_PROG_ERR.valid n) 1
  let c := c.errEvt (STR_ERR.prog_err n) (strEvent n) 1 [code, pc, recStamp (c.lastVector n)]
  let c := match c.strGroup n with | some g => c.endLegReq g 2 | none => c
  c.strStop n

/-- STR_FAULT keeps the first failing line and its response (Table 8.12). -/
def Chip.strFault (c : Chip) (n line resp : Nat) : Chip :=
  if c.flag (STR_FAULT_HI.valid n) then c
  else ((c.put2 (STR_FAULT_LO.addr_lo n) (STR_FAULT_HI.addr_hi n) line).put (STR_FAULT_HI.valid n) 1).put (STR_FAULT_RESP.resp n) resp

/-- A poisoned or unanswered line is consumed (Table 8.9): POISON, or FETCH for any other response. -/
def Chip.strPoison (c : Chip) (n line resp at_ : Nat) : Chip :=
  let c := c.strFault n line resp
  let c := if resp = 3 then c.errEvt (STR_ERR.poison n) (strEvent n) 2 [line, recStamp at_]
    else c.errEvt (STR_ERR.fetch_err n) (strEvent n) 3 [line, resp]
  c.strStop n

/-- Room for a line: a full buffer gives up its first line already used (R194). -/
def Streamer.makeRoom (x : Streamer) : Streamer :=
  if x.lines.length < 16384 then x
  else match x.lines.find? fun e => match e.2 with | some l => l.used && !l.keep | none => false with
    | some e => { x with lines := Tab.del x.lines e.1 }
    | none => x

/-- STREAMER_LINE_RESPONSE (R194): a fetched line arrives; LOADING ends when the buffer is full or every path it fetches has
reached an END. -/
def execStreamerLineResponse (n : Fin 72) (addr : Nat) (resp : Resp) (data : Line) (s : State) : Res := s.on fun c =>
  let x := c.str n
  let a := addr / 64 * 64
  if !x.fetching.contains a then c
  else
    let x := { x with fetching := x.fetching.filter (· ≠ a) }.makeRoom
    let c := c.setStr n { x with lines := Tab.set none x.lines a (some ⟨data.toNat, respCode resp, false, false, false, 0, 0⟩) }
    let c := (c.strShow n).strPrefetch n
    if c.fld (STR_STATUS.state n) = 1 ∧ ((c.strWants n).isNone ∨ 16384 ≤ (c.str n).lines.length) then
      c.put (STR_STATUS.state n) 2
    else c

/-- STR_CMD.reprime (R189, Table 8.12). -/
def Chip.strReprime (c : Chip) (n : Nat) : Chip :=
  if c.fld (STR_STATUS.state n) = 0 ∨ c.fld (STR_STATUS.state n) = 4 then c.strLoad n else c.put (STR_ERR.bad_value n) 1

/-- REPRIME (R189). -/
def execReprime (n : Fin 72) (s : State) : Res := s.on (·.strReprime n)

end Sys2Proof.Machine
end

