-- ==== Sys2Proof/Machine/Pins.lean ====
section
/-! DEFINITION. Pin channels and pin groups (07): group states and their levels, legs, vectors, drive edges, strobes and
compare, the reflex block, calibration; and the APG ports' queues (08 R202 to R204). -/

namespace Sys2Proof.Machine

/-- Pin group `g`, 0 to 63. -/
def Chip.group (c : Chip) (g : Nat) : PinGroup := Tab.get {} c.groups g
/-- Replace pin group `g`. -/
def Chip.setGroup (c : Chip) (g : Nat) (p : PinGroup) : Chip := { c with groups := Tab.set {} c.groups g p }
/-- Channel `k` of a group. -/
def PinGroup.chan (p : PinGroup) (k : Nat) : Chan := Tab.get {} p.chans k
/-- Replace channel `k` of a group. -/
def PinGroup.setChan (p : PinGroup) (k : Nat) (x : Chan) : PinGroup := { p with chans := Tab.set {} p.chans k x }
/-- Change channel `k` of group `g`. -/
def Chip.onChan (c : Chip) (g k : Nat) (f : Chan → Chan) : Chip :=
  c.setGroup g ((c.group g).setChan k (f ((c.group g).chan k)))
/-- Region `r`, 0 to 63. -/
def Chip.region (c : Chip) (r : Nat) : Region := Tab.get {} c.regions r
/-- Replace region `r`. -/
def Chip.setRegion (c : Chip) (r : Nat) (x : Region) : Chip := { c with regions := Tab.set {} c.regions r x }
/-- Change region `r`. -/
def Chip.onRegion (c : Chip) (r : Nat) (f : Region → Region) : Chip := c.setRegion r (f (c.region r))

/-- Event of pin group `g` (R186). -/
def pgrEvent (g : Nat) : Nat := 224 + g / 16 * 136 + 16 + g % 16
/-- State of a pin group: 0 SAFE, 1 IDLE, 2 ARMED, 3 RUNNING, 4 ABORTED (Table 7.9). -/
def Chip.gstate (c : Chip) (g : Nat) : Nat := c.fld (PGR_STATUS.state g)
/-- Any pin group of the tile is RUNNING. -/
def Chip.anyRunning (c : Chip) : Bool := (List.range 64).any fun g => c.gstate g = 3
/-- A pin group of the quarter is RUNNING. -/
def Chip.quarterRunning (c : Chip) (q : Nat) : Bool := (List.range 16).any fun g => c.gstate (16 * q + g) = 3

/-- Timing sets lie beyond the CSR space: they are reached only through the window of R184. -/
def tsBase (g set : Nat) : Nat := 0x04000000 + 0x1000 * g + 16 * set
/-- Period of a timing set, 16 fraction bits. -/
def TS.period (g set : Nat) : Fld := ⟨tsBase g set, 0, 30, 0x28000000⟩
/-- Offset of drive slot 0. -/
def TS.d0 (g set : Nat) : Fld := ⟨tsBase g set + 4, 0, 14, 0⟩
/-- Offset of drive slot 1. -/
def TS.d1 (g set : Nat) : Fld := ⟨tsBase g set + 4, 14, 14, 0⟩
/-- Format number. -/
def TS.fmt (g set : Nat) : Fld := ⟨tsBase g set + 4, 28, 3, 0⟩
/-- Offset of drive slot 2. -/
def TS.d2 (g set : Nat) : Fld := ⟨tsBase g set + 8, 0, 14, 0⟩
/-- Offset of drive slot 3. -/
def TS.d3 (g set : Nat) : Fld := ⟨tsBase g set + 8, 14, 14, 0⟩
/-- Offset of strobe slot 0. -/
def TS.s0 (g set : Nat) : Fld := ⟨tsBase g set + 12, 0, 14, 0⟩
/-- Offset of strobe slot 1. -/
def TS.s1 (g set : Nat) : Fld := ⟨tsBase g set + 12, 14, 14, 0⟩
/-- Strobe mode, 0 EDGE, 1 WINDOW. -/
def TS.smode (g set : Nat) : Fld := ⟨tsBase g set + 12, 28, 2, 0⟩

/-- Offset of drive slot `i` of a set. -/
def TS.drive (g set i : Nat) : Fld := if i = 0 then TS.d0 g set else if i = 1 then TS.d1 g set else if i = 2 then TS.d2 g set else TS.d3 g set
/-- Action of drive slot `i` in a channel's format. -/
def pchAct (n f i : Nat) : Fld :=
  if i = 0 then PCH_FMT.d0_act n f else if i = 1 then PCH_FMT.d1_act n f else if i = 2 then PCH_FMT.d2_act n f else PCH_FMT.d3_act n f

/-- Place a DRV level on a channel. -/
def Chip.drive (c : Chip) (n level at_ : Nat) : Chip := (c.put (PCH_STATUS.drv n) level).emit (.edge n 0 level at_)
/-- Place a DEN value on a channel. -/
def Chip.enable (c : Chip) (n level at_ : Nat) : Chip := (c.put (PCH_STATUS.den n) level).emit (.edge n 1 level at_)

/-- Present an idle or abort code on a channel (R171): 0 HOLD, 1 LO, 2 HI, 3 OFF. -/
def Chip.present (c : Chip) (n code at_ : Nat) : Chip :=
  if code = 0 then c
  else if code = 3 then (if c.fld (PCH_STATUS.den n) = 0 then c else c.enable n 0 at_)
  else
    let c := if c.fld (PCH_STATUS.drv n) = code - 1 then c else c.drive n (code - 1) at_
    if c.fld (PCH_STATUS.den n) = 1 then c else c.enable n 1 at_

/-- INHIBIT as Table 7.7 has it for the group's state; a slice test of the group asserts it (21 R472). -/
def Chip.inhibitOf (c : Chip) (g : Nat) : Bool :=
  let st := c.gstate g
  !c.tileUp || st = 0 || (st = 4 && c.flag (PGR_ABORT.inhibit g)) || c.flag (PGR_CTRL.inh_force g) || decide (c.bist.run = some (2, g))
/-- INHIBIT follows the state. -/
def Chip.showInhibit (c : Chip) (g : Nat) : Chip :=
  let b := c.inhibitOf g
  if b = c.flag (PGR_STATUS.inhibit g) then c
  else (c.putB (PGR_STATUS.inhibit g) b).emit (.edge g 2 (ofBool (!b)) c.now)
/-- An enabled group that presents DEN on vetoes DORMANT and SEALED (R178). -/
def Chip.denVeto (c : Chip) (g : Nat) : Bool :=
  c.flag (PGR_CTRL.enable g) && (List.range 16).any fun k => c.flag (PCH_STATUS.den (16 * g + k))

/-- The group takes a state and a hold cause (Table 7.7). -/
def Chip.groupTo (c : Chip) (g st cause : Nat) : Chip :=
  (((c.put (PGR_STATUS.state g) st).put (PGR_STATUS.hold_cause g) cause).showInhibit g).doIf (decide (st = 2 ∨ st = 3))
    (·.odAbandon (g / 16))

/-- The active armed flag and the bit that shows it. -/
def Chip.setArmed (c : Chip) (g v : Nat) : Chip := (c.putAct (PGR_ARM.armed g) v).put (PGR_STATUS.armed g) v

/-- Apply measured trims (R181, R183). -/
def Chip.applyCal (c : Chip) (g : Nat) (temp : Int) (trims : List (Int × Int)) : Chip :=
  let c := c.each (List.range 16) fun c k =>
    match trims[k]? with
    | some (d, m) => (c.putS (PCH_CAL_DRV.trim (16 * g + k)) d).putS (PCH_CAL_CMP.trim (16 * g + k)) m
    | none => c
  let c := c.putS (PGR_CAL_TEMP.temp g) temp
  (c.put2 (PGR_CAL_STAMP_LO.stamp_lo g) (PGR_CAL_STAMP_HI.stamp_hi g) (recStamp c.now)).put (PGR_STATUS.cal_stale g) 0

/-- Trims held through the leg are applied when the group leaves RUNNING (R181). -/
def Chip.applyHeldCal (c : Chip) (g : Nat) : Chip :=
  match (c.group g).heldCal with
  | some (t, l) => (c.setGroup g { c.group g with heldCal := none }).applyCal g t l
  | none => c

/-- A LEG record arrives at the fail log (09 R212): `kind` 1 start, 2 end. -/
def Chip.legRecordTo (c : Chip) (g kind stamp hold : Nat) (l : Leg) : Chip :=
  c.flArrive (g / 16) { kind := kind, stamp := stamp, chan := g, mode := c.flMode g,
                        vec := if kind = 1 then 0 else l.count, leg := l.num, launch := l.launch, hold := hold }

/-- Edge instants drop with the leg: what is left scheduled after `t`, its strobes after `t`, its held reflex actions. -/
def PinGroup.cutAfter (p : PinGroup) (t : Nat) : PinGroup :=
  { p with
    leg := none, stalls := [],
    strobes := (p.strobes.map fun e => { e with chans := e.chans.filter fun x => x.at_ ≤ t }).filter fun e => !e.chans.isEmpty,
    chans := p.chans.map fun e => (e.1, { e.2 with sched := e.2.sched.filter fun x => x.at_ ≤ t, held := none,
                                                   lastDrv := none, lastDen := none, lastStb := none, prev := none,
                                                   relVec := none }) }

/-- The APG port's queue is emptied (08 Table 8.11, R205). -/
def Chip.apgEmpty (c : Chip) (g : Nat) : Chip := ({ c with apgs := Tab.set [] c.apgs g [] }).put (APG_STATUS.fill g) 0

/-- What every end of a leg does beside the group's state (R170, R181, 08 R190, R205): LEG record, batch count of a cut leg,
armed flag, APG queue, streamer back to LOADING unless STOPPED, held trims. -/
def Chip.closeLeg (c : Chip) (g hold : Nat) (cut : Bool) (l : Leg) : Chip :=
  let c := (c.legRecordTo g 2 l.fin hold l).stir (g / 16)
  let c := c.doIf cut (·.onBatch fun b => { b with legsCut := b.legsCut + 1 })
  let c := (c.setArmed g 0).apgEmpty g
  let c := match c.feeder g with
    | some n => if c.fld (STR_STATUS.state n) = 3 then c.strLoad n else c
    | none => c
  c.applyHeldCal g

/-- Levels of a state placed as edges at instant `t` plus each channel's drv_adj (R173). -/
def Chip.placeLevels (c : Chip) (g t : Nat) (code : Chip → Nat → Nat) : Chip :=
  c.each (List.range 16) fun c k =>
    let n := 16 * g + k
    let a := signedOf 10 (c.act (PCH_ADJ.drv_adj n))
    c.onChan g k fun x => { x with sched := x.sched ++ [⟨((t : Int) + a).toNat, 2, code c n, 0⟩] }

/-- Levels of a state presented at once (R173). -/
def Chip.presentLevels (c : Chip) (g : Nat) (code : Chip → Nat → Nat) : Chip :=
  c.each (List.range 16) fun c k => c.present (16 * g + k) (code c (16 * g + k)) c.now

/-- Idle drive state code of a channel. -/
def idleCode (c : Chip) (n : Nat) : Nat := c.fld (PCH_CTRL.idle n)
/-- Abort state code of a channel. -/
def abortCode (c : Chip) (n : Nat) : Nat := c.fld (PCH_CTRL.abort n)

/-- The group enters ABORTED (R172, R173): a running leg is cut; HELD carries the cause, the first vector not presented and
the vectors presented. The armed flag clears with the leg, and at a load or a fault (R126, 20 R447). With `at_` the levels are edges at that instant, without it they are presented at once. -/
def Chip.abortGroup (c : Chip) (g cause : Nat) (at_ : Option Nat) : Chip :=
  let p := c.group g
  let t := at_.getD c.now
  let c := c.setGroup g (p.cutAfter t)
  let c := match p.leg with
    | some l => (c.closeLeg g cause true l).raise (pgrEvent g) 1 [cause, recStamp l.next, l.count]
    | none => (c.doIf (decide (cause = 2 ∨ cause = 3)) (·.setArmed g 0)).raise (pgrEvent g) 1 [cause, recStamp t, 0]
  let c := c.groupTo g 4 cause
  match at_ with
  | some t => c.placeLevels g t abortCode
  | none => c.presentLevels g abortCode

/-- Table 7.8: abort the group for a cause its row allows from the group's present state. -/
def Chip.abortRow (c : Chip) (g cause : Nat) (at_ : Option Nat) : Chip :=
  let st := c.gstate g
  let ok := if cause = 1 then st = 1 ∨ st = 2 ∨ st = 3
    else if cause = 2 ∨ cause = 3 ∨ cause = 5 then st ≠ 0 ∧ (st ≠ 4 ∨ cause < c.fld (PGR_STATUS.hold_cause g))
    else if cause = 4 ∨ cause = 6 then st = 3
    else st = 2 ∨ st = 3
  if ok then
    if st = 4 then c.put (PGR_STATUS.hold_cause g) cause else c.abortGroup g cause at_
  else c

/-- The leg ends at a vector boundary and the group returns to IDLE (Table 7.8 row 12); a cut leg is counted and raises the
group's event with hold cause 0 (R173). -/
def Chip.finishLeg (c : Chip) (g : Nat) (cut : Bool) : Chip :=
  let p := c.group g
  match p.leg with
  | none => c
  | some l =>
    let t := l.next
    let c := c.setGroup g { p.cutAfter (t + 16384) with
      strobes := p.strobes, chans := p.chans.map fun e => (e.1, { e.2 with held := none, lastDrv := none, lastDen := none, relVec := none }) }
    let c := (c.closeLeg g 0 cut l).doIf cut (·.raise (pgrEvent g) 1 [0, recStamp l.next, l.count])
    (c.groupTo g 1 0).placeLevels g t idleCode

/-- The group goes to SAFE (Table 7.8 row 1): DEN off and DRV 0 on every channel, a running leg cut. -/
def Chip.toSafe (c : Chip) (g : Nat) : Chip :=
  let p := c.group g
  let c := c.setGroup g (p.cutAfter c.now)
  let c := match p.leg with
    | some l => (c.closeLeg g 0 true l).raise (pgrEvent g) 1 [0, recStamp l.next, l.count]
    | none => c
  let c := c.groupTo g 0 0
  c.each (List.range 16) fun c k =>
    let n := 16 * g + k
    let c := if c.fld (PCH_STATUS.den n) = 0 then c else c.enable n 0 c.now
    if c.fld (PCH_STATUS.drv n) = 0 then c else c.drive n 0 c.now

/-- The group enters IDLE and presents each channel's idle drive state. -/
def Chip.toIdle (c : Chip) (g : Nat) : Chip := (c.groupTo g 1 0).presentLevels g idleCode

/-- PGR_CTRL.enable and inh_force written (Table 7.8 rows 1 and 2). -/
def Chip.pgrCtrlWrite (c : Chip) (g v : Nat) : Chip :=
  let en := (PGR_CTRL.enable g).of v
  let c := (c.put (PGR_CTRL.enable g) en).put (PGR_CTRL.inh_force g) ((PGR_CTRL.inh_force g).of v)
  let c := if en = 0 then (if c.gstate g = 0 then c else c.toSafe g)
    else if c.gstate g = 0 then c.toIdle g else c
  c.showInhibit g

/-- PGR_ENABLE_WRITE (R172). -/
def execPgrEnableWrite (g : Fin 64) (v : Word) (s : State) : Res := s.on (·.pgrCtrlWrite g v.toNat)

/-- PGR_CMD.to_idle (R172 Table 7.8 row 13); refused for LOAD and FAULT. -/
def Chip.cmdToIdle (c : Chip) (g : Nat) : Chip :=
  if c.gstate g = 4 then
    let h := c.fld (PGR_STATUS.hold_cause g)
    if h = 2 ∨ h = 3 then c.put (PGR_ERR.bad_value g) 1 else c.toIdle g
  else c

/-- TO_IDLE (R172). -/
def execToIdle (g : Fin 64) (s : State) : Res := s.on (·.cmdToIdle g)

/-- PGR_CMD.cal_now (R181): refused while RUNNING. -/
def Chip.calNow (c : Chip) (g : Nat) : Chip :=
  if c.gstate g = 3 then c.errEvt (PGR_ERR.cal_refused g) (pgrEvent g) 6 []
  else c.setGroup g { c.group g with measuring := true }

/-- CAL_NOW (R181). -/
def execCalNow (g : Fin 64) (s : State) : Res := s.on (·.calNow g)

/-- CAL_MEASURE (R180): the 1 ms measurement starts, in RUN and IDLE. -/
def execCalMeasure (g : Fin 64) (s : State) : Res := s.on fun c =>
  if c.tileUp && c.qstate (g / 16) < 2 then c.setGroup g { c.group g with measuring := true } else c

/-- CAL_MEASURE_DONE (R181): trims are applied, or held while RUNNING. `trims` are drive and compare trims by channel. -/
def execCalMeasureDone (g : Fin 64) (temp : Int) (trims : List (Int × Int)) (s : State) : Res := s.on fun c =>
  let p := c.group g
  if !p.measuring then c
  else if c.gstate g = 3 then c.setGroup g { p with measuring := false, temp := temp, heldCal := some (temp, trims) }
  else (c.setGroup g { p with measuring := false, temp := temp, heldCal := none }).applyCal g temp trims

/-- CAL_STALE (R183): the die temperature leaves the band of the last applied trim during a leg. -/
def execCalStale (g : Fin 64) (temp : Int) (s : State) : Res := s.on fun c =>
  if c.gstate g = 3 ∧ c.fld (PGR_CAL_LIMIT.limit g) < (temp - c.fldS (PGR_CAL_TEMP.temp g)).natAbs then
    (((c.setGroup g { c.group g with temp := temp }).put (PGR_STATUS.cal_stale g) 1)).errEvt (PGR_ERR.cal_stale g)
      (pgrEvent g) 5 [c.fld (PGR_CAL_TEMP.temp g), patternOf 16 temp]
  else c

/-- The symbol map entry of a channel (R165): data bit, DEN value, expect code. -/
def Chip.mapEntry (c : Chip) (n sym : Nat) : Nat × Nat × Nat :=
  let e := bits (c.act (PCH_MAP.entries n (sym / 4))) (8 * (sym % 4)) 8
  (e % 2, e / 2 % 2, bits e 2 4)

/-- Place of an offset of the vector that starts at a leg's next boundary (R160). -/
def Leg.place (l : Leg) (off : Nat) (adj : Int) : Nat :=
  roundMT (((l.t * 65536 + l.sum + off * 65536 : Nat) : Int) + adj * 65536)

/-- Insert a scheduled edge behind every edge not later than it. -/
def insertEdge (e : EdgeEv) : List EdgeEv → List EdgeEv
  | [] => [e]
  | x :: l => if e.at_ < x.at_ then e :: x :: l else x :: insertEdge e l

/-- Level a drive-slot action places (Table 7.2). -/
def slotLevel (act data : Nat) : Nat := if act = 1 then data else if act = 2 then 1 - data else if act = 3 then 1 else 0

/-- Schedule what one vector brings to one channel (R160, R162): its DEN change, then its drive edges. -/
def Chip.scheduleEdges (c : Chip) (g k ts sym : Nat) (l : Leg) : Chip :=
  let n := 16 * g + k
  let f := c.act (TS.fmt g ts)
  let (data, den, expect) := c.mapEntry n sym
  let den := if expect = 4 then 0 else den
  let adj := signedOf 10 (c.act (PCH_ADJ.drv_adj n))
  let slots := (List.range 4).filterMap fun i =>
    let a := c.act (pchAct n f i)
    if a = 0 then none else some (⟨l.place (c.act (TS.drive g ts i)) adj, 0, slotLevel a data, l.count⟩ : EdgeEv)
  let denEv : EdgeEv := ⟨l.place (c.act (TS.drive g ts (c.act (PCH_FMT.den_slot n f)))) adj, 1, den, l.count⟩
  let new := slots.foldl (fun acc e => insertEdge e acc) [denEv]
  c.onChan g k fun x => { x with sched := x.sched ++ new }

/-- The channels a strobe slot of a vector strobes, with their instants (R160, R162). -/
def Chip.strobeChans (c : Chip) (g ts slot off : Nat) (syms : List Nat) (l : Leg) : List StrobeCh :=
  let f := c.act (TS.fmt g ts)
  (List.range 16).filterMap fun k =>
    let n := 16 * g + k
    let (data, _, expect) := c.mapEntry n (syms.getD k 0)
    if bit (c.act (PCH_FMT.s_en n f)) slot then
      some ⟨k, l.place off (signedOf 10 (c.act (PCH_ADJ.cmp_adj n))), expect, data⟩
    else none

/-- The MATCH iterations a vector of a group belongs to: frame number and iteration, for channels in chmask (08 R199). -/
def Chip.liveIters (c : Chip) (g : Nat) : List (Nat × Nat) :=
  match c.feeder g with
  | some n => ((c.str n).stack.filter (·.isMatch)).map fun f => (f.id, f.iter)
  | none => []

/-- Count strobes scheduled into the open iterations of the feeder's MATCH frames (08 R199). -/
def Chip.countSched (c : Chip) (g : Nat) (e : StrobeEv) : Chip :=
  match c.feeder g with
  | some n => c.onStr n fun x => { x with stack := x.stack.map fun f =>
      if f.isMatch then
        let m := (e.chans.filter fun y => bit f.chmask y.k)
        let (a, b, d, t, cl) := Tab.get (0, 0, 0, 0, false) f.iters f.iter
        if m.isEmpty then f
        else { f with iters := Tab.set (0, 0, 0, 0, false) f.iters f.iter (a + m.length, b, d, m.foldl (fun t y => max t y.at_) t, cl) }
      else f }
  | none => c

/-- Add one strobe to the group's schedule when it strobes any channel. -/
def Chip.addStrobe (c : Chip) (g : Nat) (e : StrobeEv) : Chip :=
  if e.chans.isEmpty then c
  else (c.setGroup g { c.group g with strobes := (c.group g).strobes ++ [e] }).countSched g e

/-- One vector is presented (R160 to R162, R165): edges and strobes of every channel scheduled, the leg moves on by the
set's period. `base` is the APG address the vector drew, `line` the streamer line. -/
def Chip.presentVector (c : Chip) (g ts : Nat) (syms : List Nat) (apg : Option Nat) (line : Option (Nat × Nat))
    (taint : Bool) (l : Leg) : Chip :=
  let c := c.each (List.range 16) fun c k => c.scheduleEdges g k ts (syms.getD k 0) l
  let win := c.act (TS.smode g ts) = 1
  let ev (slot off : Nat) : StrobeEv :=
    ⟨slot, win, c.strobeChans g ts slot off syms l, l.count, ts, apg, line, taint, c.liveIters g, l.num⟩
  let s0 := c.act (TS.s0 g ts)
  let s1 := c.act (TS.s1 g ts)
  let c := if win then
      let e := ev 0 s1
      c.addStrobe g { e with slot := 0 }
    else
      let e0 := ev 0 s0
      let e1 := ev 1 s1
      if s1 < s0 then (c.addStrobe g e1).addStrobe g e0 else (c.addStrobe g e0).addStrobe g e1
  let per := c.act (TS.period g ts)
  let p := c.group g
  let l' : Leg := { l with sum := l.sum + per, count := l.count + 1, ts := ts, period := per }
  let c := c.setGroup g { p with leg := some { l' with fin := l'.next, lastAt := l.next } }
  let c := c.doIf (decide (l.count = 0)) fun c => c.put2 (PGR_LEG_STAMP_LO.stamp_lo g) (PGR_LEG_STAMP_HI.stamp_hi g) (recStamp l.next)
  c.put2 (PGR_VEC_LO.vec_lo g) (PGR_VEC_HI.vec_hi g) (l.count + 1)

/-- A period is skipped (R175, R176): the grid goes on, nothing is placed. -/
def Chip.skipPeriod (c : Chip) (g : Nat) (l : Leg) : Chip :=
  let p := c.group g
  (c.setGroup g { p with leg := some { l with sum := l.sum + l.period } }).incSat (PGR_STALL_VEC.count g)

/-- What a source offers for a vector: nothing ready, a void, a poisoned vector (line and response), or symbols. -/
inductive Offer where
  | void
  | poison (line resp : Nat)
  | vector (syms : List Nat) (ts : Nat) (line : Nat) (taint : Bool)
deriving DecidableEq, Repr

/-- The streamer's offer for the next vector (08 R193, R197, R206): the next vector of its VEC; with none left, a poisoned
instruction line marks the next vector poisoned, and an instruction not held is a void. -/
def Chip.strOffer (c : Chip) (n : Nat) : Offer :=
  let x := c.str n
  let a := if x.left = 0 then c.strPc n else x.vaddr
  if c.fld (STR_STATUS.state n) ≠ 3 then .void
  else match x.line a with
    | none => .void
    | some b =>
      if b.resp ≠ 0 then .poison (a / 64 * 64) b.resp
      else
        let w := c.strWidth n
        let v := bits b.data (a % 64 * 8) (16 * w)
        .vector ((List.range 16).map fun k => bits v (k * w) w) x.ts (a / 64 * 64) b.taint

/-- The streamer has an instruction to execute before its next vector. -/
def Chip.strPending (c : Chip) (n : Nat) : Bool :=
  c.fld (STR_STATUS.state n) = 3 && (c.str n).left = 0 && ((c.str n).instrAt (c.strPc n)).isSome

/-- The APG port's offer for a vector that starts at `b` (08 R203): the oldest beat pushed at least 8,192 MT before. -/
def Chip.apgOffer (c : Chip) (g b : Nat) : Offer :=
  match Tab.get [] c.apgs g with
  | [] => .void
  | x :: _ =>
    if b < x.edge + 8192 then .void
    else if x.poison then .poison 0 3
    else if x.void then .void
    else .vector ((List.range 16).map fun k => bits x.sym (64 * x.taken + 4 * k) 4) x.ts
      ((x.base + x.taken * c.fld (APG_STEP.step g)) % 2 ^ 32) false

/-- The port gives up a vector of its oldest beat; a beat emptied is taken (08 R202). True when the beat's last vector ends
an APG-mastered leg. -/
def Chip.apgTake (c : Chip) (g : Nat) : Chip × Bool :=
  match Tab.get [] c.apgs g with
  | [] => (c, false)
  | x :: rest =>
    if x.taken + 1 < x.count then ({ c with apgs := Tab.set [] c.apgs g ({ x with taken := x.taken + 1 } :: rest) }, false)
    else (({ c with apgs := Tab.set [] c.apgs g rest }.put (APG_STATUS.fill g) rest.length).emit (.fabric g 1 []), x.last)

/-- The streamer gives up a vector: the next one of its VEC; its line is used, and a line known to have failed its tag is
tainted (08 R206). -/
def Chip.strTake (c : Chip) (n b : Nat) : Chip :=
  let w := c.strWidth n
  let x := c.str n
  let a := x.vaddr / 64 * 64
  let t := recStamp b
  let bad := match Tab.get none x.lines a with | some l => l.taint | none => false
  let lines := match Tab.get none x.lines a with
    | some l => Tab.set none x.lines a (some { l with used := true, first := if l.used then l.first else t, last := t })
    | none => x.lines
  let c := c.setStr n { x with left := x.left - 1, vaddr := x.vaddr + 2 * w, lines := lines, idle := 0 }
  let c := if bad then (c.strFault n a 0).errEvt (STR_ERR.taint n) (strEvent n) 6 [a, t, t] else c
  c.strPrefetch n

/-- STALL holds the vector that starts at `b` (09 R225): asked for at least 65,536 MT before, and not yet 65,536 MT after its
end. -/
def PinGroup.stalledAt (p : PinGroup) (b : Nat) : Bool :=
  p.stalls.any fun e => e.1 + 65536 ≤ b && (match e.2 with | none => true | some u => b < u + 65536)

/-- A void from the streamer (08 R197): counted, and the first of a leg sets underrun. -/
def Chip.strVoid (c : Chip) (n b : Nat) (first : Bool) : Chip :=
  let c := c.incSat (STR_VOID_CNT.count n)
  if first then c.errEvt (STR_ERR.underrun n) (strEvent n) 4 [recStamp b] else c

/-- VECTOR_START (R160, R175 to R177, 08 R193 to R206): the next vector of a RUNNING group is presented, stalled, or aborts
the group when it is poisoned. A leg asked to end presents none: LEG_END ends it. -/
def Chip.vectorStart (c : Chip) (g : Nat) : Chip :=
  let p := c.group g
  match p.leg with
  | none => c
  | some l =>
    if l.ending ≠ 0 then c else
    let b := l.next
    if p.stalledAt b then c.skipPeriod g l
    else
      let past (e : Nat × Option Nat) : Bool := match e.2 with | some u => u + 65536 ≤ b | none => false
      let c := c.setGroup g { p with stalls := p.stalls.filter fun e => !past e }
      let fed := c.feeder g
      let anyApg := (List.range 16).any fun k => c.act (PCH_SRC.src (16 * g + k)) = 1
      let tsApg := c.act (PGR_SRC.ts_src g) = 1
      let useApg := anyApg || tsApg || fed.isNone
      let so := match fed with | some n => c.strOffer n | none => .vector (List.replicate 16 0) 0 0 false
      let pend : Bool := match fed with | some n => c.strPending n | none => false
      let ao := if useApg then c.apgOffer g b else .vector (List.replicate 16 0) 0 0 false
      if pend && (match ao with | .vector .. => true | _ => false) then c else
      match so, ao with
      | .poison a r, _ =>
        let c := match fed with | some n => c.strPoison n a r b | none => c
        c.abortGroup g 6 none
      | _, .poison _ _ => c.abortGroup g 6 none
      | .vector ss st line taint, .vector as_ at_ base _ =>
        let syms := (List.range 16).map fun k =>
          if c.act (PCH_SRC.src (16 * g + k)) = 1 then as_.getD k 0 else ss.getD k 0
        let ts := if tsApg then at_ else st
        let c := match fed with | some n => c.strTake n b | none => c
        let (c, last) := if useApg then c.apgTake g else (c, false)
        let c := c.presentVector g ts syms (if useApg then some base else none) (fed.map fun n => (n, line)) taint l
        if last && fed.isNone then c.endLegReq g 5 else c
      | s', a' =>
        let c := match fed, s' with
          | some n, .void =>
            let c := c.strVoid n b (!l.voided)
            c.setGroup g { c.group g with leg := some { l with voided := true } }
          | _, _ => c
        let c := match a' with
          | .void =>
            match Tab.get [] c.apgs g with
            | x :: _ =>
              if useApg && x.void && decide (x.edge + 8192 ≤ b) then
                let (c, last) := c.apgTake g
                if last && fed.isNone then c.endLegReq g 5 else c
              else c.doIf useApg (·.incSat (APG_VOID_CNT.count g))
            | [] => c.doIf useApg (·.incSat (APG_VOID_CNT.count g))
          | _ => c
        let l := ((c.group g).leg).getD l
        c.skipPeriod g l

/-- The buffer line the group's streamer reads next fails its CRC: it is dropped, counted and fetched again (08 R197). -/
def Chip.strCrcFail (c : Chip) (g : Nat) : Chip :=
  match c.feeder g with
  | none => c
  | some n =>
    let x := c.str n
    let a := (if x.left = 0 then c.strPc n else x.vaddr) / 64 * 64
    if c.fld (STR_STATUS.state n) ≠ 3 ∨ (x.line a).isNone then c
    else
      let c := c.setStr n { x with lines := Tab.set none x.lines a none }
      ((c.incSat (STR_CRC_CNT.count n)).strShow n).strPrefetch n

/-- VECTOR_START (R160); `crc` says that the line the streamer reads fails its CRC. -/
def execVectorStart (g : Fin 64) (crc : Bool) (s : State) : Res := s.on fun c => (c.doIf crc (·.strCrcFail g)).vectorStart g

/-- LEG_END (R172 row 12, 08 R205, R206): a leg whose end was asked for ends at its boundary. A program error cuts it
(08 Table 8.9); the power-fail mark holds the group ABORTED. -/
def Chip.legEnd (c : Chip) (g : Nat) : Chip :=
  match (c.group g).leg with
  | none => c
  | some l =>
    if l.ending = 0 then c
    else if l.ending = 4 then c.abortGroup g 1 (some l.next)
    else c.finishLeg g (l.ending = 2)

/-- LEG_END (R205). -/
def execLegEnd (g : Fin 64) (s : State) : Res := s.on (·.legEnd g)

/-- A dropped edge or strobe (R164): counted; the first raises EDGE_DROP. -/
def Chip.dropEdge (c : Chip) (n at_ : Nat) : Chip :=
  (c.incSat (PCH_DROP_CNT.count n)).errEvt (PCH_ERR.edge_drop n) (pgrEvent (n / 16)) 3 [n, recStamp at_]

/-- Closer than 106 MT to the previous one (R163, R164). -/
def tooClose (last : Option Nat) (at_ : Nat) : Bool := match last with | some t => at_ < t + 106 | none => false

/-- A RELEASE at the vector `v` or later keeps a DEN change of vector `vec` off (R169). -/
def relBlocks (rel : Option Nat) (vec : Nat) : Bool :=
  match rel with | some v => decide (vec ≤ v) | none => false

/-- DRIVE_EDGE (R160, R162, R164, R169, R173): the next scheduled edge or DEN change of channel `n`. -/
def Chip.driveEdge (c : Chip) (n : Nat) : Chip :=
  let g := n / 16
  let k := n % 16
  let x := (c.group g).chan k
  match x.sched with
  | [] => c
  | e :: rest =>
    let c := c.onChan g k fun x => { x with sched := rest }
    if e.kind = 2 then c.present n e.level e.at_
    else if e.kind = 1 then
      if c.fld (PCH_STATUS.den n) = e.level then c
      else if relBlocks x.relVec e.vec then c
      else if tooClose x.lastDen e.at_ then c.dropEdge n e.at_
      else (c.onChan g k fun x => { x with lastDen := some e.at_ }).enable n e.level e.at_
    else if tooClose x.lastDrv e.at_ then c.dropEdge n e.at_
    else
      let c := c.onChan g k fun x => { x with lastDrv := some e.at_ }
      match x.held with
      | some (a, from_) =>
        if from_ ≤ e.at_ then
          let c := c.onChan g k fun x => { x with held := none }
          if a = 3 then
            let c := (c.drive n e.level e.at_).onChan g k fun x => { x with relVec := some e.vec }
            if c.fld (PCH_STATUS.den n) = 0 then c
            else (c.onChan g k fun x => { x with lastDen := some e.at_ }).enable n 0 e.at_
          else c.drive n (if a = 1 then 1 else 0) e.at_
        else c.drive n e.level e.at_
      | none => c.drive n e.level e.at_

/-- DRIVE_EDGE (R160). -/
def execDriveEdge (n : Fin 1024) (s : State) : Res := s.on (·.driveEdge n)

/-- Whether a compare passes (R166 Table 7.4); `prev` is the level sampled at the previous enabled strobe of the leg. -/
def comparePass (expect h l data : Nat) (prev : Option (Nat × Nat)) : Bool :=
  let isH := h = 1 && l = 0
  let isL := l = 1 && h = 0
  match expect with
  | 0 => true
  | 1 => isL
  | 2 => isH
  | 3 => h = 0 && l = 0
  | 4 => h = 0 && l = 0
  | 5 => h != l
  | 6 => l = 0
  | 7 => h = 0
  | 8 => match prev with
    | none => true
    | some (ph, pl) => !(ph = 1 && pl = 1) && ph = h && pl = l
  | 9 => true
  | 10 => if data = 1 then isH else isL
  | 11 => if data = 1 then isL else isH
  | _ => false

/-- A window result from the longest mismatch in it (R167): 48 MT or longer fails, none passes, and what lies between is
detected or not as the free value of this compare says. -/
def windowFail (mismatch free : Nat) : Bool := 48 ≤ mismatch || (0 < mismatch && Sys2Proof.Config.shortMismatchSeen free)

/-- One channel's compare at a strobe (R164, R166 to R168): the chip, and its result (fail) unless the strobe is dropped. -/
def Chip.compareChan (c : Chip) (g : Nat) (e : StrobeEv) (y : StrobeCh) (h l mismatch : Nat) : Chip × Option Nat :=
  let n := 16 * g + y.k
  let x := (c.group g).chan y.k
  if tooClose x.lastStb y.at_ then (c.dropEdge n y.at_, none)
  else
    let c := c.doIf (h = 1 && l = 1) fun c =>
      (c.incSat (PCH_BOTH_CNT.count n)).errEvt (PCH_ERR.cmp_both n) (pgrEvent g) 4 [n, recStamp y.at_]
    let fail := if e.window && y.expect ≠ 0 && y.expect ≠ 9 && !(y.expect = 8 && x.prev.isNone) then windowFail mismatch c.free
      else !comparePass y.expect h l y.data x.prev
    let c := { c with free := if e.window && decide (0 < mismatch) && decide (mismatch < 48) then c.free + 1 else c.free }
    let c := c.onChan g y.k fun x => { x with lastStb := some y.at_, prev := some (h, l) }
    (c, some (ofBool fail))

/-- The destination codes whose OR of terms is 1 (R115): a term is its inputs that must be 1, those that must be 0, its code. -/
def reflexDests (terms : List (Nat × Nat × Nat)) (inputs : Nat) : List Nat :=
  (terms.filter fun t => (inputs &&& t.1) = t.1 && (inputs &&& t.2.1) = 0).map fun t => t.2.2

/-- The reflex block acts under R118: hold, load or fault of its region. -/
def Chip.reflexHeld (c : Chip) (r : Nat) : Bool :=
  c.flag (FAB_CTRL.reflex_hold r) || (c.region r).loading || (c.region r).frozen || !(c.region r).loaded

/-- One evaluation of the reflex block of group `g` at instant `at_` (R114 to R118, R169, R170). -/
def Chip.reflexEval (c : Chip) (g inputs at_ : Nat) : Chip :=
  if c.reflexHeld g then c else
  let d := reflexDests (c.region g).reflex inputs
  let c := c.each (List.range 16) fun c k =>
    let hi := d.contains (k + 1)
    let lo := d.contains (k + 17)
    let rel := d.contains (k + 33)
    let c := c.doIf (hi && lo) (·.incSat (FAB_REFLEX_CONFLICT_CNT.count g))
    let act := if rel then 3 else if hi && lo then 0 else if hi then 1 else if lo then 2 else 0
    if act = 0 then c else c.onChan g k fun x => { x with held := some (act, at_ + 2458) }
  let fs := numbersBelow 4 fun f => d.contains (49 + f)
  if fs.isEmpty then c
  else
    let c := c.put (FAB_REFLEX_FLAGS.flags g) (c.fld (FAB_REFLEX_FLAGS.flags g) ||| maskOf fs)
    let c := c.put2 (FAB_REFLEX_STAMP_LO.stamp_lo g) (FAB_REFLEX_STAMP_HI.stamp_hi g) (recStamp at_)
    c.onRegion g fun r => { r with flagAt := fs.foldl (fun t f => Tab.set 0 t f at_) r.flagAt }

/-- A result counted on a MATCH frame: its iteration's strobes scheduled, done, failed (08 R199); a dropped strobe is taken
off the strobes scheduled. -/
def StrFrame.count1 (f : StrFrame) (k : Nat) (iters : List (Nat × Nat)) (res : Option Nat) : StrFrame :=
  match iters.lookup f.id with
  | none => f
  | some it =>
    if f.isMatch && bit f.chmask k then
      let (a, b, d, t, cl) := Tab.get (0, 0, 0, 0, false) f.iters it
      let v := match res with
        | some r => (a, b + 1, d + r, t, cl)
        | none => (a - 1, b, d, t, cl)
      { f with iters := Tab.set (0, 0, 0, 0, false) f.iters it v }
    else f

/-- Report a counted result to the MATCH iterations of the feeder (08 R199). -/
def Chip.countResult (c : Chip) (g k : Nat) (iters : List (Nat × Nat)) (res : Option Nat) : Chip :=
  match c.feeder g with
  | none => c
  | some n => c.onStr n fun x => { x with stack := x.stack.map fun f => f.count1 k iters res }

/-- COMPARE_STROBE (R166 to R168, 04 R114, 09 R213): the group's next scheduled strobe. `h` and `l` are the comparators of
the 16 channels at it, `rctl` the region control bits, `win` the longest mismatch of each channel in a window, in MT. -/
def Chip.compareStrobe (c : Chip) (g h l rctl : Nat) (win : List Nat) : Chip :=
  match (c.group g).strobes with
  | [] => c
  | e :: rest =>
    let c := c.setGroup g { c.group g with strobes := rest }
    let c := c.each (List.range 16) fun c k =>
      (c.put (PCH_STATUS.cmph (16 * g + k)) (h / 2 ^ k)).put (PCH_STATUS.cmpl (16 * g + k)) (l / 2 ^ k)
    let stale := c.flag (PGR_STATUS.cal_stale g)
    let taint := e.taint || (match e.line with
      | some (n, a) => (match Tab.get none (c.str n).lines a with | some b => b.taint | none => false)
      | none => false)
    let step (acc : Chip × List (Nat × Nat)) (y : StrobeCh) : Chip × List (Nat × Nat) :=
      let hk := h / 2 ^ y.k % 2
      let (c, r) := acc.1.compareChan g e y hk (l / 2 ^ y.k % 2) (win.getD y.k 0)
      let c := c.countResult g y.k e.iters r
      match r with
      | none => (c, acc.2)
      | some fail =>
        let n := 16 * g + y.k
        let c := c.emit (.strobe n fail y.at_)
        let it : FlItem :=
          { kind := 0, stamp := y.at_, chan := n, mode := c.flMode g, expect := y.expect, cmph := hk,
            ts := e.ts, vec := e.vec, leg := e.leg, apg := e.apg, window := e.window, slot := e.slot, stale := stale,
            taint := taint, oot := !c.inTol, line := e.line }
        let c := if fail = 1 || c.afterMark y.at_ then c.flArrive (g / 16) it else c
        (c, (y.k, fail) :: acc.2)
    let (c, res) := e.chans.foldl step (c, [])
    if res.isEmpty then c
    else
      let inputs := (List.range 16).foldl (fun m k =>
        m + (if res.contains (k, 1) then 2 ^ (2 * k) else 0) + (h / 2 ^ k % 2) * 2 ^ (2 * k + 1)) (rctl % 256 * 2 ^ 32)
      c.reflexEval g inputs (e.chans.foldl (fun t y => max t y.at_) 0)

/-- COMPARE_STROBE (R166). -/
def execCompareStrobe (g : Fin 64) (cmph cmpl : BitVec 16) (rctl : Byte) (win : List Nat) (s : State) : Res :=
  s.on (·.compareStrobe g cmph.toNat cmpl.toNat rctl.toNat win)

/-- A push at a rising edge of the port's clock (08 R202), judged in the order the rule gives. A clock that is off has no
edge and nothing is sampled. -/
def Chip.apgPush (c : Chip) (g sym count ts base : Nat) (last void poison : Bool) : Chip :=
  let q := Tab.get [] c.apgs g
  if (c.region g).loading || (c.region g).frozen || !c.gckRuns (g / 16) (c.fld (APG_CTRL.gck g)) then c
  else if count = 0 then c
  else if 16 < count then c.put (APG_ERR.bad_count g) 1
  else if !c.flag (APG_CTRL.en g) || 8 ≤ q.length then c.put (APG_ERR.overflow g) 1
  else { c with apgs := Tab.set [] c.apgs g (q ++ [(⟨sym, count, ts, base, last, void, poison, c.now, 0⟩ : Beat)]) }.put
    (APG_STATUS.fill g) (q.length + 1)

/-- APG_PUSH (08 R202). -/
def execApgPush (g : Fin 64) (sym : BitVec 1024) (count : BitVec 5) (ts : Byte) (base : Word) (last void poison : Bool)
    (s : State) : Res :=
  s.on (·.apgPush g sym.toNat count.toNat ts.toNat base.toNat last void poison)

/-- A write of APG_CTRL (`step` false) or APG_STEP (08 R210): discarded while the group is RUNNING. -/
def Chip.apgCtrlWrite (c : Chip) (g : Nat) (step : Bool) (v : Nat) : Chip :=
  if c.gstate g = 3 then c.put (APG_ERR.bad_value g) 1
  else if step then c.put (APG_STEP.step g) v
  else (c.put (APG_CTRL.gck g) ((APG_CTRL.gck g).of v)).put (APG_CTRL.en g) ((APG_CTRL.en g).of v)

/-- APG_CTRL_WRITE (08 R210). -/
def execApgCtrlWrite (g : Fin 64) (step : Bool) (v : Word) (s : State) : Res := s.on (·.apgCtrlWrite g step v.toNat)

end Sys2Proof.Machine
end

