-- ==== Sys2Proof/Machine/StreamOps.lean ====
section
/-! DEFINITION. The instructions of the pattern streamers (08 R192 to R201, R205, R206) and late taint of their lines. -/

namespace Sys2Proof.Machine

/-- The next vector of the group cannot be presented at `b`: STALL holds it, or an APG port it draws on delivers it void. A
decision due there moves to the next vector presented (R201). -/
def Chip.willSkip (c : Chip) (g b : Nat) : Bool :=
  let anyApg := (List.range 16).any fun k => c.act (PCH_SRC.src (16 * g + k)) = 1
  (c.group g).stalledAt b ||
    ((anyApg || decide (c.act (PGR_SRC.ts_src g) = 1)) && (match c.apgOffer g b with | .void => true | _ => false))

/-- A decision that waits has not been executed (R201). -/
def Chip.strWait (c : Chip) (n : Nat) : Chip := c.onStr n fun x => { x with idle := x.idle - 1 }

/-- Execute the instruction at STR_PC when its operation satisfies `p`: the streamer RUNNING with no vector left of its VEC,
its leg not asked to end (R207: HALT goes before a decision), the instruction's line held. The 64th instruction in a row
without a vector is the program error SPIN (Table 8.9). -/
def Chip.strExec (c : Chip) (n : Nat) (p : Nat → Bool) (f : Chip → SInstr → Nat → Nat → Chip) : Chip :=
  if c.fld (STR_STATUS.state n) ≠ 3 then c else
  match c.strGroup n with
  | none => c
  | some g =>
    match (c.group g).leg with
    | none => c
    | some l =>
      if l.ending ≠ 0 ∨ (c.str n).left ≠ 0 then c else
      match (c.str n).instrAt (c.strPc n) with
      | none => c
      | some i =>
        if !p i.op then c
        else if 63 ≤ (c.str n).idle ∧ ¬(i.op = 1 ∧ i.count ≠ 0) then c.strError n 5
        else f (c.onStr n fun x => { x with idle := x.idle + 1 }) i g l.next

/-- Go on at `a`; a target not 16-byte aligned is the program error ALIGN. -/
def Chip.strGoto (c : Chip) (n a : Nat) : Chip :=
  if a % 16 ≠ 0 then c.strError n 4 else ((c.setPc n a).strShow n).strPrefetch n
/-- Go on with the next instruction. -/
def Chip.strNext (c : Chip) (n : Nat) : Chip := ((c.setPc n (c.strPc n + 16)).strShow n).strPrefetch n

/-- STR_NOP (R192). -/
def execStrNop (n : Fin 72) (s : State) : Res := s.on fun c => c.strExec n (· = 0) fun c _ _ _ => c.strNext n

/-- STR_VEC (R193, R198): the vectors from addr follow; a count of 0 presents nothing. -/
def Chip.strVec (c : Chip) (n : Nat) (i : SInstr) : Chip :=
  if i.addr % (2 * c.strWidth n) ≠ 0 then c.strError n 4
  else (c.onStr n fun x => { x with left := i.count, vaddr := i.addr, ts := if i.setTs then i.ts else x.ts }).strNext n
/-- STR_VEC (R193). -/
def execStrVec (n : Fin 72) (s : State) : Res := s.on fun c => c.strExec n (· = 1) fun c i _ _ => c.strVec n i

/-- Push a frame: none for a count of 0, whose body is skipped; onto a full stack it is the program error STACK (R198). -/
def Chip.strPush (c : Chip) (n : Nat) (i : SInstr) (isMatch : Bool) : Chip :=
  if i.addr % 16 ≠ 0 then c.strError n 4
  else if i.count = 0 then c.strGoto n i.addr
  else if 16 ≤ (c.str n).stack.length then c.strError n 2
  else
    let pc := c.strPc n
    let x := c.str n
    let f : StrFrame := ⟨isMatch, pc + 16, i.addr, i.count, 1, i.cond, i.flag, i.action, i.chmask, pc, x.nextId, []⟩
    let c := c.setStr n { x with stack := f :: x.stack, nextId := x.nextId + 1 }
    (if isMatch then c.put (STR_MATCH_ITER.iter n) 1 else c).strNext n

/-- STR_LOOP (R198). -/
def execStrLoop (n : Fin 72) (s : State) : Res := s.on fun c => c.strExec n (· = 2) fun c i _ _ => c.strPush n i false

/-- Bytes of the body from `pc` to `stop`: its instructions and the data of its VECs (R195). -/
def Streamer.bodyBytes (x : Streamer) (w : Nat) (stop : Nat) : Nat → Nat → Nat
  | 0, _ => 0
  | fuel + 1, pc =>
    if stop ≤ pc then 0
    else 16 + (match x.instrAt pc with | some i => if i.op = 1 then i.count * 2 * w else 0 | none => 0) +
      Streamer.bodyBytes x w stop fuel (pc + 16)

/-- The body runs again (R195): a body of at most 512 KiB stays resident under pin_loops, any other is fetched again. -/
def Chip.strAgain (c : Chip) (n : Nat) (f : StrFrame) : Chip :=
  let x := c.str n
  let pin := bit (c.strCtrl n) 0 && x.bodyBytes (c.strWidth n) f.after 32769 f.body ≤ 524288
  let lines := if pin then x.lines.map fun e => (e.1, e.2.map fun l => if l.used then { l with keep := true } else l)
    else x.lines.filter fun e => match e.2 with | some l => !l.used || l.keep || e.1 = f.body / 64 * 64 | none => true
  ((c.setStr n { x with lines := lines }).putB (STR_STATUS.pinned n) pin).strGoto n f.body

/-- A frame is popped; its body no longer stays resident. -/
def Chip.strPop (c : Chip) (n : Nat) : Chip :=
  let loosen (l : BufLine) : BufLine := { l with keep := false }
  let x := c.str n
  (c.setStr n { x with stack := x.stack.drop 1, lines := x.lines.map fun e => (e.1, e.2.map loosen) }).put (STR_STATUS.pinned n) 0

/-- STR_ENDL (R198): back to the body while the count stays above 0, else on after the ENDL. -/
def Chip.strEndl (c : Chip) (n : Nat) : Chip :=
  match (c.str n).stack with
  | f :: rest =>
    if f.isMatch then c.strError n 3
    else if f.count ≤ 1 then (c.strPop n).strNext n
    else (c.onStr n fun x => { x with stack := { f with count := f.count - 1 } :: rest }).strAgain n f
  | [] => c.strError n 3
/-- STR_ENDL (R198). -/
def execStrEndl (n : Fin 72) (s : State) : Res := s.on fun c => c.strExec n (· = 3) fun c _ _ _ => c.strEndl n

/-- STR_MATCH (R199): a reserved cond or on_timeout is the program error OPCODE. -/
def Chip.strMatch (c : Chip) (n : Nat) (i : SInstr) : Chip :=
  if i.cond = 3 ∨ i.action = 3 then c.strError n 1 else c.strPush n i true
/-- STR_MATCH (R199). -/
def execStrMatch (n : Fin 72) (s : State) : Res := s.on fun c => c.strExec n (· = 4) fun c i _ _ => c.strMatch n i

/-- The iteration of a MATCH frame that ends: its counted strobes are all known. -/
def StrFrame.close (f : StrFrame) : StrFrame :=
  let (a, d, fl, t, _) := Tab.get (0, 0, 0, 0, false) f.iters f.iter
  { f with iters := Tab.set (0, 0, 0, 0, false) f.iters f.iter (a, d, fl, t, true) }

/-- The instant at which an iteration meets PASS (0) or FAIL (1): of its last counted strobe, once all are in (R199). -/
def iterMet (cond : Nat) (v : Nat × Nat × Nat × Nat × Bool) : Option Nat :=
  let (sched, done, failed, last, closed) := v
  if closed && 0 < sched && done = sched && (if cond = 0 then failed = 0 else 0 < failed) then some last else none

/-- Reflex flag `f` of the group's region is set with a stamp no later than `b` less the decision lead (R199, R200). -/
def Chip.flagMet (c : Chip) (g f b : Nat) : Bool :=
  bit (c.fld (FAB_REFLEX_FLAGS.flags g)) f && Tab.get 0 (c.region g).flagAt f + 16384 ≤ b
/-- Clear reflex flag `f`. -/
def Chip.clearFlag (c : Chip) (g f : Nat) : Chip :=
  c.put (FAB_REFLEX_FLAGS.flags g) (withBit (c.fld (FAB_REFLEX_FLAGS.flags g)) f false)

/-- A MATCH frame's condition is met by a completion no later than `b` less the lead (R199). -/
def Chip.matchMet (c : Chip) (g b : Nat) (f : StrFrame) : Bool :=
  if f.cond = 2 then c.flagMet g f.flag b
  else f.iters.any fun e => match iterMet f.cond e.2 with | some t => decide (t + 16384 ≤ b) | none => false

/-- A MATCH times out (R199): counted, its event, its action. -/
def Chip.strTimeout (c : Chip) (n g : Nat) (f : StrFrame) (endm : Nat) : Chip :=
  let c := (c.strPop n).incSat (STR_TIMEOUT_CNT.count n)
  let c := c.errEvt (STR_ERR.match_timeout n) (strEvent n) 5 [f.here, f.iter, f.action]
  if f.action = 0 then c.strGoto n f.after
  else if f.action = 1 then c.strGoto n endm
  else c.endLegReq g 1

/-- STR_ENDM (R199): the iteration boundary `b`. -/
def Chip.strEndm (c : Chip) (n : Nat) (i : SInstr) (g b : Nat) : Chip :=
  match (c.str n).stack with
  | f :: rest =>
    if !f.isMatch then c.strError n 3
    else if c.willSkip g b then c.strWait n
    else
      let f := f.close
      if c.matchMet g b f then
        let c := if f.cond = 2 then c.clearFlag g f.flag else c
        (c.strPop n).strGoto n f.after
      else if f.count ≤ f.iter then c.strTimeout n g f i.addr
      else
        let c := c.put (STR_MATCH_ITER.iter n) (f.iter + 1)
        (c.onStr n fun x => { x with stack := { f with iter := f.iter + 1 } :: rest }).strAgain n f
  | [] => c.strError n 3
/-- STR_ENDM (R199). -/
def execStrEndm (n : Fin 72) (s : State) : Res := s.on fun c => c.strExec n (· = 5) fun c i g b => c.strEndm n i g b

/-- STR_BRF (R200): taken, the flag is cleared. -/
def Chip.strBrf (c : Chip) (n : Nat) (i : SInstr) (g b : Nat) : Chip :=
  if i.addr % 16 ≠ 0 then c.strError n 4
  else if c.willSkip g b then c.strWait n
  else if c.flagMet g i.flag b then (c.clearFlag g i.flag).strGoto n i.addr
  else c.strNext n
/-- STR_BRF (R200). -/
def execStrBrf (n : Fin 72) (s : State) : Res := s.on fun c => c.strExec n (· = 6) fun c i g b => c.strBrf n i g b

/-- STR_JMP (R192). -/
def execStrJmp (n : Fin 72) (s : State) : Res := s.on fun c => c.strExec n (· = 7) fun c i _ _ => c.strGoto n i.addr

/-- STR_END (R205): the leg ends after the last vector presented. -/
def execStrEnd (n : Fin 72) (s : State) : Res := s.on fun c => c.strExec n (· = 8) fun c _ g _ => c.endLegReq g 1

/-- STR_RESERVED_OP (R206): program error OPCODE. -/
def execStrReservedOp (n : Fin 72) (s : State) : Res :=
  s.on fun c => c.strExec n (8 < ·) fun c _ _ _ => c.strError n 1

/-- A late tag failure of a line (R206, 12 R312): its compare results from now on carry the taint flag, those still in the
intake too; a consumed line raises TAINT. -/
def Chip.strTaint (c : Chip) (n line : Nat) : Chip :=
  let a := line / 64 * 64
  match Tab.get none (c.str n).lines a with
  | none => c
  | some l =>
    let c := c.onStr n fun x => { x with lines := Tab.set none x.lines a (some { l with taint := true }) }
    let mark (i : FlItem) : FlItem := if i.line = some (n, a) then { i with taint := true } else i
    let c := c.onLog (n / 18) fun f => { f with intake := f.intake.map mark }
    if l.used then (c.strFault n a 0).errEvt (STR_ERR.taint n) (strEvent n) 6 [a, l.first, l.last] else c

end Sys2Proof.Machine
end

