-- ==== Sys2Proof/Machine/Fabric.lean ====
section
/-! DEFINITION. The product-term fabric's own commands (04 R108 to R129): match entries and their write port, lookups and
entry parity, avenue contention, region faults, reflex flags. Logic.lean holds the combinational functions. -/

namespace Sys2Proof.Machine

/-- Event of region `r` (R129). -/
def regionEvent (r : Nat) : Nat := 224 + r / 16 * 136 + r % 16

/-- A region becomes faulted (R126): clocks stop, reflex held, the group's leg is cut into the abort state, event FAULTED.
A region already faulted keeps its first cause. -/
def Chip.regionFault (c : Chip) (r cause : Nat) : Chip :=
  if c.flag (FAB_STATUS.faulted r) then c
  else
    let c := ((c.put (FAB_STATUS.faulted r) 1).put (FAB_STATUS.fault_cause r) cause).put (FAB_STATUS.reflex_held r) 1
    let c := c.onRegion r fun x => { x with frozen := true }
    let c := { c with marks := if c.marks.contains r then c.marks else c.marks ++ [r] }
    let c := (c.abortRow r 3 none).setArmed r 0
    c.raise (regionEvent r) 3 [cause, recStamp c.now]

/-- The cells of an entry as a key sampled at `edge` meets them: the newest write at least two edges before it (R110).
A write is kept with its edge plus 1; 0 stands for the image. -/
def MatchEntry.at_ (e : MatchEntry) (edge : Nat) : MatchCells :=
  match e.writes.find? fun w => decide (w.1 + 1 ≤ edge) with
  | some w => w.2
  | none => match e.writes.getLast? with
    | some w => if w.1 = 0 then w.2 else {}
    | none => {}

/-- Entry `e` of LB `lb`. -/
def Region.entry (x : Region) (lb e : Nat) : MatchEntry := Tab.get {} x.entries (64 * lb + e)

/-- MATCH_PORT_WRITE (R110, R111): the entry's mask, value and valid bit, parity computed; discarded for an LB not in match
mode or an entry above 55. `edge` counts the port's clock edges. -/
def Chip.matchWrite (c : Chip) (r lb entry : Nat) (valid : Bool) (mask value edge : Nat) : Chip :=
  let x := c.region r
  if Tab.get 0 x.lbMode lb = 0 ∨ 55 < entry then c.put (FAB_ERR.port_discard r) 1
  else
    let w := (edge + 1, ({ valid := valid, mask := mask, value := value, parity := true } : MatchCells))
    c.setRegion r { x with entries := Tab.set {} x.entries (64 * lb + entry) ⟨w :: (x.entry lb entry).writes.take 3⟩ }

/-- MATCH_PORT_WRITE (R110): cluster and LB in it name the LB. -/
def execMatchPortWrite (r : Fin 64) (cluster : Fin 1536) (lb : Fin 8) (entry : BitVec 6) (valid : Bool)
    (mask value : BitVec 40) (edge : Nat) (s : State) : Res :=
  s.on (·.matchWrite r (8 * cluster + lb) entry.toNat valid mask.toNat value.toNat edge)

/-- The LBs one lookup of `lb` uses, with the shift of each one's key slice (R108, R113). -/
def lookupSlices (mode lb : Nat) : List (Nat × Nat) :=
  if mode = 2 then (List.range 4).map fun i => (lb / 4 * 4 + i, 40 * i) else [(lb, 0)]

/-- Entry `e` matches in every slice: right parity, valid, and every masked key bit equal (R108, R111, R113). -/
def Region.matches (x : Region) (mode lb key edge e : Nat) : Bool :=
  (lookupSlices mode lb).all fun s =>
    let m := (x.entry s.1 e).at_ edge
    m.parity && entryMatches m.valid m.mask m.value (bits key s.2 40)

/-- Mark entries of an LB as having lost their parity. -/
def Region.upset (x : Region) (lb : Nat) (es : List Nat) : Region :=
  es.foldl (fun x e =>
    let spoil (w : Nat × MatchCells) : Nat × MatchCells := (w.1, { w.2 with parity := false })
    let old := if (x.entry lb e).writes = [] then [(0, ({} : MatchCells))] else (x.entry lb e).writes
    { x with entries := Tab.set {} x.entries (64 * lb + e) ⟨old.map spoil⟩ }) x

/-- A lookup found an entry of wrong parity (R111). -/
def Chip.matchParity (c : Chip) (r lb e : Nat) : Chip :=
  let c := c.incSat (FAB_MATCH_PERR_CNT.count r)
  let c := if c.flag (FAB_MATCH_PERR.valid r) then c
    else ((c.put (FAB_MATCH_PERR.lb r) lb).put (FAB_MATCH_PERR.entry r) e).put (FAB_MATCH_PERR.valid r) 1
  let c := c.errEvt (FAB_ERR.match_parity r) (regionEvent r) 2 [lb, e]
  if c.flag (FAB_CTRL.match_perr_fault r) then c.regionFault r 2 else c

/-- MATCH_LOOKUP (R108, R109, R111, R113): the key against all 56 entries; the results go to the region's macrocells.
`upset` names entries whose cells have been upset since the last lookup. -/
def Chip.matchLookup (c : Chip) (r lb key edge : Nat) (upset : List Nat) : Chip :=
  let c := c.onRegion r fun x => x.upset lb (upset.filter (· < 56))
  let x := c.region r
  let mode := Tab.get 0 x.lbMode lb
  if mode = 0 then c
  else
    let res := if mode = 2 ∧ lb % 4 ≠ 3 then ⟨false, false, 0, 0⟩
      else matchResult (numbersBelow 56 (x.matches mode lb key edge))
    let bad := (lookupSlices mode lb).findSome? fun s =>
      (numbersBelow 56 fun e => !((x.entry s.1 e).at_ edge).parity).head?.map fun e => (s.1, e)
    let c := match bad with
      | some (l, e) => c.matchParity r l e
      | none => c
    c.emit (.fabric r 2 [lb, ofBool res.hit, ofBool res.multi, res.index, res.groups])

/-- MATCH_LOOKUP (R108). -/
def execMatchLookup (r : Fin 64) (lb : Fin 12288) (key : BitVec 160) (edge : Nat) (upset : List Nat) (s : State) : Res :=
  s.on (·.matchLookup r lb key.toNat edge upset)

/-- AVENUE_CONTENTION (R124): two or more active drivers for 512 MT or longer disable the avenue and fault the region; the
first contention is recorded. `active` holds the positions of the active drivers, `onset` its stamp. -/
def Chip.contention (c : Chip) (r avenue : Nat) (active : List Nat) (duration onset : Nat) : Chip :=
  let x := c.region r
  let a := active.foldl min (active.headD 0)
  let rest := active.filter (· ≠ a)
  if rest.isEmpty ∨ duration < 512 ∨ x.disabled.contains avenue then c
  else
    let b := rest.foldl min (rest.headD 0)
    let c := c.setRegion r { x with disabled := x.disabled ++ [avenue] }
    let c := if c.flag (FAB_CONT_AVENUE.valid r) then c
      else
        let c := ((c.put (FAB_CONT_AVENUE.avenue r) avenue).put (FAB_CONT_AVENUE.pos_a r) a).put (FAB_CONT_AVENUE.pos_b r) b
        (c.put (FAB_CONT_AVENUE.valid r) 1).put2 (FAB_CONT_STAMP_LO.stamp_lo r) (FAB_CONT_STAMP_HI.stamp_hi r)
          (recStamp onset)
    (c.errEvt (FAB_ERR.contention r) (regionEvent r) 1 [avenue, a, b, recStamp onset]).regionFault r 1

/-- AVENUE_CONTENTION (R124). -/
def execAvenueContention (r : Fin 64) (avenue : Fin 640) (active : List Nat) (duration onset : Nat) (s : State) : Res :=
  s.on (·.contention r avenue active duration onset)

/-- FAB_CMD.clear_flags (R117). -/
def Chip.clearFlags (c : Chip) (r v : Nat) : Chip := c.each (numbersBelow 4 (bit v)) fun c f => c.clearFlag r f

/-- CLEAR_FLAGS (R117). -/
def execClearFlags (r : Fin 64) (v : BitVec 4) (s : State) : Res := s.on (·.clearFlags r v.toNat)

end Sys2Proof.Machine
end

