-- ==== Sys2Proof/Machine/Clocks.lean ====
section
/-! DEFINITION. Quarter clocks and state capture (05 R130 to R136, R140 to R145). The resets stand in Resets.lean. -/

namespace Sys2Proof.Machine

/-- Quarter `q` beside its registers. -/
def Chip.quarter (c : Chip) (q : Nat) : Quarter := Tab.get {} c.quarters q
/-- Change quarter `q`. -/
def Chip.onQuarter (c : Chip) (q : Nat) (f : Quarter → Quarter) : Chip :=
  { c with quarters := Tab.set {} c.quarters q (f (c.quarter q)) }
/-- CPLL `p` of quarter `q`. -/
def Chip.cpll (c : Chip) (q p : Nat) : Cpll := Tab.get {} (c.quarter q).cplls p
/-- Replace CPLL `p`, and show whether it is locked. -/
def Chip.setCpll (c : Chip) (q p : Nat) (x : Cpll) : Chip :=
  (c.onQuarter q fun k => { k with cplls := Tab.set {} k.cplls p x }).put (QC_STATUS.locked q)
    (withBit (c.fld (QC_STATUS.locked q)) p (x.state = 2))

/-- The GCKs of a quarter that select CPLL `p`. -/
def Chip.gcksOf (c : Chip) (q p : Nat) : List Nat := numbersBelow 16 fun g => c.fld (QC_GCK_SEL.src q g) = p + 1

/-- R131: the VCO limits of a setting n, m - 1, p - 1. -/
def cpllLegal (n m1 p1 : Nat) : Bool :=
  20 ≤ n && n ≤ 160 && 1 ≤ p1 && 2000 * (m1 + 1) ≤ 100 * n && 100 * n ≤ 4000 * (m1 + 1)
/-- R131: a GCK with divider code `div` of a CPLL with that setting runs at no more than 1,000 MHz. -/
def gckLegal (n m1 p1 div : Nat) : Bool := 100 * n ≤ 1000 * (m1 + 1) * (p1 + 1) * 2 ^ div

/-- The setting CPLL `p` will run when a GCK next uses it: the running one while it runs, the register one otherwise. -/
def Chip.cpllSetting (c : Chip) (q p : Nat) : Nat × Nat × Nat :=
  let x := c.cpll q p
  if x.state = 0 then (c.fld (QC_CPLL_CFG.n q p), c.fld (QC_CPLL_CFG.m_minus1 q p), c.fld (QC_CPLL_CFG.p_minus1 q p))
  else (x.n, x.m1, x.p1)

/-- R132: start a CPLL that is wanted, stop one that is not. STANDBY, and a quarter in reset, keep every CPLL off. -/
def Chip.cpllJudge (c : Chip) (q p : Nat) : Chip :=
  let x := c.cpll q p
  let want := c.flag (QC_STATUS.ready q) && c.tileUp && decide (c.qstate q < 2) &&
    (c.flag (QC_CPLL_CFG.keep_on q p) || !(c.gcksOf q p).isEmpty)
  if want then
    if x.state = 0 then
      (c.setCpll q p ⟨1, c.fld (QC_CPLL_CFG.n q p), c.fld (QC_CPLL_CFG.m_minus1 q p), c.fld (QC_CPLL_CFG.p_minus1 q p)⟩).put
        (QC_STATUS.cfg_pending q) (withBit (c.fld (QC_STATUS.cfg_pending q)) p false)
    else c
  else if x.state = 0 then c else c.setCpll q p {}

/-- Judge every CPLL of a quarter. -/
def Chip.cplls (c : Chip) (q : Nat) : Chip := c.each (List.range 4) fun c p => c.cpllJudge q p

/-- CPLL_CONFIG_WRITE (R131, R132): a setting past a limit keeps the previous one; one written while running waits for the
next start. -/
def Chip.cpllWrite (c : Chip) (q p v : Nat) : Chip :=
  let n := (QC_CPLL_CFG.n q p).of v
  let m := (QC_CPLL_CFG.m_minus1 q p).of v
  let k := (QC_CPLL_CFG.p_minus1 q p).of v
  let ok := cpllLegal n m k && (c.gcksOf q p).all fun g => gckLegal n m k (c.fld (QC_GCK_SEL.div q g))
  let c := c.put (QC_CPLL_CFG.keep_on q p) ((QC_CPLL_CFG.keep_on q p).of v)
  let c := if ok then
      let c := ((c.put (QC_CPLL_CFG.n q p) n).put (QC_CPLL_CFG.m_minus1 q p) m).put (QC_CPLL_CFG.p_minus1 q p) k
      if (c.cpll q p).state = 0 then c
      else c.put (QC_STATUS.cfg_pending q) (withBit (c.fld (QC_STATUS.cfg_pending q)) p true)
    else c.put (QC_CLK_ERR.bad_value q) 1
  c.cpllJudge q p

/-- CPLL_CONFIG_WRITE (R131). -/
def execCpllConfigWrite (q p : Fin 4) (v : Word) (s : State) : Res := s.on (·.cpllWrite q p v.toNat)

/-- GCK_SELECT_WRITE (R131, R134): refused for a reserved source and for a clock above 1,000 MHz. -/
def Chip.gckWrite (c : Chip) (q g v : Nat) : Chip :=
  let src := (QC_GCK_SEL.src q g).of v
  let div := (QC_GCK_SEL.div q g).of v
  let ok : Bool := src = 0 || src = 5 || (decide (src ≤ 4) &&
    (let (n, m, k) := c.cpllSetting q (src - 1); gckLegal n m k div))
  if ok then
    let c := (c.put (QC_GCK_SEL.src q g) src).put (QC_GCK_SEL.div q g) div
    c.cplls q
  else c.put (QC_CLK_ERR.bad_value q) 1

/-- GCK_SELECT_WRITE (R134). -/
def execGckSelectWrite (q : Fin 4) (g : Fin 16) (v : Word) (s : State) : Res := s.on (·.gckWrite q g v.toNat)

/-- CPLL_LOCK (R132): a started CPLL locks; the GCKs that select it start. -/
def execCpllLock (q p : Fin 4) (s : State) : Res := s.on fun c =>
  let x := c.cpll q p
  if x.state = 1 then c.setCpll q p { x with state := 2 } else c

/-- CPLL_LOCK_LOST (R133): its GCKs stop, event 24 + q, legs of regions that use one of them are cut. -/
def Chip.lockLost (c : Chip) (q p : Nat) : Chip :=
  let x := c.cpll q p
  if x.state ≠ 2 then c
  else
    let stopped := maskOf (c.gcksOf q p)
    let c := c.setCpll q p { x with state := 1 }
    let c := c.put (QC_STATUS.gck_stopped q) (c.fld (QC_STATUS.gck_stopped q) ||| stopped)
    let c := c.put (QC_CLK_ERR.lock_lost q) (c.fld (QC_CLK_ERR.lock_lost q) ||| 2 ^ p)
    let c := c.raise (24 + q) 0 [p, stopped]
    c.each (List.range 16) fun c r =>
      if (c.region (16 * q + r)).gcks &&& stopped = 0 then c else c.abortRow (16 * q + r) 4 none

/-- CPLL_LOCK_LOST (R133). -/
def execCpllLockLost (q p : Fin 4) (s : State) : Res := s.on (·.lockLost q p)

/-- QC_CMD.clk_restart (R133). -/
def Chip.clkRestart (c : Chip) (q : Nat) : Chip := c.put (QC_STATUS.gck_stopped q) 0

/-- CLK_RESTART (R133). -/
def execClkRestart (q : Fin 4) (s : State) : Res := s.on (·.clkRestart q)

/-- A capture is refused (R143): cause REFUSED or NOEDGE, with a stamp. -/
def Chip.capRefuse (c : Chip) (q cause t : Nat) : Chip :=
  (c.put (QC_CLK_ERR.cap_refused q) 1).raise (196 + q) cause [recStamp t]

/-- A capture instant (R140, R143): refused while the shadow cells are taken; a capture that waits for its edge already
stands. -/
def Chip.capStart (c : Chip) (q t : Nat) : Chip :=
  if c.fld (QC_CAP_STATUS.state q) ≠ 0 then c.capRefuse q 2 t
  else if (c.quarter q).capture.isSome then c
  else c.onQuarter q fun k => { k with capture := some t }

/-- QC_CMD.cap_now (R140, R143): refused in a quarter below RUN. -/
def Chip.capNow (c : Chip) (q : Nat) : Chip := if c.quarterRun q then c.capStart q c.now else c.capRefuse q 2 c.now

/-- CAP_NOW (R140). -/
def execCapNow (q : Fin 4) (s : State) : Res := s.on (·.capNow q)

/-- CAPTURE (R140, 03 Table 3.1): a CAPTURE launch starts a capture in each masked quarter at its execution instant. -/
def execCapture (s : State) : Res := s.on (·.runEntry 5 fun c e i =>
  c.each (maskQuarters (bits e.arg 0 4)) fun c q => c.capStart q i)

/-- The regions of a quarter a capture takes (R141): selected, loaded, not loading; a faulted region's frozen state too. -/
def Chip.capRegions (c : Chip) (q : Nat) : List Nat := numbersBelow 16 fun r =>
  bit (c.fld (QC_CAP_REGIONS.regions q)) r && (c.region (16 * q + r)).loaded && !(c.region (16 * q + r)).loading

/-- The output registers of a region's block memories, by block times 2 plus port. -/
def Chip.bmOuts (c : Chip) (r : Nat) : Tab Nat :=
  c.blocks.foldl (fun t e =>
    if e.1 / 160 = r then Tab.set 0 (Tab.set 0 t (2 * (e.1 % 160)) e.2.outA) (2 * (e.1 % 160) + 1) e.2.outB else t) []

/-- The shadow cells of one region (R140). -/
def Chip.shadowOf (c : Chip) (r : Nat) (user : List (Nat × Nat)) : Shadow :=
  ⟨user, c.fld (FAB_REFLEX_FLAGS.flags r), c.bmOuts r⟩

/-- CAPTURE_EDGE (R140 to R143): the edge of the reference GCK at instant `edge`. `vals` are the macrocell registers of
each region of the quarter as its user logic holds them then. -/
def Chip.captureEdge (c : Chip) (q edge : Nat) (vals : List (Nat × List (Nat × Nat))) : Chip :=
  match (c.quarter q).capture with
  | none => c
  | some t =>
    if edge < t ∨ t + usMT < edge ∨ !c.gckRuns q (c.fld (QC_CAP_CTRL.gck q)) then c
    else
      let rs := c.capRegions q
      let freeze := decide (c.fld (QC_CAP_CTRL.mode q) = 1)
      let snap := if freeze then rs.filter fun r => c.gstate (16 * q + r) = 3 else []
      let shadow : Tab (Option Shadow) := rs.map fun r => (r, some (c.shadowOf (16 * q + r) ((vals.lookup r).getD [])))
      let held := if freeze then rs.filter fun r => !snap.contains r else []
      let c := c.onQuarter q fun k => { k with capture := none, shadow := shadow, held := held }
      let c := ((c.put (QC_CAP_STATUS.state q) (if freeze then 2 else 1)).put (QC_CAP_STATUS.captured q) (maskOf rs)).put
        (QC_CAP_SNAPONLY.regions q) (maskOf snap)
      let c := c.put2 (QC_CAP_STAMP_LO.stamp_lo q) (QC_CAP_STAMP_HI.stamp_hi q) (recStamp edge)
      c.raise (196 + q) 1 [recStamp edge]

/-- CAPTURE_EDGE (R140). -/
def execCaptureEdge (q : Fin 4) (edge : Nat) (vals : List (Nat × List (Nat × Nat))) (s : State) : Res :=
  s.on (·.captureEdge q edge vals)

/-- CAPTURE_TIMEOUT (R143): no edge within 1 µs of the capture instant. -/
def execCaptureTimeout (q : Fin 4) (s : State) : Res := s.on fun c =>
  match (c.quarter q).capture with
  | some t =>
    if t + usMT ≤ c.now then (c.onQuarter q fun k => { k with capture := none }).capRefuse q 3 t else c
  | none => c

/-- QC_CMD.cap_resume (R142): frozen regions resume; the capture is still held. -/
def Chip.capResume (c : Chip) (q : Nat) : Chip :=
  let c := c.onQuarter q fun k => { k with held := [] }
  if c.fld (QC_CAP_STATUS.state q) = 2 then c.put (QC_CAP_STATUS.state q) 1 else c

/-- CAP_RESUME (R142). -/
def execCapResume (q : Fin 4) (s : State) : Res := s.on (·.capResume q)

/-- QC_CMD.cap_free (R143): the shadow cells are emptied and a freeze ends. -/
def Chip.capFree (c : Chip) (q : Nat) : Chip :=
  let c := (c.capResume q).onQuarter q fun k => { k with shadow := [] }
  (c.put (QC_CAP_STATUS.state q) 0).put (QC_CAP_STATUS.captured q) 0

/-- CAP_FREE (R143). -/
def execCapFree (q : Fin 4) (s : State) : Res := s.on (·.capFree q)

end Sys2Proof.Machine
end

