-- ==== Sys2Proof/Machine/BlockMem.lean ====
section
/-! DEFINITION. Block memory (06): port reads and writes in every mode, width and protection, write-back, clears, repair
entries. Blocks are numbered 0 to 10,239 over the tile, 160 to a region. -/

namespace Sys2Proof.Machine

/-- Block `b` of the tile. -/
def Chip.block (c : Chip) (b : Nat) : BmBlock := Tab.get {} c.blocks b
/-- Replace block `b`. -/
def Chip.setBlock (c : Chip) (b : Nat) (x : BmBlock) : Chip := { c with blocks := Tab.set {} c.blocks b x }

/-- The ports of a region's blocks are clocked: the region released and neither frozen by a fault nor by a capture (R142). -/
def Chip.bmClocked (c : Chip) (b : Nat) : Bool :=
  let r := b / 160
  (c.region r).loaded && !(c.region r).loading && !(c.region r).frozen && !(c.quarter (r / 16)).held.contains (r % 16)

/-- User bits of one stored word: 72 where the check cells hold data (Table 6.2). -/
def BmBlock.wordBits (x : BmBlock) : Nat := if x.prot = 2 then 72 else 64
/-- Entries of a port of width `w` (Table 6.2). -/
def BmBlock.depth (x : BmBlock) (w : Nat) : Nat := if x.prot = 2 then 294912 / w else 262144 / w
/-- Width of a port: 0 A, 1 B. -/
def BmBlock.width (x : BmBlock) (port : Nat) : Nat := if port = 0 then x.wa else x.wb
/-- The stored words entry `a` of a port of width `w` covers. -/
def BmBlock.span (x : BmBlock) (w a : Nat) : List Nat :=
  if w ≤ x.wordBits then [a * w / x.wordBits] else [2 * a, 2 * a + 1]
/-- A stored word. -/
def BmBlock.word (x : BmBlock) (a : Nat) : BmWord := Tab.get {} x.words a
/-- Replace a stored word. -/
def BmBlock.setWord (x : BmBlock) (a : Nat) (w : BmWord) : BmBlock := { x with words := Tab.set {} x.words a w }
/-- Cells upset in a word whose contents count (R154: an invalid word reports no error). -/
def BmBlock.bad (x : BmBlock) (w : BmWord) : Nat := if w.valid || x.filled || x.prot = 1 then onesN 72 w.flips else 0
/-- What a word reads as: 0 while invalid; in SECDED corrected when one cell is upset; as stored otherwise (Table 6.3). -/
def BmBlock.value (x : BmBlock) (w : BmWord) : Nat :=
  if !(w.valid || x.filled || x.prot = 1) then 0
  else if x.prot = 0 ∧ x.bad w ≤ 1 then w.data
  else (w.data ^^^ w.flips) % 2 ^ x.wordBits

/-- The first error of a region is kept (Table 6.4): kind 1 CE, 2 UE, 3 CRC. -/
def Chip.bmFirst (c : Chip) (b word kind syn : Nat) : Chip :=
  let r := b / 160
  if c.flag (BM_FIRST_ERR.valid r) then c
  else
    let c := ((c.put (BM_FIRST_ERR.block r) (b % 160)).put (BM_FIRST_ERR.word r) word).put (BM_FIRST_ERR.kind r) kind
    ((c.put (BM_FIRST_ERR.valid r) 1).put (BM_FIRST_SYN.syndrome r) syn).put2 (BM_FIRST_STAMP_LO.stamp_lo r)
      (BM_FIRST_STAMP_HI.stamp_hi r) (recStamp c.now)

/-- What the read of one SECDED word counts and raises (R150): the chip, and whether the word is poisoned. -/
def Chip.bmJudge (c : Chip) (b a : Nat) : Chip × Bool :=
  let x := c.block b
  let w := x.word a
  let r := b / 160
  let syn := Sys2Proof.Config.syndrome w.flips % 256
  if x.prot ≠ 0 ∨ x.bad w = 0 then (c, false)
  else if x.bad w = 1 then
    let c := (c.incSat (BM_CE_CNT.count r)).bmFirst b a 1 syn
    let y : BmBlock := { x with fixes := if x.fixes.contains a then x.fixes else x.fixes ++ [a] }
    (if c.flag (BM_RCTL.wb_en r) then c.setBlock b y else c, false)
  else
    let c := (c.incSat (BM_UE_CNT.count r)).bmFirst b a 2 syn
    (c.errEvt (BM_RERR.ue r) (regionEvent r) 4 [b % 160, a, syn, recStamp c.now], true)

/-- Cells upset since the last access: masks for the words of the access, in order. -/
def BmBlock.upset (x : BmBlock) (as_ flips : List Nat) : BmBlock :=
  (as_.zip flips).foldl (fun x p =>
    let w := x.word p.1
    if p.2 % 2 ^ 72 = 0 then x else x.setWord p.1 { w with flips := w.flips ^^^ (p.2 % 2 ^ 72) }) x

/-- Data of an entry out of its words (R146). -/
def BmBlock.entry (x : BmBlock) (w a : Nat) (ws : List Nat) : Nat :=
  if w ≤ x.wordBits then bits (ws.headD 0) (a * w % x.wordBits) w
  else ws.headD 0 + 2 ^ x.wordBits * (ws.getD 1 0)

/-- The line of a CRC block is whole: written in order and no cell upset (R153). -/
def BmBlock.lineOk (x : BmBlock) (line : Nat) : Bool :=
  x.okLines.contains line && (List.range 8).all fun i => (x.word (8 * line + i)).flips = 0

/-- The address a port uses: a FIFO's own pointer, else the one given. -/
def BmBlock.readAt (x : BmBlock) (a : Nat) : Nat := if x.mode = 2 then x.rd else a % x.depth x.wb

/-- Present read data on a port: output register and the fabric. Values: block, port, data, poison, line error, flag. -/
def Chip.bmPresent (c : Chip) (b port data poison line flag : Nat) : Chip :=
  let x := c.block b
  (c.setBlock b (if port = 0 then { x with outA := data } else { x with outB := data })).emit
    (.fabric (b / 160) 3 [b % 160, port, data, poison, line, flag])

/-- The flags a FIFO shows the fabric (Table 6.1): empty, full, fill at or below the lower level, fill at or above the upper. -/
def Chip.fifoFlags (c : Chip) (b : Nat) : Chip :=
  let x := c.block b
  if x.mode ≠ 2 then c
  else c.emit (.fabric (b / 160) 4 [b % 160, ofBool (x.fill = 0), ofBool (x.fill = x.depth x.wa), ofBool (x.fill ≤ x.lvlLo),
    ofBool (x.lvlHi ≤ x.fill)])

/-- BM_PORT_READ (R146 to R150, R153): `edge` is the port's clock edge, `flips` the cells upset in the words read. -/
def Chip.bmRead (c : Chip) (b port addr edge : Nat) (flips : List Nat) : Chip :=
  let x := c.block b
  if !c.bmClocked b || (port = 0 && decide (x.mode ≠ 0)) then c
  else if x.mode = 2 ∧ x.fill = 0 then c.bmPresent b port x.outB 0 0 1
  else
    let w := x.width port
    let a := if x.mode = 2 then x.rd else addr % x.depth w
    let as_ := x.span w a
    let c := c.setBlock b (x.upset as_ flips)
    let (c, p) := as_.foldl (fun (acc : Chip × Bool) a => let (c, q) := acc.1.bmJudge b a; (c, acc.2 || q)) (c, false)
    let x := c.block b
    let old (i : Nat) : BmWord := match x.lastW with
      | some (pt, t, l) => if pt ≠ port ∧ t = edge then (l.lookup i).getD (x.word i) else x.word i
      | none => x.word i
    let data := x.entry w a (as_.map fun i => x.value (old i))
    let lineBad := x.prot = 1 && !x.lineOk (a / 4)
    let c := c.doIf lineBad fun c => (c.incSat (BM_CRC_CNT.count (b / 160))).bmFirst b (2 * a) 3 0
    let c := c.doIf (x.mode = 2) fun c =>
      let x := c.block b
      c.setBlock b { x with rd := (x.rd + 1) % x.depth x.wb, fill := x.fill - 1 }
    (c.bmPresent b port data (ofBool p) (ofBool lineBad) 0).fifoFlags b

/-- BM_PORT_READ (R150). -/
def execBmPortRead (b : Fin 10240) (port : Fin 2) (addr edge : Nat) (flips : List Nat) (s : State) : Res :=
  s.on (·.bmRead b port addr edge flips)

/-- Store `v` in the bits an entry covers of one word: the whole word, or merged into what the word reads as. -/
def BmBlock.merge (x : BmBlock) (w a i v : Nat) : BmWord :=
  let n := x.wordBits
  if n ≤ w then ⟨bits v (if i = (x.span w a).headD 0 then 0 else n) n, 0, true⟩
  else
    let off := a * w % n
    let old := x.value (x.word i)
    ⟨old - bits old off w * 2 ^ off + v % 2 ^ w * 2 ^ off, if x.prot = 0 then 0 else (x.word i).flips, true⟩

/-- The order rule of a CRC line (R153): port-width word `a` of the block is written. -/
def BmBlock.crcOrder (x : BmBlock) (a : Nat) : BmBlock :=
  let line := a / 4
  let k := a % 4
  let drop := x.okLines.filter (· ≠ line)
  if k = 0 then { x with okLines := drop, run := some (line, 1) }
  else if x.run = some (line, k) then
    if k = 3 then { x with okLines := drop ++ [line], run := none } else { x with okLines := drop, run := some (line, k + 1) }
  else { x with okLines := drop, run := none }

/-- BM_PORT_WRITE (R146 to R148, R151 to R153): discarded in ROM mode, on a full FIFO, on port B outside TDP, and on port B
within 0.2 ns of port A's write of the same word; a narrow SECDED write is a read-modify-write. -/
def Chip.bmWrite (c : Chip) (b port addr v edge : Nat) (flips : List Nat) : Chip :=
  let x := c.block b
  if !c.bmClocked b || x.mode = 3 || (port = 1 && decide (x.mode ≠ 0)) then c
  else if x.mode = 2 ∧ x.depth x.wa ≤ x.fill then c.emit (.fabric (b / 160) 3 [b % 160, port, 0, 0, 0, 1])
  else
    let w := x.width port
    let a := if x.mode = 2 then (x.rd + x.fill) % x.depth w else addr % x.depth w
    let as_ := x.span w a
    let clash := match x.lastW with
      | some (pt, t, l) => pt = 0 && port = 1 && decide (edge ≤ t + 204 ∧ t ≤ edge + 204) && as_.any fun i => (l.lookup i).isSome
      | none => false
    if clash then c
    else
      let c := c.setBlock b (x.upset as_ flips)
      let narrow := x.prot = 0 && w < 64
      let (c, p) := if narrow then c.bmJudge b (as_.headD 0) else (c, false)
      if p then
        let r := b / 160
        let i := as_.headD 0
        c.errEvt (BM_RERR.rmw_refused r) (regionEvent r) 5
          [b % 160, i, Sys2Proof.Config.syndrome ((c.block b).word i).flips % 256, recStamp c.now]
      else
        let x := c.block b
        let old := as_.map fun i => (i, x.word i)
        let y : BmBlock := as_.foldl (fun y i => y.setWord i (x.merge w a i v)) x
        let left := y.fixes.filter fun i => !as_.contains i
        let y : BmBlock := { y with lastW := some (port, edge, old), fixes := left,
                                    fill := if y.mode = 2 then y.fill + 1 else y.fill }
        (c.setBlock b (if y.prot = 1 then y.crcOrder a else y)).fifoFlags b

/-- BM_PORT_WRITE (R148). -/
def execBmPortWrite (b : Fin 10240) (port : Fin 2) (addr : Nat) (v : BitVec 144) (edge : Nat) (flips : List Nat) (s : State) :
    Res := s.on (·.bmWrite b port addr v.toNat edge flips)

/-- BM_WRITEBACK (R151): at a cycle with neither port accessing the block, its oldest corrected word is written back. -/
def execBmWriteback (b : Fin 10240) (s : State) : Res := s.on fun c =>
  let x := c.block b
  match x.fixes with
  | [] => c
  | a :: rest =>
    let w := x.word a
    c.setBlock b { (if x.bad w = 1 then x.setWord a { w with flips := 0 } else x) with fixes := rest }

/-- BM_CMD.clear_block (R154): every valid bit of block `i` of region `r` is cleared; 160 to 255 are reserved. -/
def Chip.clearBlock (c : Chip) (r i : Nat) : Chip :=
  if 160 ≤ i then c.put (BM_RERR.bad_value r) 1
  else
    let b := 160 * r + i
    let x := c.block b
    if x.prot = 1 ∨ x.filled then c else c.setBlock b { x with words := [], fixes := [] }

/-- CLEAR_BLOCK (R154). -/
def execClearBlock (r : Fin 64) (i : Byte) (s : State) : Res := s.on (·.clearBlock r i.toNat)

/-- BM_CMD.clear_first empties BM_FIRST_ERR (Table 6.4). -/
def Chip.clearFirst (c : Chip) (r : Nat) : Chip :=
  let c := ((c.put (BM_FIRST_ERR.block r) 0).put (BM_FIRST_ERR.word r) 0).put (BM_FIRST_ERR.kind r) 0
  ((c.put (BM_FIRST_ERR.valid r) 0).put (BM_FIRST_SYN.syndrome r) 0).put2 (BM_FIRST_STAMP_LO.stamp_lo r)
    (BM_FIRST_STAMP_HI.stamp_hi r) 0

/-- CLEAR_FIRST (R157). -/
def execClearFirst (r : Fin 64) (s : State) : Res := s.on (·.clearFirst r)

/-- BM_REPAIR_WRITE (R155): discarded while the region is released; ignored where the entry is fused. -/
def Chip.bmRepair (c : Chip) (b v : Nat) (col : Bool) : Chip :=
  let r := b / 160
  if (c.region r).loaded then c.put (BM_RERR.bad_value r) 1
  else if col then
    if c.flag (BM_COLREP.fused b) then c
    else
      let put (c : Chip) (f : Fld) : Chip := c.putLegal f (BM_RERR.bad_value r) (f.of v < 576) (f.of v)
      ((put (put c (BM_COLREP.col0 b)) (BM_COLREP.col1 b)).put (BM_COLREP.col0_en b) ((BM_COLREP.col0_en b).of v)).put
        (BM_COLREP.col1_en b) ((BM_COLREP.col1_en b).of v)
  else if c.flag (BM_ROWREP.fused b) then c
  else
    (((c.put (BM_ROWREP.row0 b) ((BM_ROWREP.row0 b).of v)).put (BM_ROWREP.row0_en b) ((BM_ROWREP.row0_en b).of v)).put
      (BM_ROWREP.row1 b) ((BM_ROWREP.row1 b).of v)).put (BM_ROWREP.row1_en b) ((BM_ROWREP.row1_en b).of v)

/-- BM_REPAIR_WRITE (R155). -/
def execBmRepairWrite (b : Fin 10240) (col : Bool) (v : Word) (s : State) : Res := s.on (·.bmRepair b v.toNat col)

/-- The contents of a region's blocks at release (R154, R156): blocks as the image configures them, its initial contents,
zeros made valid under FILL, every word invalid under VALID. -/
def Chip.bmInit (c : Chip) (r : Nat) (fill : Bool) (image : List (Nat × BmBlock)) : Chip :=
  let c := { c with blocks := c.blocks.filter fun e => e.1 / 160 ≠ r }
  let c := (c.putB (BM_RCTL.init_mode r) fill).put (BM_RSTATUS.init_busy r) 0
  c.each image fun c e => c.setBlock (160 * r + e.1 % 160) { e.2 with filled := e.2.filled || fill }

end Sys2Proof.Machine
end

