-- ==== Sys2Proof/Machine/Waystations.lean ====
section
/-! DEFINITION. Waystation mailboxes (19): posting and receiving, doorbells, the lock, standoff, resets and flush, trunk
ends with their credits. Ends are 0 for A and 1 for B. -/

namespace Sys2Proof.Machine

/-- Waystation `n`. -/
def Chip.way (c : Chip) (n : Nat) : Waystation := Tab.get {} c.ways n
/-- Replace Waystation `n`. -/
def Chip.setWay (c : Chip) (n : Nat) (w : Waystation) : Chip := { c with ways := Tab.set {} c.ways n w }
/-- Messages that end `x` receives. -/
def Waystation.queue (w : Waystation) (x : Nat) : List WsMsg := Tab.get [] w.queues x
/-- Open words of end `x`. -/
def Waystation.opened (w : Waystation) (x : Nat) : List Nat := Tab.get [] w.opens x
/-- Replace a queue. -/
def Waystation.setQueue (w : Waystation) (x : Nat) (l : List WsMsg) : Waystation := { w with queues := Tab.set [] w.queues x l }
/-- Replace an open message. -/
def Waystation.setOpen (w : Waystation) (x : Nat) (l : List Nat) : Waystation := { w with opens := Tab.set [] w.opens x l }
/-- Entries of the queue that end `x` fills, open words included (R424). -/
def Waystation.fillFrom (w : Waystation) (x : Nat) : Nat :=
  ((w.queue (1 - x)).map fun m => m.words.length).sum + (w.opened x).length

/-- The other words of a party: the sender of a CSR access by its source; a Twivel access counts as firmware (R423, 25). -/
def partyOf : Src → Nat × Nat
  | .host => (0, 0)
  | .firmware => (1, 0)
  | .twivel => (1, 0)
/-- Kind and number bound to an end (Table 19.1). -/
def Chip.wsBound (c : Chip) (n x : Nat) : Nat × Nat :=
  if x = 0 then (c.fld (WS_CFG.a_kind n), 0)
  else
    let k := c.fld (WS_CFG.b_kind n)
    (k, if k = 2 then c.fld (WS_CFG.b_num n) else if k = 3 then c.fld (TRK_PEER.tile (c.fld (WS_CFG.b_num n) % 8)) else 0)
/-- A party's identity as one word: kind in bits 7 to 5, number in bits 19 to 8, as WS_x_RXHDR has them. -/
def identity (p : Nat × Nat) : Nat := p.1 * 32 + p.2 * 256
/-- Event of Waystation `n` (R438). -/
def wsEvent (n : Nat) : Nat := 128 + n

/-- Show the header of the head message end `x` receives (R427). -/
def Chip.wsHead (c : Chip) (n x : Nat) : Chip :=
  match (c.way n).queue x with
  | [] => (((c.put (WS_RXHDR.len n x) 0).put (WS_RXHDR.kind n x) 0).put (WS_RXHDR.num n x) 0).put (WS_RXHDR.epoch n x) 0
      |>.put (WS_RXHDR.tx_reset n x) 0 |>.put (WS_RXHDR.rx_reset n x) 0 |>.put (WS_RXHDR.valid n x) 0
  | m :: _ => (((c.put (WS_RXHDR.len n x) m.words.length).put (WS_RXHDR.kind n x) m.kind).put (WS_RXHDR.num n x) m.num).put
      (WS_RXHDR.epoch n x) m.epoch |>.putB (WS_RXHDR.tx_reset n x) (m.tx ≠ c.fld (WS_REPOCH.epoch n (1 - x)))
      |>.putB (WS_RXHDR.rx_reset n x) (m.rx ≠ c.fld (WS_REPOCH.epoch n x)) |>.put (WS_RXHDR.valid n x) 1

/-- Show the fills, heads, open words and lock of a Waystation and judge the standoff (R433). -/
def Chip.wsShow (c : Chip) (n : Nat) : Chip :=
  let w := c.way n
  let a := w.fillFrom 0
  let b := w.fillFrom 1
  let c := ((c.put (WS_STATUS.ab_fill n) a).put (WS_STATUS.ba_fill n) b).putB (WS_STATUS.locked n) w.owner.isSome
  let c := ((c.wsHead n 0).wsHead n 1).put (WS_OPEN.words n 0) (w.opened 0).length
  let c := c.put (WS_OPEN.words n 1) (w.opened 1).length
  let off := decide (16 ≤ a) && decide (16 ≤ b) && c.flag (WS_CTRL.wait n 0) && c.flag (WS_CTRL.wait n 1)
  let was := c.flag (WS_STATUS.standoff n)
  (c.putB (WS_STATUS.standoff n) off).doIf (off && !was) (·.raise (wsEvent n) 4 [a, b])

/-- Set doorbell bits at end `x` (R430): the event once for a send that sets an unmasked bit. -/
def Chip.wsBells (c : Chip) (n x bells : Nat) : Chip :=
  let c := c.put (WS_DB.bells n x) (c.fld (WS_DB.bells n x) ||| bells)
  c.doIf (bells - (bells &&& c.fld (WS_DB_MASK.mask n x)) ≠ 0) (·.raise (wsEvent n) 1 [x, bells])

/-- A read took an entry end `x` had sent: that end learns when its queue is empty (R429). -/
def Chip.wsEmptied (c : Chip) (n x : Nat) : Chip :=
  if (c.way n).fillFrom x ≠ 0 ∨ 2 ≤ (c.wsBound n x).1 then c
  else (c.put (WS_IRQ.tx_empty n x) 1).doIf (c.flag (WS_CTRL.empty_irq_en n x)) (·.raise (wsEvent n) 2 [x])

/-- R435: send what end B's trunk may carry, a word against a credit, and grant credits for free entries of queue BA. -/
def Chip.wsTrunk (c : Chip) (n : Nat) : Nat → Chip
  | 0 => c
  | k + 1 =>
    if !c.flag (WS_CFG.en n) ∨ c.fld (WS_CFG.b_kind n) ≠ 3 then c
    else
      let w := c.way n
      let u := c.fld (WS_CFG.b_num n) % 8
      let peer := c.fld (WS_CFG.peer_ws n)
      let ep := c.fld (WS_REPOCH.epoch n 0)
      let free := 16 - w.fillFrom 1 - w.granted
      if 0 < free then
        Chip.wsTrunk ((c.setWay n { w with granted := w.granted + free }).sendReliable u .mailbox [peer, 0, free, ep, 0, 0]) n k
      else match w.queue 1 with
        | [] => c
        | m :: rest =>
          match m.words with
          | [] => Chip.wsTrunk ((c.setWay n (w.setQueue 1 rest)).sendReliable u .mailbox [peer, 0, 0, ep, 0, m.bells]) n k
          | v :: vs =>
            if w.credits = 0 then c
            else
              let w := { w with credits := w.credits - 1 }
              let last := vs.isEmpty
              let w := w.setQueue 1 (if last then rest else { m with words := vs } :: rest)
              Chip.wsTrunk ((c.setWay n w).sendReliable u .mailbox
                [peer, 1 + 2 * ofBool last, 0, ep, v, if last then m.bells else 0]) n k

/-- The party of a CSR access is bound to end `x` and the Waystation is enabled (R423). -/
def Chip.wsAllowed (c : Chip) (n x : Nat) (src : Src) : Bool := c.flag (WS_CFG.en n) && c.wsBound n x = partyOf src

/-- WS_TX (R424, R425): one word joins the open message; a full queue breaks it. -/
def Chip.wsTx (c : Chip) (n x : Nat) (src : Src) (v : Nat) : Chip :=
  let w := c.way n
  if !c.wsAllowed n x src then c.put (WS_ERR.refused n) 1
  else if 16 ≤ w.fillFrom x then ((c.put (WS_ERR.refused n) 1).put (WS_OPEN.broken n x) 1).wsShow n
  else (c.setWay n (w.setOpen x (w.opened x ++ [v % 2 ^ 32]))).wsShow n

/-- WS_TX (R424). -/
def execWsTx (n : Fin 32) (x : Fin 2) (src : Src) (v : Word) (s : State) : Res :=
  s.on (·.wsTx n x src v.toNat)

/-- WS_SEND (R424 to R426): the open message is stamped and shown, then its doorbell bits are set; a broken message, and a
message of end A to a cluster, are discarded. -/
def Chip.wsSend (c : Chip) (n x : Nat) (src : Src) (bells : Nat) : Chip :=
  let w := c.way n
  if !c.wsAllowed n x src then c.put (WS_ERR.refused n) 1
  else if c.flag (WS_OPEN.broken n x) ∨ (x = 0 ∧ c.fld (WS_CFG.b_kind n) = 2) then
    (((c.setWay n (w.setOpen x [])).put (WS_OPEN.broken n x) 0).put (WS_ERR.refused n) 1).wsShow n
  else
    let y := 1 - x
    let p := c.wsBound n x
    let m : WsMsg := ⟨w.opened x, p.1, p.2, c.fld (WS_REPOCH.epoch n x), c.fld (WS_REPOCH.epoch n x), c.fld (WS_REPOCH.epoch n y), bells⟩
    if x = 0 ∧ c.fld (WS_CFG.b_kind n) = 3 then
      if m.words.isEmpty ∧ bells = 0 then c
      else ((c.setWay n ((w.setOpen x []).setQueue y (w.queue y ++ [m]))).wsTrunk n 64).wsShow n
    else if m.words.isEmpty then (c.wsBells n y bells).wsShow n
    else ((c.setWay n ((w.setOpen x []).setQueue y (w.queue y ++ [{ m with bells := 0 }]))).wsShow n).wsBells n y bells

/-- WS_SEND (R424). -/
def execWsSend (n : Fin 32) (x : Fin 2) (src : Src) (bells : Word) (s : State) : Res :=
  s.on (·.wsSend n x src bells.toNat)

/-- The next word a read of WS_x_RXDATA returns (R427). -/
def Chip.wsPeek (c : Chip) (n x : Nat) : Nat :=
  match (c.way n).queue x with
  | m :: _ => m.words.headD 0
  | [] => 0

/-- A read of WS_x_RXDATA with its side effect (R427 to R429). -/
def Chip.wsRead (c : Chip) (n x : Nat) : Chip :=
  let w := c.way n
  match w.queue x with
  | [] => c
  | m :: rest =>
    let vs := m.words.drop 1
    let w := w.setQueue x (if vs.isEmpty then rest else { m with words := vs } :: rest)
    (((c.setWay n w).wsEmptied n (1 - x)).wsTrunk n 64).wsShow n

/-- WS_RXDATA (R427): the word goes to the reader. -/
def execWsRxdata (n : Fin 32) (x : Fin 2) (src : Src) (s : State) : Res := s.on fun c =>
  (c.wsRead n x).emit (.csr src (WS_RXDATA.word n x).addr (c.wsPeek n x))

/-- What a read of WS_LOCK returns (R431). -/
def Chip.wsLockValue (c : Chip) (n : Nat) (p : Nat × Nat) : Nat :=
  match (c.way n).owner with
  | none => 0
  | some o => if o = p then 0 else 2 ^ 31 + identity o

/-- A read of WS_LOCK takes a free lock (R431). -/
def Chip.wsLockRead (c : Chip) (n : Nat) (p : Nat × Nat) : Chip :=
  match (c.way n).owner with
  | none => (c.setWay n { c.way n with owner := some p }).wsShow n
  | some _ => c

/-- WS_LOCK_READ (R431). -/
def execWsLockRead (n : Fin 32) (src : Src) (s : State) : Res := s.on fun c =>
  (c.wsLockRead n (partyOf src)).emit (.csr src (WS_LOCK.lock n).addr (c.wsLockValue n (partyOf src)))

/-- Waystations whose lock firmware owns, lowest first. -/
def Chip.fwLocks (c : Chip) : List Nat := numbersBelow 32 fun n => decide ((c.way n).owner = some (partyOf .firmware))
/-- DBG_STATUS.lockheld clears once firmware owns no lock (25 R535 and its example). -/
def Chip.lockShow (c : Chip) : Chip := if c.fwLocks.isEmpty then c.put DBG_STATUS.lockheld 0 else c

/-- A write of WS_LOCK (R431). -/
def Chip.wsLockWrite (c : Chip) (n : Nat) (p : Nat × Nat) (v : Nat) : Chip :=
  if (c.way n).owner = some p ∧ v = 0 then ((c.setWay n { c.way n with owner := none }).wsShow n).lockShow
  else c.put (WS_ERR.bad_value n) 1

/-- WS_LOCK_WRITE (R431). -/
def execWsLockWrite (n : Fin 32) (src : Src) (v : Word) (s : State) : Res := s.on fun c =>
  c.wsLockWrite n (partyOf src) v.toNat

/-- The lock is freed from an owner that lost it (R432). -/
def Chip.wsBreak (c : Chip) (n : Nat) : Chip :=
  match (c.way n).owner with
  | none => c
  | some o =>
    (((c.setWay n { c.way n with owner := none }).errEvt (WS_ERR.lock_broken n) (wsEvent n) 3 [identity o]).wsShow n).lockShow

/-- LOCK_BREAK (R432). -/
def execLockBreak (n : Fin 32) (s : State) : Res := s.on (·.wsBreak n)

/-- R434: both queues and open messages emptied, doorbell bits cleared, the words counted. -/
def Chip.wsFlush (c : Chip) (n : Nat) (p : Nat × Nat) : Chip :=
  let w := c.way n
  let k := w.fillFrom 0 + w.fillFrom 1
  let w := ((w.setQueue 0 []).setQueue 1 []).setOpen 0 [] |>.setOpen 1 []
  let c := ((c.setWay n w).put (WS_DB.bells n 0) 0).put (WS_DB.bells n 1) 0
  let c := ((c.put (WS_OPEN.broken n 0) 0).put (WS_OPEN.broken n 1) 0).addSat (WS_FLUSH_CNT.count n) k
  (((c.put (WS_ERR.flushed n) 1).raise (wsEvent n) 5 [identity p, k]).wsTrunk n 64).wsShow n

/-- WS_FLUSH (R434). -/
def execWsFlush (n : Fin 32) (src : Src) (s : State) : Res :=
  s.on (·.wsFlush n (partyOf src))

/-- WS_CFG_WRITE (R437, Table 19.1): taken while disabled; while enabled only a write that clears nothing but en. -/
def Chip.wsCfgWrite (c : Chip) (n v : Nat) : Chip :=
  let f (x : Fld) : Nat := x.of v
  if c.flag (WS_CFG.en n) then
    if f (WS_CFG.en n) = 0 ∧ f (WS_CFG.flush n) = c.fld (WS_CFG.flush n) ∧ f (WS_CFG.a_kind n) = c.fld (WS_CFG.a_kind n) ∧
        f (WS_CFG.b_kind n) = c.fld (WS_CFG.b_kind n) ∧ f (WS_CFG.b_num n) = c.fld (WS_CFG.b_num n) ∧
        f (WS_CFG.peer_ws n) = c.fld (WS_CFG.peer_ws n) then c.put (WS_CFG.en n) 0
    else c.put (WS_ERR.bad_value n) 1
  else
    let c := c.putLegal (WS_CFG.a_kind n) (WS_ERR.bad_value n) (f (WS_CFG.a_kind n) < 2) (f (WS_CFG.a_kind n))
    let c := c.putLegal (WS_CFG.b_kind n) (WS_ERR.bad_value n) (f (WS_CFG.b_kind n) < 4) (f (WS_CFG.b_kind n))
    let c := ((c.put (WS_CFG.flush n) (f (WS_CFG.flush n))).put (WS_CFG.b_num n) (f (WS_CFG.b_num n))).put
      (WS_CFG.peer_ws n) (f (WS_CFG.peer_ws n))
    ((c.put (WS_CFG.en n) (f (WS_CFG.en n))).wsTrunk n 64).wsShow n

/-- WS_CFG_WRITE (R437). -/
def execWsCfgWrite (n : Fin 32) (v : Word) (s : State) : Res := s.on (·.wsCfgWrite n v.toNat)

/-- A party's reset epoch advances (R422, R432, R434) at every end `at_` names; its locks are freed. -/
def Chip.wsEpochAt (c : Chip) (p : Nat × Nat) (at_ : Nat → Nat → Bool) : Chip :=
  c.each (List.range 32) fun c n =>
    let mine := at_ n 0 || at_ n 1
    let c := c.each [0, 1] fun c x =>
      if at_ n x then
        let c := c.incWrap (WS_REPOCH.epoch n x)
        if c.flag (WS_CFG.flush n) then c.wsFlush n p else c.wsShow n
      else c
    if mine && decide ((c.way n).owner = some p) then c.wsBreak n else c
/-- The same at every end bound to the party. -/
def Chip.wsEpoch (c : Chip) (kind num : Nat) : Chip := c.wsEpochAt (kind, num) fun n x => decide (c.wsBound n x = (kind, num))
/-- The same at every end B bound to trunk `u`, for its peer (Table 19.1). -/
def Chip.wsEpochTrunk (c : Chip) (u : Nat) : Chip :=
  c.wsEpochAt (3, c.fld (TRK_PEER.tile u)) fun n x =>
    decide (x = 1) && decide (c.fld (WS_CFG.b_kind n) = 3) && decide (c.fld (WS_CFG.b_num n) % 8 = u)

/-- MSG of a cluster (R426, R433): 0 posted, 1 full, 2 refused. -/
def Chip.wsPost (c : Chip) (n j v : Nat) : Chip × Nat :=
  let w := c.way n
  if !c.flag (WS_CFG.en n) || c.wsBound n 1 != (2, j) then (c, 2)
  else if 16 ≤ w.fillFrom 1 then ((c.put (WS_CTRL.wait n 1) 1).wsShow n, 1)
  else
    let m : WsMsg := ⟨[v % 2 ^ 32], 2, j, c.fld (WS_REPOCH.epoch n 1), c.fld (WS_REPOCH.epoch n 1), c.fld (WS_REPOCH.epoch n 0), 0⟩
    (((c.setWay n (w.setQueue 0 (w.queue 0 ++ [m]))).put (WS_CTRL.wait n 1) 0).wsShow n, 0)

/-- A MAILBOX message of trunk `u` (R435). -/
def Chip.wsMailbox (c : Chip) (u n flags credits epoch word bells : Nat) : Chip :=
  let w := c.way n
  if !c.flag (WS_CFG.en n) ∨ c.fld (WS_CFG.b_kind n) ≠ 3 ∨ c.fld (WS_CFG.b_num n) % 8 ≠ u then c.put (WS_ERR.refused n) 1
  else
    let w := { w with credits := w.credits + credits }
    let w := if flags % 2 = 1 then { w.setOpen 1 (w.opened 1 ++ [word]) with granted := w.granted - 1 } else w
    let last := bit flags 1
    let m : WsMsg := ⟨w.opened 1, 3, c.fld (TRK_PEER.tile u), epoch, c.fld (WS_REPOCH.epoch n 1), c.fld (WS_REPOCH.epoch n 0), 0⟩
    let w := if last && !(w.opened 1).isEmpty then (w.setOpen 1 []).setQueue 0 (w.queue 0 ++ [m]) else w
    let c := ((c.setWay n w).wsTrunk n 64).wsShow n
    if last || flags % 2 = 0 then (if bells = 0 then c else c.wsBells n 0 bells) else c

/-- MAILBOX (R435, 17 R389). -/
def execMailbox (u : Fin 8) (seq ack : Nat) (n : Fin 32) (flags credits epoch word bells : Nat) (s : State) : Res :=
  s.on fun c => c.receive u seq ack (·.wsMailbox u n flags credits epoch word bells)

end Sys2Proof.Machine
end

