-- ==== Sys2Proof/Machine/Clusters.lean ====
section
/-! DEFINITION. Arithmetic clusters (10): registers and local memory, the sequencer with its exposed pipeline, traps and
interrupts, commands, microcode, queues, the transfer engine, resets. The instructions stand in ClusterOps.lean. -/

namespace Sys2Proof.Machine

/-- Cluster `j`, 0 to 511. -/
def Chip.cl (c : Chip) (j : Nat) : Cluster := Tab.get {} c.clusters j
/-- Replace cluster `j`. -/
def Chip.setCl (c : Chip) (j : Nat) (x : Cluster) : Chip := { c with clusters := Tab.set {} c.clusters j x }
/-- Change cluster `j`. -/
def Chip.onCl (c : Chip) (j : Nat) (f : Cluster → Cluster) : Chip := c.setCl j (f (c.cl j))
/-- Event of cluster `j`, shared by four (R256). -/
def clEvent (j : Nat) : Nat := 224 + j / 128 * 136 + 76 + j % 128 / 4
/-- State code (Table 10.10): 0 RESET, 1 HALTED, 2 RUNNING, 3 HANDLER, 4 WAITING. -/
def Chip.clState (c : Chip) (j : Nat) : Nat := c.fld (CL_STATUS.state j)
/-- Scalar register `x`. -/
def Chip.clX (c : Chip) (j x : Nat) : Nat := c.fld2 (CL_X_LO.lo j x) (CL_X_HI.hi j x)
/-- Accumulator pattern of slice `s`, 72 bits. -/
def Chip.clAccBits (c : Chip) (j s : Nat) : Nat := c.fld3 (CL_ACC_LO.lo j s) (CL_ACC_MID.mid j s) (CL_ACC_TOP.top j s)
/-- Accumulator of slice `s`. -/
def Chip.clAcc (c : Chip) (j s : Nat) : Int := signedOf 72 (c.clAccBits j s)
/-- Set an accumulator's pattern and poison. -/
def Chip.setAccBits (c : Chip) (j s v : Nat) (poison : Bool) : Chip :=
  (c.put3 (CL_ACC_LO.lo j s) (CL_ACC_MID.mid j s) (CL_ACC_TOP.top j s) v).putB (CL_ACC_TOP.poison j s) poison
/-- Set an accumulator, saturating (R236). -/
def Chip.setAcc (c : Chip) (j s : Nat) (v : Int) (poison : Bool) : Chip :=
  (c.doIf (clampS 72 v ≠ v) (·.put (CL_ERR.acc_ovf j) 1)).setAccBits j s (patternOf 72 (clampS 72 v)) poison

/-- Show queue fills, vetoes, transfer and accumulator poison (Table 10.10). -/
def Chip.clShow (c : Chip) (j : Nat) : Chip :=
  let x := c.cl j
  let st := c.clState j
  let c := ((c.put (CL_FIFO.in_fill j) x.inq.length).put (CL_FIFO.out_fill j) x.outq.length).putB (CL_STATUS.xfer_busy j)
    x.xfer.isSome
  (c.putB (CL_STATUS.run_veto j) (decide (2 ≤ st) || x.xfer.isSome)).putB (CL_STATUS.acc_poison j)
    ((List.range 16).any fun s => c.flag (CL_ACC_TOP.poison j s))

/-- A word of local memory as it reads: corrected with one cell upset, as stored otherwise (R235). -/
def LmWord.value (w : LmWord) : Nat := if onesN 72 w.flips ≤ 1 then w.data else (w.data ^^^ w.flips) % 2 ^ 64
/-- A word that reads poisoned. -/
def LmWord.bad (w : LmWord) : Bool := w.poison || decide (2 ≤ onesN 72 w.flips)
/-- Local-memory word `i`. -/
def Cluster.word (x : Cluster) (i : Nat) : LmWord := Tab.get {} x.lm (i % 16384)
/-- Word of element `e` of bank `s` (R235). -/
def elemWord (s e : Nat) : Nat := e % 2048 / 2 * 16 + s
/-- Element `e` of bank `s`. -/
def Cluster.elem (x : Cluster) (s e : Nat) : Nat := bits (x.word (elemWord s e)).value (32 * (e % 2)) 32

/-- A write lands in a word: a whole word replaces it, a part keeps the rest and the poison. -/
def LmWord.take (w : LmWord) (m : LmWrite) : LmWord :=
  if m.mask = 2 ^ 64 - 1 then ⟨m.data, 0, m.poison⟩
  else
    let old := w.value
    ⟨old - (old &&& m.mask) + m.data, if onesN 72 w.flips ≤ 1 then 0 else w.flips, w.poison || m.poison⟩

/-- Put a write into local memory. -/
def Cluster.store (x : Cluster) (m : LmWrite) : Cluster :=
  { x with lm := Tab.set {} x.lm (m.word % 16384) ((x.word m.word).take m) }

/-- Cells of local memory upset since the last access: masks for the words named. -/
def Chip.lmUpset (c : Chip) (j : Nat) (ws flips : List Nat) : Chip :=
  c.onCl j fun x => (ws.zip flips).foldl (fun x p =>
    if p.2 % 2 ^ 72 = 0 then x
    else
      let w := x.word p.1
      { x with lm := Tab.set {} x.lm (p.1 % 16384) { w with flips := w.flips ^^^ (p.2 % 2 ^ 72) } }) x

/-- What reading words of local memory counts and raises (R235). -/
def Chip.lmTouch (c : Chip) (j : Nat) (ws : List Nat) : Chip :=
  c.each ws fun c i =>
    let w := (c.cl j).word i
    let n := onesN 72 w.flips
    if n = 0 then c
    else if n = 1 then
      (c.incSat (CL_LM_CE_CNT.count j)).onCl j fun x => { x with lm := Tab.set {} x.lm (i % 16384) { w with flips := 0 } }
    else
      (c.incSat (CL_LM_UE_CNT.count j)).errEvt (CL_ERR.lm_ue j) (clEvent j) 3 [j, i % 16, i / 16, recStamp c.now]

/-- Results that instruction slot `slot` sees first land (Table 10.3). -/
def Chip.clLand (c : Chip) (j upto : Nat) : Chip :=
  let x := c.cl j
  let c := c.each (x.xw.filter fun e => decide (e.1 ≤ upto)) fun c e => c.put2 (CL_X_LO.lo j e.2.1) (CL_X_HI.hi j e.2.1) e.2.2
  c.onCl j fun x =>
    let y := (x.lw.filter fun m => decide (m.due ≤ upto)).foldl Cluster.store x
    { y with xw := x.xw.filter fun e => decide (upto < e.1), lw := x.lw.filter fun m => decide (upto < m.due) }
/-- Everything in the pipeline completes. -/
def Chip.clDrain (c : Chip) (j : Nat) : Chip :=
  c.clLand j (((c.cl j).xw.map (·.1) ++ (c.cl j).lw.map (·.due)).foldl max 0)

/-- The top frame's number, when a frame is on the stack. -/
def Chip.clTop (c : Chip) (j : Nat) : Option Nat :=
  let d := c.fld (CL_STATUS.depth j)
  if d = 0 then none else some (d - 1)
/-- Push a loop frame. -/
def Chip.clPush (c : Chip) (j count e start : Nat) (handler : Bool) : Chip :=
  let l := c.fld (CL_STATUS.depth j)
  let c := ((c.put (CL_LOOP_LO.count j l) count).put (CL_LOOP_HI.end_ j l) e).put (CL_LOOP_HI.start j l) start
  ((c.putB (CL_LOOP_HI.handler j l) handler).put (CL_LOOP_HI.valid j l) 1).put (CL_STATUS.depth j) (l + 1)
/-- Pop the top frame. -/
def Chip.clPop (c : Chip) (j : Nat) : Chip :=
  match c.clTop j with
  | none => c
  | some l =>
    let c := ((c.put (CL_LOOP_LO.count j l) 0).put (CL_LOOP_HI.end_ j l) 0).put (CL_LOOP_HI.start j l) 0
    ((c.put (CL_LOOP_HI.handler j l) 0).put (CL_LOOP_HI.valid j l) 0).put (CL_STATUS.depth j) l

/-- Halted, with what the pipeline holds completed (R252). -/
def Chip.clHalt (c : Chip) (j : Nat) : Chip :=
  let c := (((c.clDrain j).onCl j fun x => { x with haltReq := false }).put (CL_STATUS.state j) 1).clShow j
  if c.dbg.cls.contains j then
    { c with dbg := { c.dbg with cls := c.dbg.cls.filter (· ≠ j) } }.raise 216 3 [j]
  else c

/-- RUNNING or HANDLER. -/
def Chip.clRunState (c : Chip) (j : Nat) : Chip := c.put (CL_STATUS.state j) (if (c.cl j).handler then 3 else 2)

/-- The loop-end test at the fetch of the instruction at CL_PC (R242), and the address fetched next in order: no test where a branch
falls due. -/
def Chip.clFetched (c : Chip) (j : Nat) : Chip × Nat :=
  let x := c.cl j
  let pc := c.fld (CL_PC.pc j)
  match x.redirs.lookup (x.slot + 1), c.clTop j with
  | none, some l =>
    if c.fld (CL_LOOP_HI.end_ j l) = pc && (!x.handler || c.flag (CL_LOOP_HI.handler j l)) then
      if 1 < c.fld (CL_LOOP_LO.count j l) then
        (c.put (CL_LOOP_LO.count j l) (c.fld (CL_LOOP_LO.count j l) - 1), c.fld (CL_LOOP_HI.start j l))
      else (c.clPop j, pc + 1)
    else (c, pc + 1)
  | _, _ => (c, pc + 1)

/-- The instruction at CL_PC has issued: on at the branch that falls due, else at `next`; results of earlier slots land; a halt
asked for acts at a boundary. -/
def Chip.clAdvanceTo (c : Chip) (j next : Nat) : Chip :=
  let x := c.cl j
  let k := x.slot + 1
  let c := c.put (CL_PC.pc j) ((x.redirs.lookup k).getD next)
  let c := c.onCl j fun x => { x with slot := k, redirs := x.redirs.filter fun e => decide (k < e.1) }
  let c := (c.clLand j k).clRunState j
  if x.haltReq && (c.cl j).redirs.isEmpty then c.clHalt j else c.clShow j
/-- The instruction at CL_PC has issued (R242): its loop-end test and what follows. -/
def Chip.clAdvance (c : Chip) (j : Nat) : Chip := let (c, n) := c.clFetched j; c.clAdvanceTo j n

/-- A trap (R251): to 0xF00 in handler mode, or fatal. -/
def Chip.clTrap (c : Chip) (j cause : Nat) : Chip :=
  let x := c.cl j
  let pc := c.fld (CL_PC.pc j)
  let fatal := x.handler || !x.redirs.isEmpty || pc = 0xF00 || pc = 0xF40
  let c := ((c.put (CL_TRAP.cause j) cause).put (CL_TRAP.pc j) pc).putB (CL_TRAP.fatal j) fatal
  let c := c.errEvt (CL_ERR.trap j) (clEvent j) 1 [j, cause, pc, ofBool fatal]
  if fatal then c.clHalt j
  else
    let c := (c.put (CL_IRA.ira j) pc).onCl j fun x => { x with handler := true, slot := x.slot + 1 }
    let c := ((c.put (CL_PC.pc j) 0xF00).clLand j (x.slot + 1)).clRunState j
    if x.haltReq then c.clHalt j else c.clShow j

/-- An instruction word (Table 10.4). -/
def clOp (w : Nat) : Nat := bits w 58 6
/-- Destination scalar. -/
def clXd (w : Nat) : Nat := bits w 54 4
/-- First source scalar. -/
def clXa (w : Nat) : Nat := bits w 50 4
/-- Second source scalar. -/
def clXb (w : Nat) : Nat := bits w 46 4
/-- Generator a. -/
def clAga (w : Nat) : Nat := bits w 43 3
/-- Generator b. -/
def clAgb (w : Nat) : Nat := bits w 40 3
/-- Operations of Table 10.5. -/
def clOps : List Nat :=
  [0, 1, 2, 3, 4, 5, 6, 7, 8, 9, 10, 0x10, 0x11, 0x12, 0x13, 0x14, 0x15, 0x18, 0x19, 0x1A, 0x1B, 0x1C, 0x1D, 0x20, 0x21, 0x22,
   0x23, 0x24, 0x25, 0x26, 0x3F]
/-- Neither a reserved opcode nor a reserved code in imm (R244). -/
def clLegal (w : Nat) : Bool :=
  clOps.contains (clOp w) && (clOp w ≠ 5 || bits w 8 2 ≠ 3) && (clOp w ≠ 0x11 || bits w 32 4 < 8) &&
    (clOp w ≠ 0x12 || bit w 39 || bits w 12 12 ≤ 2048) && (clOp w ≠ 0x1C || bits w 12 3 < 4)

/-- The sequencer's clock runs and nothing holds it: its GCK, a FREEZE capture, a load of its region (Table 10.9). -/
def Chip.clClocked (c : Chip) (j : Nat) : Bool :=
  let r := j / 8
  c.gckRuns (j / 128) (c.fld (CL_CTRL.gck j)) && !(c.quarter (r / 16)).held.contains (r % 16) && !(c.region r).loading

/-- An interrupt is taken here (R250): pending, enabled, not in handler mode, at a boundary or stalled in WAIT. -/
def Chip.clTakeable (c : Chip) (j : Nat) : Bool :=
  let x := c.cl j
  let st := c.clState j
  !x.handler && x.redirs.isEmpty && !x.haltReq && (c.fld (CL_IRQ_PEND.pend j) &&& c.fld (CL_IRQ_EN.en j)) ≠ 0 &&
    (st = 2 || (st = 4 && clOp (Tab.get 0 x.ucode (c.fld (CL_PC.pc j))) = 0x26))

/-- What an instruction did: it traps, it stalls, it issues (its loop-end test done, with the address that follows), it halts the
cluster. -/
inductive ClDone where
  | trap (c : Chip) (cause : Nat)
  | stall (c : Chip)
  | go (c : Chip)
  | goTo (c : Chip) (next : Nat)
  | halt (c : Chip)

/-- Execute the instruction at CL_PC when the command names it: the cluster running and clocked, no interrupt to be taken
first. A fetch with no valid microcode raises UFETCH, a reserved code ILLEGAL. -/
def Chip.clExec (c : Chip) (j : Nat) (sel : Nat → Bool) (f : Chip → Nat → ClDone) : Chip :=
  if c.clState j < 2 || !c.clClocked j || c.clTakeable j then c
  else if !c.flag (CL_STATUS.ucode_valid j) then c.clTrap j 2
  else
    let w := Tab.get 0 (c.cl j).ucode (c.fld (CL_PC.pc j))
    if !sel w then c
    else if !clLegal w then c.clTrap j 1
    else match f c w with
      | .trap c k => c.clTrap j k
      | .stall c => (c.put (CL_STATUS.state j) 4).clShow j
      | .go c => c.clAdvance j
      | .goTo c n => c.clAdvanceTo j n
      | .halt c =>
        let c := (c.clAdvance j).clHalt j
        c.doIf (c.flag (CL_CTRL.done_evt j)) (·.raise (clEvent j) 6 [j, c.fld (CL_PC.pc j), recStamp c.now])

/-- CL_INTERRUPT (R250): entry at 0xF40. -/
def execClInterrupt (j : Fin 512) (s : State) : Res := s.on fun c =>
  if !c.clClocked j || !c.clTakeable j then c
  else
    let c := if c.clState j = 4 then c.clAdvance j else c
    let c := (c.put (CL_IRA.ira j) (c.fld (CL_PC.pc j))).onCl j fun x => { x with handler := true }
    ((c.put (CL_PC.pc j) 0xF40).clRunState j).clShow j

/-- A command refused in this state (R252). -/
def Chip.clRefuse (c : Chip) (j : Nat) : Chip := c.put (CL_ERR.start_refused j) 1

/-- CL_CMD.start (R252). -/
def Chip.clStart (c : Chip) (j : Nat) : Chip :=
  if 1 < c.clState j ∨ !c.flag (CL_STATUS.ucode_valid j) then c.clRefuse j
  else
    let c := (((c.clPop j).clPop j).clPop j).clPop j
    let c := c.onCl j fun x => { x with handler := false, redirs := [], haltReq := false }
    ((c.put (CL_PC.pc j) (c.fld (CL_START.start j))).clRunState j).clShow j

/-- CL_CMD_START (R252). -/
def execClCmdStart (j : Fin 512) (s : State) : Res := s.on (·.clStart j)

/-- CL_CMD.resume (R252). -/
def Chip.clResume (c : Chip) (j : Nat) : Chip :=
  if c.clState j = 1 then ((c.onCl j fun x => { x with haltReq := false }).clRunState j).clShow j else c.clRefuse j

/-- CL_CMD_RESUME (R252). -/
def execClCmdResume (j : Fin 512) (s : State) : Res := s.on (·.clResume j)

/-- CL_CMD.halt (R252): at the next boundary; a stalled instruction is abandoned. -/
def Chip.clStop (c : Chip) (j : Nat) : Chip :=
  if c.clState j < 2 then c.clRefuse j
  else if (c.cl j).redirs.isEmpty ∨ c.clState j = 4 then c.clHalt j
  else c.onCl j fun x => { x with haltReq := true }

/-- CL_CMD_HALT (R252). -/
def execClCmdHalt (j : Fin 512) (s : State) : Res := s.on (·.clStop j)

/-- An interrupt source sets its pending bit (Table 10.6). -/
def Chip.clPend (c : Chip) (j b : Nat) : Chip := c.put (CL_IRQ_PEND.pend j) (c.fld (CL_IRQ_PEND.pend j) ||| 2 ^ b)

/-- CL_CMD_IRQ (R250). -/
def execClCmdIrq (j : Fin 512) (s : State) : Res := s.on (·.clPend j 0)

/-- CL_REGION_IRQ (R250): a line sampled on its rising level. -/
def execClRegionIrq (j : Fin 512) (line : Fin 4) (level : Bool) (s : State) : Res := s.on fun c =>
  let x := c.cl j
  let rise := level && !bit x.irqLines line
  (c.setCl j { x with irqLines := withBit x.irqLines line level }).doIf rise (·.clPend j (2 + line))

/-- Master image address (R248). -/
def Chip.ucodeBase (c : Chip) (j : Nat) : Nat := c.fld2 (CL_UCODE_BASE_LO.base_lo j) (CL_UCODE_BASE_HI.base_hi j) / 64 * 64

/-- CL_FAULT keeps the first failing line (Table 10.10). -/
def Chip.clFault (c : Chip) (j line resp : Nat) : Chip :=
  if c.flag (CL_FAULT_HI.valid j) then c
  else ((c.put2 (CL_FAULT_LO.addr_lo j) (CL_FAULT_HI.addr_hi j) line).put (CL_FAULT_HI.resp j) resp).put (CL_FAULT_HI.valid j) 1

/-- CL_CMD.load_ucode (R248). -/
def Chip.clLoad (c : Chip) (j : Nat) : Chip :=
  if 1 < c.clState j then c.put (CL_ERR.bad_value j) 1
  else (c.put (CL_STATUS.ucode_busy j) 1).emit (.dramRead (.cluster j) (c.ucodeBase j) 32768)

/-- CL_CMD_LOAD_UCODE (R248). -/
def execClCmdLoadUcode (j : Fin 512) (s : State) : Res := s.on (·.clLoad j)

/-- CL_UCODE_LOAD_DONE (R248): the 4,096 words of the copy, or the first line not answered OK and its response. -/
def execClUcodeLoadDone (j : Fin 512) (words : List (BitVec 64)) (fail : Option (Nat × Resp)) (s : State) : Res :=
  s.on fun c =>
    if !c.flag (CL_STATUS.ucode_busy j) then c
    else
      let c := c.put (CL_STATUS.ucode_busy j) 0
      match fail with
      | none =>
        let code := (words.take 4096).foldl (fun (acc : Tab Nat × Nat) v => (Tab.set 0 acc.1 acc.2 v.toNat, acc.2 + 1)) ([], 0)
        (c.onCl j fun x => { x with ucode := code.1 }).put (CL_STATUS.ucode_valid j) 1
      | some (line, r) =>
        let a := c.ucodeBase j + line * 64
        let c := (c.put (CL_STATUS.ucode_valid j) 0).clFault j a (respCode r)
        c.errEvt (CL_ERR.ucode_load j) (clEvent j) 2 [j, a, respCode r]

/-- CL_UCODE_REFETCH (R249): the line at CL_PC failed its CRC and is fetched again from the master; a failed refetch is the
UFETCH trap. -/
def execClUcodeRefetch (j : Fin 512) (resp : Resp) (data : Line) (s : State) : Res := s.on fun c =>
  if c.clState j < 2 || !c.clClocked j || !c.flag (CL_STATUS.ucode_valid j) then c
  else
    let line := c.fld (CL_PC.pc j) / 8
    let c := c.incSat (CL_UC_REFETCH_CNT.count j)
    if resp = .ok then
      c.onCl j fun x => { x with ucode := (List.range 8).foldl (fun t i => Tab.set 0 t (8 * line + i) (bits data.toNat (64 * i) 64)) x.ucode }
    else (c.clFault j (c.ucodeBase j + line * 64) (respCode resp)).clTrap j 2

/-- The fabric side of the queues is clocked (R245). -/
def Chip.clPorted (c : Chip) (j : Nat) : Bool := c.gckRuns (j / 128) (c.fld (CL_CTRL.port_gck j))

/-- CL_FABRIC_PUSH (R245): a beat joins the input queue while it holds fewer than 32. -/
def execClFabricPush (j : Fin 512) (lanes : Line) (poison : BitVec 16) (s : State) : Res := s.on fun c =>
  let x := c.cl j
  if !c.clPorted j || 32 ≤ x.inq.length then c
  else (c.setCl j { x with inq := x.inq ++ [⟨lanes.toNat, poison.toNat, false⟩] }).clShow j

/-- CL_FABRIC_POP (R245): the oldest beat of the output queue goes to the region. -/
def execClFabricPop (j : Fin 512) (s : State) : Res := s.on fun c =>
  let x := c.cl j
  match x.outq with
  | b :: rest =>
    if !c.clPorted j then c
    else ((c.setCl j { x with outq := rest }).clShow j).emit (.fabric (j / 8) 4 [j, b.lanes, b.poison, ofBool b.taint])
  | [] => c

/-- A transfer has all its answers (R246): its result, and interrupt source 1. -/
def Chip.clXferEnd (c : Chip) (j code : Nat) : Chip :=
  ((c.onCl j fun x => { x with xfer := none, result := code }).clPend j 1).clShow j

/-- CL_XFER_RESPONSE (R246): line `k` of the transfer in flight is answered; the last answer completes it. -/
def execClXferResponse (j : Fin 512) (k : Nat) (resp : Resp) (data : Line) (s : State) : Res := s.on fun c =>
  match (c.cl j).xfer with
  | none => c
  | some t =>
    if t.lines ≤ k || t.got.contains k then c
    else
      let a := t.dram + 64 * k
      let c := if t.toDram then c
        else
          let w0 := (t.loc + 64 * k) / 8
          let put (x : Cluster) (i : Nat) : Cluster :=
            x.store ⟨0, w0 + i, 2 ^ 64 - 1, if resp = .ok then bits data.toNat (64 * i) 64 else 0, resp ≠ .ok, false⟩
          let c := c.onCl j fun x => (List.range 8).foldl put x
          if resp = .ok then c.onCl j fun x => { x with read := Tab.set 0 x.read a (recStamp c.now) } else c
      let c := if resp = .ok then c
        else (c.clFault j a (respCode resp)).errEvt (CL_ERR.xfer_err j) (clEvent j) 4 [j, a, respCode resp]
      let t := { t with got := k :: t.got, bad := if t.bad.isNone && resp ≠ .ok then some (respCode resp) else t.bad }
      let c := c.onCl j fun x => { x with xfer := some t }
      if t.got.length = t.lines then c.clXferEnd j (t.bad.getD 0) else c.clShow j

/-- A late tag failure names a line (R246): when the engine has read it, taint from the stamp at which it arrived. -/
def Chip.clTaint (c : Chip) (j line : Nat) : Chip :=
  match (c.cl j).read.lookup (line / 64 * 64) with
  | none => c
  | some t =>
    let c := if c.flag (CL_ERR.taint j) then c
      else c.put2 (CL_TAINT_STAMP_LO.stamp_lo j) (CL_TAINT_STAMP_HI.stamp_hi j) t
    c.errEvt (CL_ERR.taint j) (clEvent j) 5 [j, line / 64 * 64, t]

/-- The word and half CL_LM_ADDR names. -/
def Chip.lmAt (c : Chip) (j : Nat) : Nat × Nat := (c.fld (CL_LM_ADDR.addr j) / 2, c.fld (CL_LM_ADDR.addr j) % 2)
/-- What a read of CL_LM_DATA returns (R253): 0 for a poisoned word. -/
def Chip.lmPeek (c : Chip) (j : Nat) : Nat :=
  let w := (c.cl j).word (c.lmAt j).1
  if w.bad then 0 else bits w.value (32 * (c.lmAt j).2) 32
/-- A read of CL_LM_DATA (R253). -/
def Chip.lmRead (c : Chip) (j : Nat) : Chip :=
  let i := (c.lmAt j).1
  let w := (c.cl j).word i
  let c := c.lmTouch j [i]
  let c := if w.bad then c.errEvt (CL_ERR.lm_ue j) (clEvent j) 3 [j, i % 16, i / 16, recStamp c.now] else c
  c.incWrap (CL_LM_ADDR.addr j)
/-- A write of CL_LM_DATA (R253): refused into a poisoned word. -/
def Chip.lmWrite (c : Chip) (j v : Nat) : Chip :=
  let (i, h) := c.lmAt j
  let c := if ((c.cl j).word i).bad then c
    else c.onCl j fun x => x.store ⟨0, i, (2 ^ 32 - 1) * 2 ^ (32 * h), v % 2 ^ 32 * 2 ^ (32 * h), false, false⟩
  c.incWrap (CL_LM_ADDR.addr j)

/-- CL_LM_DATA_READ (R253); `flips` the cells of the word upset since it was last read. -/
def execClLmDataRead (j : Fin 512) (src : Src) (flips : Nat) (s : State) : Res := s.on fun c =>
  let c := c.lmUpset j [(c.lmAt j).1] [flips]
  (c.lmRead j).emit (.csr src (CL_LM_DATA.data j).addr (c.lmPeek j))

/-- CL_LM_DATA_WRITE (R253). -/
def execClLmDataWrite (j : Fin 512) (v : Word) (s : State) : Res := s.on (·.lmWrite j v.toNat)

/-- A register write of the cluster's page that takes effect only in RESET or HALTED (R253): `off` is the offset. The low words of a
value are held until its last word is written (00 R15). -/
def Chip.clRegWrite (c : Chip) (j off v : Nat) : Chip :=
  if 1 < c.clState j then c.put (CL_ERR.bad_value j) 1
  else if off = 0 then
    (((c.put (CL_CTRL.gck j) ((CL_CTRL.gck j).of v)).put (CL_CTRL.port_gck j) ((CL_CTRL.port_gck j).of v)).put
      (CL_CTRL.poison_trap j) ((CL_CTRL.poison_trap j).of v)).put (CL_CTRL.done_evt j) ((CL_CTRL.done_evt j).of v)
  else if 0x100 ≤ off ∧ off < 0x140 then
    let a := (off - 0x100) / 8
    if off % 8 = 0 then c.hold (clBase j + off) v
    else
      let lo := c.heldWord (clBase j + off - 4) 0
      let c := (c.put (CL_AG_LO.base j a) ((CL_AG_LO.base j a).of lo)).putLegal (CL_AG_LO.len j a) (CL_ERR.bad_value j)
        ((CL_AG_LO.len j a).of lo ≤ 2048) ((CL_AG_LO.len j a).of lo)
      (c.put (CL_AG_HI.step j a) ((CL_AG_HI.step j a).of v)).put (CL_AG_HI.ptr j a) ((CL_AG_HI.ptr j a).of v)
  else if 0x200 ≤ off ∧ off < 0x280 then
    let x := (off - 0x200) / 8
    if off % 8 = 0 then c.hold (clBase j + off) v
    else (c.put (CL_X_LO.lo j x) (c.heldWord (clBase j + off - 4) 0)).put (CL_X_HI.hi j x) v
  else if 0x280 ≤ off ∧ off < 0x380 then
    let a := (off - 0x280) / 16
    if off % 16 = 0 ∨ off % 16 = 4 then c.hold (clBase j + off) v
    else if off % 16 = 8 then
      let c := (c.put (CL_ACC_LO.lo j a) (c.heldWord (clBase j + off - 8) 0)).put (CL_ACC_MID.mid j a)
        (c.heldWord (clBase j + off - 4) 0)
      ((c.put (CL_ACC_TOP.top j a) ((CL_ACC_TOP.top j a).of v)).put (CL_ACC_TOP.poison j a) ((CL_ACC_TOP.poison j a).of v)).clShow j
    else c
  else c

/-- CL_REG_WRITE (R253). -/
def execClRegWrite (j : Fin 512) (off : BitVec 10) (v : Word) (s : State) : Res :=
  s.on (·.clRegWrite j (off.toNat / 4 * 4) v.toNat)

/-- To RESET (Table 10.9): registers at their reset values, local memory zeroed, no valid microcode; the reset epoch of the
party advances (19 R422). -/
def Chip.clReset (c : Chip) (j : Nat) : Chip :=
  let a := (CL_CTRL.gck j).addr
  let c := { c with dbg := { c.dbg with cls := c.dbg.cls.filter (· ≠ j) } }
  ((c.resetRange a (a + 0x400)).setCl j {}).wsEpoch 2 j
/-- DORMANT (Table 10.9): sequencer, scalars, generators and accumulators lost; HALTED, local memory zeroed, control
registers and microcode kept. -/
def Chip.clDormant (c : Chip) (j : Nat) : Chip :=
  let a := (CL_CTRL.gck j).addr
  let c := (c.resetRange (a + 0x100) (a + 0x400)).put (CL_STATUS.depth j) 0
  let c := c.setCl j { ucode := (c.cl j).ucode }
  ((if c.clState j = 0 then c else c.put (CL_STATUS.state j) 1).put (CL_PC.pc j) 0).clShow j

end Sys2Proof.Machine
end

