-- ==== Sys2Proof/Machine/ClusterOps.lean ====
section
/-! DEFINITION. The instructions of the arithmetic clusters (10 R236 to R247). Each command executes the instruction at
CL_PC when it is the one named; `flips` are the cells of local memory upset since the words it reads were last accessed. -/

namespace Sys2Proof.Machine

/-- Element address generator `a` gives (R239). -/
def Chip.agAddr (c : Chip) (j a : Nat) : Nat := (c.fld (CL_AG_LO.base j a) + c.fld (CL_AG_HI.ptr j a)) % 2048
/-- Advance a generator's pointer once (R239). -/
def Chip.agNext (c : Chip) (j a : Nat) : Chip :=
  let len := c.fld (CL_AG_LO.len j a)
  let m := if len = 0 then 2048 else len
  c.put (CL_AG_HI.ptr j a) ((((c.fld (CL_AG_HI.ptr j a) : Nat) : Int) + c.fldS (CL_AG_HI.step j a)) % (m : Int)).toNat
/-- Advance the generators an instruction names, each once. -/
def Chip.agNext2 (c : Chip) (j a b : Nat) : Chip := if a = b then c.agNext j a else (c.agNext j a).agNext j b

/-- A scalar result, first seen two slots on (Table 10.3). -/
def Chip.clSetX (c : Chip) (j x v : Nat) : Chip :=
  c.onCl j fun k => { k with xw := k.xw ++ [(k.slot + 2, x, v % 2 ^ 64)] }
/-- A local-memory write, first seen three slots on (Table 10.3). -/
def Chip.clPutLm (c : Chip) (j word mask data : Nat) (poison hist : Bool) : Chip :=
  c.onCl j fun k => { k with lw := k.lw ++ [⟨k.slot + 3, word, mask, data, poison, hist⟩] }
/-- Write element `e` of bank `s`. -/
def Chip.clPutElem (c : Chip) (j s e v : Nat) (poison hist : Bool) : Chip :=
  let h := 2 ^ (32 * (e % 2))
  c.clPutLm j (elemWord s e) ((2 ^ 32 - 1) * h) (v % 2 ^ 32 * h) poison hist

/-- The sixteen slices. -/
def slices : List Nat := List.range 16
/-- The A operand of an element (R236). -/
def operandA (e : Nat) : Int := signedOf 27 e
/-- The B operand of an element (R236). -/
def operandB (e : Nat) : Int := signedOf 24 e

/-- Read an operand element in every slice: counts and events of the read, then the POISON trap where CL_CTRL asks for it;
otherwise go on with the chip, each slice's word and its poison. `banks` gives each slice its bank. -/
def Chip.clOperands (c : Chip) (j : Nat) (ws : List Nat) (flips : List Nat) (f : Chip → ClDone) : ClDone :=
  let c := (c.lmUpset j ws flips).lmTouch j ws
  if c.flag (CL_CTRL.poison_trap j) && ws.any fun i => ((c.cl j).word i).bad then .trap c 6 else f c

/-- MAC, MSU, MUL (R236, R237): `upd` gives the new accumulator of the old one and the product; `keep` keeps old poison. -/
def Chip.clMul (c : Chip) (j w : Nat) (flips : List Nat) (keep : Bool) (upd : Int → Int → Int) : ClDone :=
  let ea := c.agAddr j (clAga w)
  let eb := c.agAddr j (clAgb w)
  let bank (s : Nat) : Nat := if bit w 0 then 0 else s
  let ws := (slices.map fun s => elemWord s ea) ++ (if bit w 0 then [elemWord 0 eb] else slices.map fun s => elemWord s eb)
  c.clOperands j ws flips fun c =>
    let c := c.each slices fun c s =>
      let x := c.cl j
      let p := operandA (x.elem s ea) * operandB (x.elem (bank s) eb)
      let bad := (x.word (elemWord s ea)).bad || (x.word (elemWord (bank s) eb)).bad
      c.setAcc j s (upd (c.clAcc j s) p) (bad || (keep && c.flag (CL_ACC_TOP.poison j s)))
    .go (c.agNext2 j (clAga w) (clAgb w))

/-- Select the instructions of one operation. -/
def clIs (op w : Nat) : Bool := clOp w = op

/-- CL_NOP (R244). -/
def execClNop (j : Fin 512) (s : State) : Res := s.on fun c => c.clExec j (clIs 0) fun c _ => .go c
/-- CL_MAC (R236). -/
def execClMac (j : Fin 512) (flips : List Nat) (s : State) : Res :=
  s.on fun c => c.clExec j (clIs 1) fun c w => c.clMul j w flips true fun a p => a + p
/-- CL_MSU (R236). -/
def execClMsu (j : Fin 512) (flips : List Nat) (s : State) : Res :=
  s.on fun c => c.clExec j (clIs 2) fun c w => c.clMul j w flips true fun a p => a - p
/-- CL_MUL (R236). -/
def execClMul (j : Fin 512) (flips : List Nat) (s : State) : Res :=
  s.on fun c => c.clExec j (clIs 3) fun c w => c.clMul j w flips false fun _ p => p
/-- CL_CLR (R237). -/
def execClClr (j : Fin 512) (s : State) : Res :=
  s.on fun c => c.clExec j (clIs 4) fun c _ => .go (c.each slices fun c k => c.setAccBits j k 0 false)

/-- The conversion of R238: the stored value and whether it saturated. -/
def convertAcc (acc : Int) (width sh rnd : Nat) : Int × Bool :=
  let t : Int :=
    if sh = 0 then acc
    else if rnd = 0 then acc / (2 ^ sh : Nat)
    else if rnd = 1 then (acc + (2 ^ (sh - 1) : Nat)) / (2 ^ sh : Nat)
    else
      let t := acc / (2 ^ sh : Nat)
      let rem := acc - t * (2 ^ sh : Nat)
      if rem > (2 ^ (sh - 1) : Nat) ∨ (rem = (2 ^ (sh - 1) : Nat) ∧ t % 2 = 1) then t + 1 else t
  (clampS width t, clampS width t ≠ t)

/-- Width code of ST (Table 10.5). -/
def stWidth (w : Nat) : Nat := if bits w 0 2 = 0 then 16 else if bits w 0 2 = 1 then 24 else if bits w 0 2 = 2 then 32 else 48

/-- ST (R237, R238, R244): one element, or two for width 48, which needs an even element. -/
def Chip.clSt (c : Chip) (j w : Nat) : ClDone :=
  let e := c.agAddr j (clAga w)
  let width := stWidth w
  if width = 48 ∧ e % 2 = 1 then .trap c 7
  else
    let c := c.each slices fun c s =>
      let (v, sat) := convertAcc (c.clAcc j s) width (bits w 2 6) (bits w 8 2)
      let p := c.flag (CL_ACC_TOP.poison j s)
      let c := c.doIf sat (·.incSat (CL_SAT_CNT.count j))
      if width = 48 then c.clPutLm j (elemWord s e) (2 ^ 64 - 1) (patternOf 64 v) p false
      else c.clPutElem j s e (patternOf 32 v) p false
    .go (c.agNext j (clAga w))
/-- CL_ST (R238). -/
def execClSt (j : Fin 512) (s : State) : Res := s.on fun c => c.clExec j (clIs 5) fun c w => c.clSt j w

/-- ACCSV (R244): the accumulator to elements e, e + 1 and e + 2, e even. -/
def Chip.clAccsv (c : Chip) (j w : Nat) : ClDone :=
  let e := c.agAddr j (clAga w)
  if e % 2 = 1 then .trap c 7
  else
    let c := c.each slices fun c s =>
      let v := c.clAccBits j s
      let p := c.flag (CL_ACC_TOP.poison j s)
      (c.clPutLm j (elemWord s e) (2 ^ 64 - 1) (v % 2 ^ 64) p false).clPutElem j s (e + 2)
        (patternOf 32 (signedOf 8 (v / 2 ^ 64))) p false
    .go (c.agNext j (clAga w))
/-- CL_ACCSV (R244). -/
def execClAccsv (j : Fin 512) (s : State) : Res := s.on fun c => c.clExec j (clIs 6) fun c w => c.clAccsv j w

/-- ACCLD (R244): the reverse of ACCSV. -/
def Chip.clAccld (c : Chip) (j w : Nat) (flips : List Nat) : ClDone :=
  let e := c.agAddr j (clAga w)
  if e % 2 = 1 then .trap c 7
  else
    c.clOperands j ((slices.map fun s => elemWord s e) ++ slices.map fun s => elemWord s (e + 2)) flips fun c =>
      let c := c.each slices fun c s =>
        let x := c.cl j
        let v := x.elem s e + 2 ^ 32 * x.elem s (e + 1) + 2 ^ 64 * (x.elem s (e + 2) % 256)
        c.setAccBits j s v ((x.word (elemWord s e)).bad || (x.word (elemWord s (e + 2))).bad)
      .go (c.agNext j (clAga w))
/-- CL_ACCLD (R244). -/
def execClAccld (j : Fin 512) (flips : List Nat) (s : State) : Res :=
  s.on fun c => c.clExec j (clIs 7) fun c w => c.clAccld j w flips

/-- A word with the writes of earlier HISTs in it (R241: they forward). -/
def Cluster.histWord (x : Cluster) (i : Nat) : LmWord :=
  (x.lw.filter fun m => m.hist && m.word = i).foldl LmWord.take (x.word i)

/-- HIST (R237, R244): one more sample in the bin of each slice. -/
def Chip.clHist (c : Chip) (j w : Nat) (flips : List Nat) : ClDone :=
  let e := c.agAddr j (clAga w)
  let n := if c.fld (CL_AG_LO.len j (clAgb w)) = 0 then 2048 else c.fld (CL_AG_LO.len j (clAgb w))
  let bin (x : Cluster) (s : Nat) : Nat :=
    let v := operandA (x.elem s e) / (2 ^ bits w 0 6 : Nat)
    (c.fld (CL_AG_LO.base j (clAgb w)) + (max 0 (min v ((n : Int) - 1))).toNat) % 2048
  let as_ := slices.map fun s => elemWord s e
  let c := (c.lmUpset j as_ flips).lmTouch j as_
  let bs := slices.map fun s => elemWord s (bin (c.cl j) s)
  let c := c.lmTouch j bs
  if c.flag (CL_CTRL.poison_trap j) && (as_ ++ bs).any fun i => ((c.cl j).word i).bad then .trap c 6
  else
    let c := c.each slices fun c s =>
      let x := c.cl j
      let b := bin x s
      let old := x.histWord (elemWord s b)
      let v := bits old.value (32 * (b % 2)) 32
      let p := (x.word (elemWord s e)).bad || old.bad
      (c.clPutElem j s b (min (v + 1) (2 ^ 32 - 1)) false true).putB (CL_ACC_TOP.poison j s)
        (p || c.flag (CL_ACC_TOP.poison j s))
    .go (c.agNext j (clAga w))
/-- CL_HIST (R244). -/
def execClHist (j : Fin 512) (flips : List Nat) (s : State) : Res :=
  s.on fun c => c.clExec j (clIs 8) fun c w => c.clHist j w flips

/-- SIG (R244): the CRC-32C of the low accumulator word goes on over the element's four bytes. -/
def Chip.clSig (c : Chip) (j w : Nat) (flips : List Nat) : ClDone :=
  let e := c.agAddr j (clAga w)
  c.clOperands j (slices.map fun s => elemWord s e) flips fun c =>
    let c := c.each slices fun c s =>
      let v := c.clAccBits j s
      let crc := (bytesLE 4 ((c.cl j).elem s e)).foldl crc32cByte (v % 2 ^ 32)
      c.setAccBits j s (v - v % 2 ^ 32 + crc % 2 ^ 32) (c.flag (CL_ACC_TOP.poison j s))
    .go (c.agNext j (clAga w))
/-- CL_SIG (R244). -/
def execClSig (j : Fin 512) (flips : List Nat) (s : State) : Res :=
  s.on fun c => c.clExec j (clIs 9) fun c w => c.clSig j w flips

/-- ADDA (R236, R237). -/
def Chip.clAdda (c : Chip) (j w : Nat) (flips : List Nat) : ClDone :=
  let e := c.agAddr j (clAga w)
  c.clOperands j (slices.map fun s => elemWord s e) flips fun c =>
    let c := c.each slices fun c s =>
      let x := c.cl j
      c.setAcc j s (c.clAcc j s + operandA (x.elem s e)) ((x.word (elemWord s e)).bad || c.flag (CL_ACC_TOP.poison j s))
    .go (c.agNext j (clAga w))
/-- CL_ADDA (R244). -/
def execClAdda (j : Fin 512) (flips : List Nat) (s : State) : Res :=
  s.on fun c => c.clExec j (clIs 10) fun c w => c.clAdda j w flips

/-- A 32-bit immediate sign-extended to 64 bits. -/
def imm64 (w : Nat) : Nat := patternOf 64 (signedOf 32 w)
/-- CL_LDI (R244). -/
def execClLdi (j : Fin 512) (s : State) : Res :=
  s.on fun c => c.clExec j (clIs 0x10) fun c w => .go (c.clSetX j (clXd w) (imm64 w))

/-- ALU functions on 64-bit words (Table 10.5). A shift by 64 or more has no stated result: a free value. -/
def aluFn (fn a b : Nat) : Nat :=
  let m := 2 ^ 64
  if fn = 0 then (a + b) % m
  else if fn = 1 then (a + m - b % m) % m
  else if fn = 2 then a &&& b
  else if fn = 3 then a ||| b
  else if fn = 4 then a ^^^ b
  else if 64 ≤ b then Sys2Proof.Config.clusterShift fn a b % m
  else if fn = 5 then a * 2 ^ b % m
  else if fn = 6 then a / 2 ^ b
  else patternOf 64 (signedOf 64 a / (2 ^ b : Nat))
/-- CL_ALU (R244). -/
def execClAlu (j : Fin 512) (s : State) : Res :=
  s.on fun c => c.clExec j (clIs 0x11) fun c w =>
    .go (c.clSetX j (clXd w) (aluFn (bits w 32 4) (c.clX j (clXa w)) (if bit w 36 then c.clX j (clXb w) else imm64 w)))

/-- AGSET (R239, R244): base, length and step from imm with the pointer cleared, or all four from xa. -/
def Chip.clAgset (c : Chip) (j w : Nat) : Chip :=
  let a := clAga w
  let v := if bit w 39 then c.clX j (clXa w) else w
  let (len, step, p) := if bit w 39 then (bits v 16 12, bits v 32 12, bits v 48 11) else (bits v 12 12, bits v 24 12, 0)
  ((c.put (CL_AG_LO.base j a) (bits v 0 11)).putLegal (CL_AG_LO.len j a) (CL_ERR.bad_value j) (len ≤ 2048) len).put
    (CL_AG_HI.step j a) step |>.put (CL_AG_HI.ptr j a) p
/-- CL_AGSET (R239). -/
def execClAgset (j : Fin 512) (s : State) : Res := s.on fun c => c.clExec j (clIs 0x12) fun c w => .go (c.clAgset j w)

/-- CL_AGGET (R244). -/
def execClAgget (j : Fin 512) (s : State) : Res := s.on fun c => c.clExec j (clIs 0x13) fun c w =>
  let a := clAga w
  .go (c.clSetX j (clXd w) (c.fld (CL_AG_LO.base j a) + 2 ^ 16 * c.fld (CL_AG_LO.len j a) +
    2 ^ 32 * c.fld (CL_AG_HI.step j a) + 2 ^ 48 * c.fld (CL_AG_HI.ptr j a)))

/-- Local byte address xa + imm[16:0]. -/
def Chip.clLocal (c : Chip) (j w : Nat) : Nat := (c.clX j (clXa w) + bits w 0 17) % 2 ^ 17

/-- LDX (R237, R244): a poisoned word always traps. -/
def Chip.clLdx (c : Chip) (j w : Nat) (flips : List Nat) : ClDone :=
  let a := c.clLocal j w
  if a % 8 ≠ 0 then .trap c 7
  else
    let c := (c.lmUpset j [a / 8] flips).lmTouch j [a / 8]
    let m := (c.cl j).word (a / 8)
    if m.bad then .trap c 6 else .go (c.clSetX j (clXd w) m.value)
/-- CL_LDX (R244). -/
def execClLdx (j : Fin 512) (flips : List Nat) (s : State) : Res :=
  s.on fun c => c.clExec j (clIs 0x14) fun c w => c.clLdx j w flips

/-- STX (R244). -/
def Chip.clStx (c : Chip) (j w : Nat) : ClDone :=
  let a := c.clLocal j w
  if a % 8 ≠ 0 then .trap c 7 else .go (c.clPutLm j (a / 8) (2 ^ 64 - 1) (c.clX j (clXb w)) false false)
/-- CL_STX (R244). -/
def execClStx (j : Fin 512) (s : State) : Res := s.on fun c => c.clExec j (clIs 0x15) fun c w => c.clStx j w

/-- A branch is on its way: its target follows the two next slots (R241). -/
def Chip.clBranch (c : Chip) (j target : Nat) : Chip :=
  c.onCl j fun x => { x with redirs := x.redirs ++ [(x.slot + 3, target % 4096)] }

/-- LOOP (R242). -/
def Chip.clLoop (c : Chip) (j w : Nat) : ClDone :=
  let p := c.fld (CL_PC.pc j)
  let e := bits w 16 12
  let count := if bit w 39 then c.clX j (clXa w) % 2 ^ 32 else bits w 0 16
  let under := match c.clTop j with
    | some l => decide (c.fld (CL_LOOP_HI.end_ j l) ≤ e)
    | none => false
  if e < p + 3 || under || (!(c.cl j).handler && decide (0xF00 ≤ e)) then .trap c 4
  else if count = 0 then .go (c.clBranch j (e + 1))
  else if 4 ≤ c.fld (CL_STATUS.depth j) then .trap c 3
  else .go (c.clPush j count e (p + 1) (c.cl j).handler)
/-- CL_LOOP (R242). -/
def execClLoop (j : Fin 512) (s : State) : Res := s.on fun c => c.clExec j (clIs 0x18) fun c w => c.clLoop j w

/-- LPOP (R244); its own loop-end test comes at its fetch, before the pop. -/
def Chip.clLpop (c : Chip) (j w : Nat) : ClDone :=
  let (d, n) := c.clFetched j
  match d.clTop j with
  | none => .trap c 3
  | some l =>
    let v := d.fld (CL_LOOP_LO.count j l) + 2 ^ 32 * d.fld (CL_LOOP_HI.end_ j l) + 2 ^ 44 * d.fld (CL_LOOP_HI.start j l) +
      2 ^ 56 * d.fld (CL_LOOP_HI.handler j l)
    .goTo ((d.clPop j).clSetX j (clXd w) v) n
/-- CL_LPOP (R244). -/
def execClLpop (j : Fin 512) (s : State) : Res := s.on fun c => c.clExec j (clIs 0x19) fun c w => c.clLpop j w

/-- LPUSH (R244); its own loop-end test comes at its fetch, before the push. -/
def Chip.clLpush (c : Chip) (j w : Nat) : ClDone :=
  let (d, n) := c.clFetched j
  let v := d.clX j (clXa w)
  if 4 ≤ d.fld (CL_STATUS.depth j) then .trap c 3
  else .goTo (d.clPush j (v % 2 ^ 32) (bits v 32 12) (bits v 44 12) (bit v 56)) n
/-- CL_LPUSH (R244). -/
def execClLpush (j : Fin 512) (s : State) : Res := s.on fun c => c.clExec j (clIs 0x1A) fun c w => c.clLpush j w

/-- At e - 2, e - 1 or e of the top frame (R243). -/
def Chip.clInEnd (c : Chip) (j : Nat) : Bool :=
  match c.clTop j with
  | some l => let e := c.fld (CL_LOOP_HI.end_ j l); let p := c.fld (CL_PC.pc j); decide (p ≤ e) && decide (e ≤ p + 2)
  | none => false
/-- CL_JMP (R243). -/
def execClJmp (j : Fin 512) (s : State) : Res := s.on fun c => c.clExec j (clIs 0x1B) fun c w =>
  if c.clInEnd j then .trap c 5 else .go (c.clBranch j (bits w 0 12))
/-- The condition of BR (Table 10.5). -/
def brTaken (cond x : Nat) : Bool :=
  if cond = 0 then x = 0 else if cond = 1 then x ≠ 0 else if cond = 2 then bit x 63 else !bit x 63
/-- CL_BR (R243). -/
def execClBr (j : Fin 512) (s : State) : Res := s.on fun c => c.clExec j (clIs 0x1C) fun c w =>
  if c.clInEnd j then .trap c 5
  else .go (if brTaken (bits w 12 3) (c.clX j (clXa w)) then c.clBranch j (bits w 0 12) else c)
/-- CL_RETI (R251): out of handler mode, on at CL_IRA or xa. -/
def execClReti (j : Fin 512) (s : State) : Res := s.on fun c => c.clExec j (clIs 0x1D) fun c w =>
  .go ((c.clBranch j (if bit w 12 then c.clX j (clXa w) else c.fld (CL_IRA.ira j))).onCl j fun x => { x with handler := false })

/-- IN (R245): a beat of the input queue to the banks, or a stall. -/
def Chip.clIn (c : Chip) (j w : Nat) : ClDone :=
  match (c.cl j).inq with
  | [] => .stall c
  | b :: rest =>
    let e := c.agAddr j (clAga w)
    let c := c.onCl j fun x => { x with inq := rest }
    let c := c.each slices fun c s => c.clPutElem j s e (bits b.lanes (32 * s) 32) (bit b.poison s) false
    .go (c.agNext j (clAga w))
/-- CL_IN (R245). -/
def execClIn (j : Fin 512) (s : State) : Res := s.on fun c => c.clExec j (clIs 0x20) fun c w => c.clIn j w

/-- OUT (R245): a beat of the banks to the output queue, or a stall. -/
def Chip.clOut (c : Chip) (j w : Nat) (flips : List Nat) : ClDone :=
  if 32 ≤ (c.cl j).outq.length then .stall c
  else
    let e := c.agAddr j (clAga w)
    let ws := slices.map fun s => elemWord s e
    let c := (c.lmUpset j ws flips).lmTouch j ws
    let x := c.cl j
    let lanes := slices.foldl (fun v s => v + x.elem s e * 2 ^ (32 * s)) 0
    let poison := maskOf (slices.filter fun s => (x.word (elemWord s e)).bad)
    let c := c.setCl j { x with outq := x.outq ++ [⟨lanes, poison, c.flag (CL_ERR.taint j)⟩] }
    .go (c.agNext j (clAga w))
/-- CL_OUT (R245). -/
def execClOut (j : Fin 512) (flips : List Nat) (s : State) : Res :=
  s.on fun c => c.clExec j (clIs 0x21) fun c w => c.clOut j w flips

/-- The 64 bytes of local memory a transfer line takes. -/
def Cluster.lineBytes (x : Cluster) (loc : Nat) : List Nat :=
  (List.range 8).flatMap fun i => bytesLE 8 (x.word (loc / 8 + i)).value

/-- XFER (R246): the requests of its lines, or EMPTY at once for none; a stall while the engine is busy. -/
def Chip.clXfer (c : Chip) (j w : Nat) : ClDone :=
  let d := c.clX j (clXa w) % 2 ^ 41
  let l := c.clX j (clXb w) % 2 ^ 17
  let n := bits w 0 10
  if d % 64 ≠ 0 ∨ l % 64 ≠ 0 then .trap c 7
  else if (c.cl j).xfer.isSome then .stall c
  else if n = 0 then .go (c.clXferEnd j 6)
  else
    let out := bit w 10
    let c := c.onCl j fun x => { x with xfer := some ⟨out, d, l, n, [], none⟩ }
    .go (c.each (List.range n) fun c k =>
      if out then c.emit (.dramWrite (.cluster j) (d + 64 * k) ((c.cl j).lineBytes (l + 64 * k)))
      else c.emit (.dramRead (.cluster j) (d + 64 * k) 64))
/-- CL_XFER (R246). -/
def execClXfer (j : Fin 512) (s : State) : Res := s.on fun c => c.clExec j (clIs 0x22) fun c w => c.clXfer j w

/-- CL_WAITX (R246). -/
def execClWaitx (j : Fin 512) (s : State) : Res := s.on fun c => c.clExec j (clIs 0x23) fun c w =>
  if (c.cl j).xfer.isSome then .stall c else .go (c.clSetX j (clXd w) (c.cl j).result)
/-- CL_TIME (R244): bits 63 to 0 of the full stamp. -/
def execClTime (j : Fin 512) (s : State) : Res := s.on fun c => c.clExec j (clIs 0x24) fun c w =>
  .go (c.clSetX j (clXd w) c.now)
/-- CL_MSG (R247): 0 posted, 1 full, 2 refused. -/
def execClMsg (j : Fin 512) (s : State) : Res := s.on fun c => c.clExec j (clIs 0x25) fun c w =>
  let (c, r) := c.wsPost (bits w 0 5) j (c.clX j (clXa w))
  .go (c.clSetX j (clXd w) r)
/-- CL_WAIT (R244): stalls until an enabled interrupt is pending. -/
def execClWait (j : Fin 512) (s : State) : Res := s.on fun c => c.clExec j (clIs 0x26) fun c _ =>
  if (c.fld (CL_IRQ_PEND.pend j) &&& c.fld (CL_IRQ_EN.en j)) ≠ 0 then .go c else .stall c
/-- CL_HALT (R244, R254). -/
def execClHalt (j : Fin 512) (s : State) : Res := s.on fun c => c.clExec j (clIs 0x3F) fun c _ => .halt c
/-- CL_ILLEGAL (R244): a reserved opcode or field code raises the ILLEGAL trap. -/
def execClIllegal (j : Fin 512) (s : State) : Res := s.on fun c => c.clExec j (fun w => !clLegal w) fun c _ => .trap c 1

end Sys2Proof.Machine
end

