-- ==== Sys2Proof/Machine/Msix.lean ====
section
/-! DEFINITION. MSI-X messages and host requests (16 R373, R378, 15 R365): when the function can send, pending bits, and what
waits for Bus Master Enable. -/

namespace Sys2Proof.Machine

/-- The function can issue memory requests: in D0 with Bus Master Enable and the link up. -/
def Chip.hostUp (c : Chip) : Bool := c.flag HIF_STATUS.bme && !c.flag HIF_STATUS.d3hot && c.flag HIF_STATUS.link_up

/-- A vector's message can be sent (R373). -/
def Chip.vectorOpen (c : Chip) (v : Nat) : Bool :=
  c.hostUp && c.host.msixEn && !c.host.funcMask && !c.flag (MSIX_CTL.masked v)

/-- The pending bit of a vector. -/
def Chip.setPba (c : Chip) (v : Nat) (b : Bool) : Chip :=
  c.put (EV_PBA.pending (v / 32)) (withBit (c.fld (EV_PBA.pending (v / 32))) (v % 32) b)

/-- Send a vector's message. -/
def Chip.sendVector (c : Chip) (v : Nat) : Chip :=
  (c.setPba v false).emit (.msix v (c.fld2 (MSIX_ADDR_LO.addr_lo v) (MSIX_ADDR_HI.addr_hi v)) (c.fld (MSIX_DATA.data v)))

/-- Ask for a vector (R372, R373): sent, or left pending. -/
def Chip.askVector (c : Chip) (v : Nat) : Chip := if c.vectorOpen v then c.sendVector v else c.setPba v true

/-- Vectors with their pending bit set. -/
def Chip.pendingVectors (c : Chip) : List Nat :=
  (List.range 64).flatMap fun w => if c.fld (EV_PBA.pending w) = 0 then [] else
    (numbersBelow 32 (bit (c.fld (EV_PBA.pending w)))).map fun i => 32 * w + i

/-- Send every pending message that can go. -/
def Chip.flushVectors (c : Chip) : Chip :=
  c.each c.pendingVectors fun c v => if c.vectorOpen v then c.sendVector v else c

/-- Issue a host request, or let it wait for Bus Master Enable (15 R365). -/
def Chip.hostSend (c : Chip) (o : Out) : Chip :=
  if c.hostUp then c.emit o else { c with host := { c.host with held := c.host.held ++ [o] } }

/-- Host requests that waited go out, then pending messages. -/
def Chip.hostResume (c : Chip) : Chip :=
  if c.hostUp then
    { c with out := c.out ++ c.host.held, host := { c.host with held := [] } }.flushVectors
  else c

/-- MSIX_UNMASK (R373): a vector's mask, or the capability's enable and function mask, is written. -/
def Chip.msixSet (c : Chip) (x : MsixSet) : Chip :=
  match x with
  | .vector v m =>
    let c := c.putB (MSIX_CTL.masked v) m
    if c.vectorOpen v && bit (c.fld (EV_PBA.pending (v / 32))) (v % 32) then c.sendVector v else c
  | .function e m => { c with host := { c.host with msixEn := e, funcMask := m } }.flushVectors

/-- MSIX_UNMASK (R373). -/
def execMsixUnmask (x : MsixSet) (s : State) : Res := s.on (·.msixSet x)

end Sys2Proof.Machine
end

