-- ==== Sys2Proof/Machine/HostIf.lean ====
section
/-! DEFINITION. The host interface (15 R346 to R353, R359, R361, R369): the BAR2 window, rings and doorbells, descriptor fetch
and writeback, ring interrupts, the link and its power states. -/

namespace Sys2Proof.Machine

/-- A ring. -/
def Chip.ring (c : Chip) (r : Nat) : Ring := Tab.get {} c.rings r
/-- Change a ring. -/
def Chip.onRing (c : Chip) (r : Nat) (f : Ring → Ring) : Chip := { c with rings := Tab.set {} c.rings r (f (c.ring r)) }
/-- A DMA channel. -/
def Chip.dma (c : Chip) (n : Nat) : DmaCh := Tab.get {} c.dmas n
/-- Change a DMA channel. -/
def Chip.onDma (c : Chip) (n : Nat) (f : DmaCh → DmaCh) : Chip := { c with dmas := Tab.set {} c.dmas n (f (c.dma n)) }
/-- Event of a ring (Table 15.12). -/
def ringEvent (r : Nat) : Nat := 96 + r / 16
/-- Event of a DMA channel. -/
def dmaEvent (n : Nat) : Nat := 64 + n / 2

/-- Tile address of a BAR2 offset (R346). -/
def Chip.winAddr (c : Chip) (o : Nat) : Nat := c.fld HIF_WIN_BASE.base * 2 ^ 30 + o

/-- A refused or failed BAR2 access (Table 15.2): first address kept, its error bit, event 112. -/
def Chip.bar2Fault (c : Chip) (a : Nat) (resp : Resp) : Chip :=
  let keep (c : Chip) : Chip := if c.flag HIF_BAR2_LAST_HI.valid then c else
    ((c.put2 HIF_BAR2_LAST_LO.addr_lo HIF_BAR2_LAST_HI.addr_hi a).put HIF_BAR2_LAST_HI.resp (respCode resp)).put HIF_BAR2_LAST_HI.valid 1
  match resp with
  | .ok => c
  | .poison => c.errEvt HIF_ERR.bar2_poison 112 4 [a, respCode .poison]
  | .denied => ((keep c).incSat HIF_BAR2_DENY_CNT.count).errEvt HIF_ERR.bar2_denied 112 4 [a, respCode .denied]
  | .decode => (keep c).errEvt HIF_ERR.bar2_timeout 112 4 [a, respCode .decode]
  | .closed => (keep c).errEvt HIF_ERR.bar2_timeout 112 4 [a, respCode .closed]
  | .timeout => (keep c).errEvt HIF_ERR.bar2_timeout 112 4 [a, respCode .timeout]

/-- The lines a window of bytes touches. -/
def linesOf (a n : Nat) : List Nat := (List.range ((a + n + 63) / 64 - a / 64)).map fun i => (a / 64 + i) * 64
/-- The bytes of a line, as a list. -/
def lineBytes (l : Nat) : List Nat := bytesLE 64 l

/-- A BAR2 read with all its answers completes (Table 15.2): the first answer that is neither OK nor POISON aborts it. -/
def Chip.bar2Finish (c : Chip) (a n : Nat) (ans : List (Resp × Line)) : Chip :=
  let ls := (linesOf a n).zip ans
  match ls.find? fun x => x.2.1 ≠ .ok ∧ x.2.1 ≠ .poison with
  | some x => (c.bar2Fault x.1 x.2.1).emit (.completion 2 [])
  | none =>
    let data := ((ls.flatMap fun x => lineBytes x.2.2.toNat).drop (a % 64)).take n
    match ls.find? fun x => x.2.1 = .poison with
    | some x => (c.bar2Fault x.1 .poison).emit (.completion 1 data)
    | none => c.emit (.completion 0 data)

/-- In RECOVERY BAR2 is mapped to the 8 MiB recovery SRAM of the hub (22 R487). -/
def Chip.inRecovery (c : Chip) : Bool := decide (c.fld SEC_STATUS.boot = 4)
/-- A read of `n` bytes of the recovery SRAM; beyond its end nothing answers. -/
def Chip.sramRead (c : Chip) (o n : Nat) : Chip :=
  if o + n ≤ 2 ^ 23 then c.emit (.completion 0 ((List.range n).map fun i => Tab.get 0 c.sec.sram (o + i)))
  else (c.bar2Fault o .decode).emit (.completion 2 [])
/-- A write of bytes to the recovery SRAM. -/
def Chip.sramWrite (c : Chip) (o : Nat) (bytes : List Nat) : Chip :=
  if o + bytes.length ≤ 2 ^ 23 then
    { c with sec := { c.sec with sram := (bytes.zipIdx).foldl (fun t x => Tab.set 0 t (o + x.2) (x.1 % 256)) c.sec.sram } }
  else c.bar2Fault o .decode

/-- BAR2_READ (R346, R347): a read of `n` bytes becomes READs of the lines it touches; `ans` are their answers, and a read
without all of them stays outstanding. -/
def execBar2Read (id o n : Nat) (ans : List (Resp × Line)) (s : State) : Res := s.on fun c =>
  if c.inRecovery then c.sramRead o n else
  let a := c.winAddr o
  let ls := linesOf a n
  let c := c.each ls fun c l => c.emit (.dramRead .bar2 l 64)
  if ls.length ≤ ans.length then c.bar2Finish a n ans
  else { c with host := { c.host with reads := c.host.reads ++ [(id, a, n)] } }

/-- BAR2_WRITE (R346, R347): whole aligned lines become WRITEs, the rest PARTIAL requests; `ans` are their answers. -/
def execBar2Write (o : Nat) (bytes : List Nat) (ans : List Resp) (s : State) : Res := s.on fun c =>
  if c.inRecovery then c.sramWrite o bytes else
  let a := c.winAddr o
  let ls := linesOf a bytes.length
  let part (l : Nat) : Nat × List Nat :=
    let lo := max a l
    (lo, (bytes.drop (lo - a)).take (l + 64 - lo))
  let c := c.each ls fun c l => c.emit (.dramWrite .bar2 (part l).1 (part l).2)
  c.each (ls.zipIdx) fun c x => c.bar2Fault x.1 (ans.getD x.2 .timeout)

/-- BAR2_TIMEOUT (R347): an outstanding read is completed with Completer Abort. -/
def execBar2Timeout (id : Nat) (s : State) : Res := s.on fun c =>
  match c.host.reads.find? fun x => x.1 = id with
  | none => c
  | some x =>
    let c := { c with host := { c.host with reads := c.host.reads.erase x } }
    (c.bar2Fault x.2.1 .timeout).emit (.completion 2 [])

/-- WIN_BASE_WRITE (R346): for every BAR2 request that arrives later. -/
def execWinBaseWrite (v : Word) (s : State) : Res := s.on fun c => c.put HIF_WIN_BASE.base (HIF_WIN_BASE.base.of v.toNat)

/-- Entries of a ring. -/
def Chip.ringSize (c : Chip) (r : Nat) : Nat := 2 ^ c.fld (RING_CFG.log2_size r)
/-- A ring is enabled (R350). -/
def Chip.ringOn (c : Chip) (r : Nat) : Bool := c.fld (RING_CFG.log2_size r) ≠ 0
/-- Host address of entry `n` (R351). -/
def Chip.entryAddr (c : Chip) (r n : Nat) : Nat :=
  c.fld (RING_BASE_LO.base_lo r) * 2 ^ 12 + c.fld (RING_BASE_HI.base_hi r) * 2 ^ 32 + n % c.ringSize r * 64

/-- A free-running 32-bit difference (R351). -/
def diff32 (a b : Nat) : Nat := (a + 2 ^ 32 - b % 2 ^ 32) % 2 ^ 32

/-- An EVENT ring's buffer ends (16 R375): its descriptor waits for its writeback. -/
def Chip.evClose (c : Chip) (r : Nat) : Chip :=
  match (c.ring r).buf with
  | none => c
  | some (e, d, n, first) =>
    c.onRing r fun x =>
      { x with buf := none,
               runs := x.runs ++ [{ entry := e, addr := c.entryAddr r e, desc := d, unit := 0, got := [], wait := [], ep := false,
                                    bytes := 64 * n, pos := first, total := d.len, status := some 1, stamp := recStamp c.now }] }

/-- The channel that serves a DMA ring. -/
def ringChannel (r : Nat) : Nat := r / 4
/-- A write of RING_CFG (R350). A descriptor that executes goes on and is written back. -/
def Chip.ringCfgWrite (c : Chip) (r v : Nat) : Chip :=
  let size := bits v 0 5
  let kind := bits v 5 2
  let legal := (size = 0 ∨ (3 ≤ size ∧ size ≤ 16)) ∧ kind < 2
  if !legal then c.put (RING_ERR.bad_value r) 1
  else if c.ringOn r then
    if size ≠ 0 then c.put (RING_ERR.bad_value r) 1
    else
      let n := ringChannel r
      let c := ((c.evClose r).put (RING_CFG.log2_size r) 0).put (RING_CFG.kind r) kind
      let c := (c.onRing r fun x => { x with ready := [], stopped := false }).onDma n fun y => { y with waits := y.waits.erase r }
      let c := c.doIf (decide (c.fld (DMA_STATUS.state n) = 4) && (c.dma n).waits.isEmpty) (·.put (DMA_STATUS.state n) 1)
      c.errEvt (RING_ERR.size_zero r) (ringEvent r) 1 [r]
  else
    let c := (c.put (RING_CFG.log2_size r) size).put (RING_CFG.kind r) kind
    if size = 0 then c
    else
      let c := ((c.put (RING_PI.pi r) 0).put (RING_HEAD.head r) 0).put (RING_CI.ci r) 0
      c.onRing r fun x => { hold := x.hold, runs := x.runs.map fun y => { y with stale := true } }

/-- RING_CFG_WRITE (R350). -/
def execRingCfgWrite (r : Fin 256) (v : Word) (s : State) : Res := s.on (·.ringCfgWrite r v.toNat)

/-- A write of RING_BASE (R350): `hi` names the word. -/
def Chip.ringBaseWrite (c : Chip) (r : Nat) (hi : Bool) (v : Nat) : Chip :=
  if c.ringOn r then c.put (RING_ERR.bad_value r) 1
  else if hi then c.put (RING_BASE_HI.base_hi r) v else c.put (RING_BASE_LO.base_lo r) (v / 2 ^ 12)

/-- A doorbell write that is ignored (R351). -/
def Chip.badDoorbell (c : Chip) (r v : Nat) : Chip := c.errEvt (RING_ERR.bad_doorbell r) (ringEvent r) 2 [r, v]

/-- A PI doorbell (R351): entries up to `v` - 1 are posted, and a ring stopped at an entry resumes (R353). -/
def Chip.doorbellPi (c : Chip) (r v : Nat) : Chip :=
  let size := c.ringSize r
  if !c.ringOn r || decide (size < diff32 v (c.fld (RING_PI.pi r))) || decide (size < diff32 v (c.fld (RING_CI.ci r))) then
    c.badDoorbell r v
  else (c.put (RING_PI.pi r) v).onRing r fun x => { x with stopped := false }

/-- R361: released FAIL descriptors acknowledge fail data where FL_CTRL.ack_src is 0; nothing after the power-fail mark (R366). -/
def Chip.releaseFails (c : Chip) (old new : Nat) (l : List (Nat × Nat × Nat × Bool)) : Chip :=
  c.each l fun c e =>
    if decide (diff32 e.1 old < diff32 new old) && e.2.2.2 && decide (c.act (FL_CTRL.ack_src e.2.1) = 0) && c.pwr.mark.isNone then
      c.flAckTo e.2.1 e.2.2.1
    else c

/-- A CI doorbell (R351, R361): entries up to `v` - 1 are released. -/
def Chip.doorbellCi (c : Chip) (r v : Nat) : Chip :=
  let ci := c.fld (RING_CI.ci r)
  if !c.ringOn r || decide (diff32 (c.fld (RING_HEAD.head r)) ci < diff32 v ci) then c.badDoorbell r v
  else
    let l := (c.ring r).fails
    let c := (c.put (RING_CI.ci r) v).releaseFails ci v l
    c.onRing r fun x => { x with fails := x.fails.filter fun e => !decide (diff32 e.1 ci < diff32 v ci) }

/-- DOORBELL_CI (R361). -/
def execDoorbellCi (r : Fin 256) (v : Word) (s : State) : Res := s.on (·.doorbellCi r v.toNat)

/-- The descriptor of 64 bytes (Table 15.3). -/
def descOf (b : Line) : Desc :=
  let n := b.toNat
  ⟨bits n 0 64, bits n 64 64, bits n 128 32, bits n 160 32, bits n 192 64, bits n 256 64, bit n 511⟩

/-- Operation code of a descriptor. -/
def Desc.op (d : Desc) : Nat := d.word % 16
/-- Shuffle code. -/
def Desc.shuffle (d : Desc) : Nat := bits d.word 4 4

/-- A channel halts (R353, R355): its ring, entry and status. -/
def Chip.dmaHalt (c : Chip) (n slot entry code : Nat) : Chip :=
  (((c.put (DMA_STATUS.state n) 3).put (DMA_STATUS.ring n) slot).put (DMA_STATUS.entry n) entry).put (DMA_STATUS.code n) code

/-- DESC_FETCH (R353): the next entry of a ring is fetched, at most 8 ahead of RING_HEAD; `none` when the host does not answer
or answers with an error. -/
def Chip.descFetch (c : Chip) (r : Nat) (ans : Option Line) : Chip :=
  let x := c.ring r
  let n := x.fetch
  if !c.ringOn r || x.stopped || decide (n = c.fld (RING_PI.pi r)) || decide (8 ≤ diff32 n (c.fld (RING_HEAD.head r))) ||
      !c.hostUp || c.pwr.mark.isSome then c
  else
    let c := c.emit (.hostRead (c.entryAddr r n) 64)
    match ans with
    | none =>
      let c := (c.errEvt (RING_ERR.desc_fetch r) (ringEvent r) 4 [r, n]).put HIF_ERR.host_cpl 1
      if c.fld (RING_CFG.kind r) = 0 then c.dmaHalt (ringChannel r) (r % 4) n 0 else c.onRing r fun x => { x with stopped := true }
    | some b =>
      let d := descOf b
      if d.own then c.onRing r fun x => { x with fetch := (n + 1) % 2 ^ 32, ready := x.ready ++ [(n, d)] }
      else (c.onRing r fun x => { x with stopped := true }).errEvt (RING_ERR.not_owned r) (ringEvent r) 3 [r, n]

/-- R359: a completed descriptor asks for its ring's interrupt. -/
def Chip.ringIrq (c : Chip) (r : Nat) : Chip :=
  if !c.flag (RING_IRQ.irq_en r) then c
  else if (c.ring r).hold = 0 then
    let c := c.askVector (c.fld (RING_IRQ.vector r))
    if c.fld (RING_IRQ.holdoff r) = 0 then c else c.onRing r fun x => { x with hold := 1 }
  else c.onRing r fun x => { x with hold := 2 }

/-- IRQ_HOLDOFF (R359): the holdoff of a ring ends; merged completions send one interrupt and start the next holdoff. -/
def execIrqHoldoff (r : Fin 256) (s : State) : Res := s.on fun c =>
  if (c.ring r).hold = 2 then
    (c.askVector (c.fld (RING_IRQ.vector r))).onRing r fun x => { x with hold := if c.fld (RING_IRQ.holdoff r) = 0 then 0 else 1 }
  else c.onRing r fun x => { x with hold := 0 }

/-- The two write TLPs of a writeback (R352): bytes 0x28 to 0x3B, then 0x3C to 0x3F with own clear. -/
def Chip.writeBack (c : Chip) (x : DmaRun) (code : Nat) : Chip :=
  let a := x.addr
  let c := c.emit (.hostWrite (a + 0x28) (bytesLE 8 x.pos ++ bytesLE 4 x.bytes ++ bytesLE 4 code ++ bytesLE 4 x.stamp))
  c.emit (.hostWrite (a + 0x3C) (bytesLE 4 (x.stamp / 2 ^ 32 % 2 ^ 24)))

/-- DESC_WRITEBACK (R352, R354): the oldest descriptor of a ring, when it has ended, is written back and RING_HEAD advances. -/
def Chip.descWriteback (c : Chip) (r : Nat) : Chip :=
  match (c.ring r).runs with
  | [] => c
  | x :: rest =>
    match x.status with
    | none => c
    | some code =>
      if !c.hostUp then c else
      let c := (c.writeBack x code).doIf (!x.stale) (·.put (RING_HEAD.head r) (x.entry + 1))
      let c := c.onRing r fun y => { y with runs := rest }
      let c := if c.fld (RING_CFG.kind r) = 0 then c.incSat (DMA_DESC_CNT.count (ringChannel r)) else c
      let c := if x.desc.op = 4 ∧ c.fld (RING_CFG.kind r) = 0 ∧ !x.stale then
          c.onRing r fun y => { y with fails := y.fails ++ [(x.entry, x.desc.src % 4, x.pos + x.bytes, decide (code = 1))] } else c
      if bit x.desc.word 8 then c.ringIrq r else c

/-- DESC_WRITEBACK (R352). -/
def execDescWriteback (r : Fin 256) (s : State) : Res := s.on (·.descWriteback r)

/-- D3HOT_ENTRY (R365): the veto of DORMANT and SEALED ends. -/
def execD3hotEntry (s : State) : Res := s.on fun c =>
  if c.flag HIF_STATUS.d3hot then c
  else ((c.put HIF_STATUS.d3hot 1).put HIF_STATUS.dormant_veto 0).raise 112 5 [1]

end Sys2Proof.Machine
end

