-- ==== Sys2Proof/Machine/Events.lean ====
section
/-! DEFINITION. The event router (16 R370 to R380): latches, records and their rings, forwarding to the manager. -/

namespace Sys2Proof.Machine

/-- R62: a record stamp extended to a full stamp by a reference. -/
def fullStamp (s f : Nat) : Nat :=
  let x := f / 2 ^ 56 * 2 ^ 56 + s % 2 ^ 56
  if x + 2 ^ 55 < f then x + 2 ^ 56 else if f + 2 ^ 55 < x ∧ 2 ^ 56 ≤ x then x - 2 ^ 56 else x

/-- Change the router. -/
def Chip.onRouter (c : Chip) (f : Router → Router) : Chip := { c with router := f c.router }
/-- Event 14 with its counts, on a rise of one of its bits (R380). -/
def Chip.evErr (c : Chip) (f : Fld) : Chip := c.errEvt f 14 0 [c.fld EV_LOST_CNT.count, c.fld EV_FWD_DROP_CNT.count]
/-- A record is lost (R376); one event 14 tells of the bits it turns to 1 (R380). -/
def Chip.evLost (c : Chip) (badRing : Bool) : Chip :=
  let rise := !c.flag EV_ERR.lost || (badRing && !c.flag EV_ERR.bad_ring)
  let c := ((c.incSat EV_LOST_CNT.count).onRouter fun x => { x with lost := true }).put EV_ERR.lost 1
  (c.doIf badRing (·.put EV_ERR.bad_ring 1)).doIf rise (·.raise 14 0 [c.fld EV_LOST_CNT.count, c.fld EV_FWD_DROP_CNT.count])
/-- A copy for the manager is dropped (R377). -/
def Chip.fwdDrop (c : Chip) : Chip :=
  ((c.incSat EV_FWD_DROP_CNT.count).onRouter fun x => { x with dropped := true }).evErr EV_ERR.fwd_drop

/-- A ring serves event records (R375). -/
def Chip.evRing (c : Chip) (r : Nat) : Bool := c.ringOn r && decide (c.fld (RING_CFG.kind r) = 1)

/-- A fetched descriptor of an EVENT ring that names no usable buffer ends at once (R375). -/
def Chip.evRefuse (c : Chip) (r e : Nat) (d : Desc) (code : Nat) : Chip := c.onRing r fun x =>
  { x with ready := x.ready.drop 1,
           runs := x.runs ++ [{ entry := e, addr := c.entryAddr r e, desc := d, unit := 0, got := [], wait := [], ep := false,
                                bytes := 0, pos := 0, total := 0, status := some code, stamp := recStamp c.now }] }

/-- Open the next usable buffer of an EVENT ring for a record with sequence number `seq`: at most `n` descriptors are tried. -/
def Chip.evOpen (c : Chip) (r seq : Nat) : Nat → Chip
  | 0 => c
  | n + 1 =>
    if (c.ring r).buf.isSome then c else
    match (c.ring r).ready with
    | [] => c
    | (e, d) :: _ =>
      if d.len = 0 then Chip.evOpen (c.evRefuse r e d 2) r seq n
      else if d.len % 64 ≠ 0 then Chip.evOpen (c.evRefuse r e d 9) r seq n
      else c.onRing r fun x => { x with ready := x.ready.drop 1, buf := some (e, d, 0, seq) }

/-- Write a record into its ring's buffer (R375); false when there is none. -/
def Chip.evWrite (c : Chip) (r : Nat) (x : EvRec) : Chip × Bool :=
  if !c.hostUp || !c.evRing r then (c, false) else
  let c := c.evOpen r x.seq ((c.ring r).ready.length + 1)
  match (c.ring r).buf with
  | none => (c, false)
  | some (e, d, n, first) =>
    let fl := if c.router.lost then x.flags ||| 1 else x.flags
    let c := (c.onRouter fun y => { y with lost := false }).emit
      (.eventRecord (d.dst + 64 * n) x.num x.tile x.epoch x.cause fl x.seq x.stamp x.payload)
    let c := c.onRing r fun y => { y with buf := some (e, d, n + 1, if n = 0 then x.seq else first) }
    (if 64 * (n + 1) = d.len then c.evClose r else c, true)

/-- Show the length of the queue. -/
def Chip.evShow (c : Chip) : Chip := c.put EV_STATUS.queued c.router.queue.length

/-- Write what the queue holds, in order, as far as buffers allow (R375, R376). -/
def Chip.evDrain (c : Chip) : Chip :=
  let q := c.router.queue
  let c := c.onRouter fun x => { x with queue := [] }
  let keep (c : Chip) (e : Nat × EvRec) : Chip := c.onRouter fun x => { x with queue := x.queue ++ [e] }
  (c.each q fun c e =>
    if c.router.queue.any fun o => o.1 = e.1 then keep c e
    else match c.evWrite e.1 e.2 with
      | (c, true) => c
      | (c, false) => keep c e).evShow

/-- A record goes to a ring (R375, R376, R378): written, queued, put in the standby queue of DORMANT and SEALED, or lost. -/
def Chip.evRecord (c : Chip) (r : Nat) (x : EvRec) : Chip :=
  if !c.tileUp then
    if c.router.standby.length < 64 then c.onRouter fun y => { y with standby := y.standby ++ [(r, x)] } else c.evLost false
  else if !c.evRing r then c.evLost true
  else
    let (c, done) := if c.router.queue.any fun o => o.1 = r then (c, false) else c.evWrite r x
    if done then c
    else if c.router.queue.length < 256 then (c.onRouter fun y => { y with queue := y.queue ++ [(r, x)] }).evShow
    else c.evLost false

/-- The manager writes a copy to EV_FWD_RING and raises event 13 (R377, R380). -/
def Chip.fwdWrite (c : Chip) (x : EvRec) : Chip :=
  if !c.flag EV_FWD_RING.en then c.fwdDrop
  else
    let fl := if c.router.dropped then x.flags ||| 1 else x.flags
    let c := c.onRouter fun y => { y with dropped := false }
    (c.evRecord (c.fld EV_FWD_RING.ring) { x with flags := fl ||| 2 }).raise 13 0 [x.tile, x.num]

/-- Forwarded records waiting in a port. -/
def Chip.fwdWaiting (c : Chip) (u : Nat) : Nat :=
  (((c.port u).waiting ++ (c.port u).held).filter fun m => m.kind = .eventFwd).length

/-- A copy goes up the trunk (R377); dropped without an enrolled upstream and when 64 wait there. -/
def Chip.fwdSend (c : Chip) (x : EvRec) : Chip :=
  match c.upPort with
  | none => c.fwdDrop
  | some u =>
    if 64 ≤ c.fwdWaiting u then c.fwdDrop
    else
      let fl := if c.router.dropped then x.flags ||| 1 else x.flags
      (c.onRouter fun y => { y with dropped := false }).sendReliable u .eventFwd
        ([x.num, x.tile, x.epoch, x.cause, fl, x.seq, x.stamp] ++ x.payload)

/-- The latch of an event. -/
def Chip.latched (c : Chip) (e : Nat) : Bool := bit (c.fld (EV_LATCH.latch (e / 32))) (e % 32)

/-- A raising reaches the router (R372). -/
def Chip.routeEvent (c : Chip) (x : Raised) : Chip :=
  let e := x.num
  if !c.flag (EV_ROUTE.en e) then c else
  let was := c.latched e
  let c := c.put (EV_LATCH.latch (e / 32)) (withBit (c.fld (EV_LATCH.latch (e / 32))) (e % 32) true)
  let rec_ := c.flag (EV_ROUTE.record e)
  let fwd := c.flag (EV_ROUTE.forward e)
  let seq := c.fld EV_SEQ.seq
  let r : EvRec := ⟨e, c.fld HY_SELF.tile, c.fld MP_EPOCH.epoch, x.cause, if c.inTol then 0 else 4, seq,
    fullStamp x.stamp c.now, x.payload⟩
  let c := if rec_ || fwd then c.put EV_SEQ.seq (seq + 1) else c
  let c := if rec_ then c.evRecord (c.fld (EV_ROUTE.ring e)) r else c
  let c := if fwd && decide (e ≠ 13) then (if c.isManager then c.fwdWrite r else c.fwdSend r) else c
  if !was && !c.flag (EV_ROUTE.mask e) then c.askVector (c.fld (EV_ROUTE.vector e)) else c

/-- EVENT_PACKET (R372): the oldest raising on its way reaches the router. -/
def execEventPacket (s : State) : Res := s.on fun c =>
  match c.inflight with
  | [] => c
  | x :: rest => { c with inflight := rest }.routeEvent x

/-- EVENT_FLUSH (R375): flush_us after the first record of a ring's buffer. -/
def execEventFlush (r : Fin 256) (s : State) : Res := s.on fun c =>
  match (c.ring r).buf with
  | some (_, _, n, _) => if n ≠ 0 ∧ c.hostUp then c.evClose r else c
  | none => c

/-- A write of EV_ROUTEe (R372): a 0 in mask while the latch is set asks for the vector once. -/
def Chip.evRouteWrite (c : Chip) (e v : Nat) : Chip :=
  let c := ((c.put (EV_ROUTE.vector e) (bits v 0 11)).putB (EV_ROUTE.mask e) (bit v 12)).putB (EV_ROUTE.record e) (bit v 13)
  let c := ((c.putB (EV_ROUTE.forward e) (bit v 14)).putB (EV_ROUTE.en e) (bit v 15)).put (EV_ROUTE.ring e) (bits v 16 8)
  if !bit v 12 && c.latched e then c.askVector (c.fld (EV_ROUTE.vector e)) else c

/-- EV_ROUTE_WRITE (R372). -/
def execEvRouteWrite (e : Fin 768) (v : Word) (s : State) : Res := s.on (·.evRouteWrite e v.toNat)

/-- EVENT_FWD (R377): a record from downstream is written on the manager and passed up unchanged elsewhere. -/
def execEventFwd (u : Fin 8) (seq ack : Nat) (num tile epoch cause flags rseq stamp : Nat) (payload : List Nat) (s : State) : Res :=
  s.on fun c => c.receive u seq ack fun c =>
    let x : EvRec := ⟨num, tile, epoch, cause, flags, rseq, stamp, payload⟩
    if c.isManager then c.fwdWrite x else c.fwdSend x

/-- R375: on entry to DORMANT or SEALED queued records move to the standby queue, and those that do not fit are lost. -/
def Chip.evSleep (c : Chip) : Chip :=
  let room := 64 - c.router.standby.length
  let q := c.router.queue
  let c := (c.onRouter fun x => { x with standby := x.standby ++ q.take room, queue := [] }).evShow
  c.each (q.drop room) fun c _ => c.evLost false
/-- After a wake the standby queue goes to the rings (R378). -/
def Chip.evWake (c : Chip) : Chip :=
  let l := c.router.standby
  (c.onRouter fun x => { x with standby := [] }).each l fun c e => c.evRecord e.1 e.2

/-- DOORBELL_PI (15 R351): records that waited for descriptors may follow. -/
def execDoorbellPi (r : Fin 256) (v : Word) (s : State) : Res := s.on fun c => (c.doorbellPi r v.toNat).evDrain

/-- DESC_FETCH (R353). -/
def execDescFetch (r : Fin 256) (ans : Option Line) (s : State) : Res := s.on fun c => (c.descFetch r ans).evDrain

/-- BUS_MASTER_ENABLE (R373, 15 R365). -/
def execBusMasterEnable (on : Bool) (s : State) : Res := s.on fun c => (c.putB HIF_STATUS.bme on).hostResume.evDrain

/-- LINK_UP (R369): link speed and width. -/
def execLinkUp (speed : Fin 6) (width : Nat) (s : State) : Res := s.on fun c =>
  let c := ((c.put HIF_STATUS.link_up 1).put HIF_STATUS.speed speed.val).put HIF_STATUS.width width
  (c.raise 112 1 [speed.val, width]).hostResume.evDrain

/-- D3HOT_EXIT (R365): pending messages are sent. -/
def execD3hotExit (s : State) : Res := s.on fun c =>
  if c.flag HIF_STATUS.d3hot then
    (((c.put HIF_STATUS.d3hot 0).put HIF_STATUS.dormant_veto 1).raise 112 5 [0]).hostResume.evDrain
  else c

end Sys2Proof.Machine
end

