-- ==== Sys2Proof/Machine/Noc.lean ====
section
/-! DEFINITION. The junction network (14 R321 to R343): headers, routes, closures, time-outs, replays and swaps. Mesh junctions
are 0 to 255, quarter * 64 + index; hub junction Hh is 256 + h. -/

namespace Sys2Proof.Machine

/-- Junction `j`. -/
def Chip.junc (c : Chip) (j : Nat) : Junction := Tab.get {} c.juncs j
/-- Change junction `j`. -/
def Chip.onJunc (c : Chip) (j : Nat) (f : Junction → Junction) : Chip :=
  { c with juncs := Tab.set {} c.juncs j (f (c.junc j)) }

/-- Bits of a header flit (Table 14.2). -/
def hbits (h : Line) (lo w : Nat) : Nat := bits h.toNat lo w
/-- Set bits of a header flit. -/
def hset (h : Line) (lo w v : Nat) : Line := h + BitVec.ofNat 512 (v % 2 ^ w * 2 ^ lo) - BitVec.ofNat 512 (hbits h lo w * 2 ^ lo)
/-- Kind of a packet (Table 14.3). -/
def pktKind (h : Line) : Nat := hbits h 26 4
/-- A posted packet, or one of a kind that has no response (R325). -/
def pktPosted (h : Line) : Bool := pktKind h = 6 || pktKind h = 7 || pktKind h = 8 || bit h.toNat 34

/-- x and y of a mesh junction (R321). -/
def meshXY (j : Nat) : Nat × Nat := (8 * (j / 64 % 2) + j % 8, 8 * (j / 64 / 2) + j % 64 / 8)
/-- Quarter of a coordinate pair. -/
def quarterOf (x y : Nat) : Nat := x / 8 + 2 * (y / 8)
/-- The attach junction of a quarter (R21). -/
def attachXY (q : Nat) : Nat × Nat := (7 + q % 2, 7 + q / 2)
/-- Region of a mesh junction (R321), global number. -/
def juncRegion (j : Nat) : Nat := j / 64 * 16 + j % 8 / 2 + 4 * (j % 64 / 16)
/-- The event of a junction (R343). -/
def juncEvent (j : Nat) : Nat := if 256 ≤ j then 12 else 224 + j / 64 * 136 + 108 + juncRegion j % 16

/-- The ring port of hub junction `h` toward `t` (R323, R330): 1 clockwise, 2 counter-clockwise. -/
def ringPort (h t : Nat) : Nat :=
  if (h = 0 ∧ t ≠ 2) ∨ (h = 1 ∧ t = 3) ∨ (h = 3 ∧ t = 2) ∨ (h = 2 ∧ t ≠ 3) then 1
  else 2

/-- The port a packet takes at junction `j` (R330), or its local port: XY in the mesh, the fixed ring routes in the hub. -/
def routePort (j : Nat) (h : Line) : Nat :=
  let dx := hbits h 0 4
  let dy := hbits h 4 4
  let toHub := bit h.toNat 11
  if 256 ≤ j then
    let here := j - 256
    let t := if toHub then dx % 4 else quarterOf dx dy
    if here = t then (if toHub then 4 + hbits h 8 3 else 0) else ringPort here t
  else
    let (x, y) := meshXY j
    let (tx, ty) := if toHub then attachXY (quarterOf (hbits h 12 4) (hbits h 16 4)) else (dx, dy)
    if x < tx then 1 else if tx < x then 3 else if y < ty then 2 else if ty < y then 0
    else if toHub then 10 else 4 + hbits h 8 3

/-- Largest payload of a packet (Table 14.3): a WRITE carries one flit to a controller and up to eight to a configuration port. -/
def pktMaxLen (h : Line) : Nat :=
  let k := pktKind h
  let x := hbits h 0 4
  let y := hbits h 4 4
  if k = 1 then (if !bit h.toNat 11 && decide (hbits h 8 3 = 4) && decide ((x, y) = attachXY (quarterOf x y)) then 8 else 1)
  else if k = 2 ∨ k = 6 then 1 else 0

/-- R327: reserved or mismatched header fields. -/
def pktBad (h : Line) (pay : List Flit) : Bool :=
  let k := pktKind h
  let vc := hbits h 24 2
  let len := hbits h 30 4
  decide (10 ≤ k) || decide (8 < len) || decide (6 ≤ hbits h 45 3) || decide (pktMaxLen h < len) || decide (len ≠ pay.length) ||
    ((k = 1 || k = 2) && decide (len = 0)) ||
    !(if k < 4 then vc = 0 || vc = 3 else if k = 4 ∨ k = 5 ∨ k = 9 then vc = 0 else if k = 6 then vc = 1 else vc = 2)

/-- Closure state of a local port (NOC_JSTATUS.lstate): 0 OPEN, 1 CLOSING, 2 CLOSED. -/
def Chip.portState (c : Chip) (j n : Nat) : Nat := bits (c.fld (NOC_JSTATUS.lstate j)) (2 * n) 2
/-- Set it. -/
def Chip.setPortState (c : Chip) (j n v : Nat) : Chip :=
  let w := c.fld (NOC_JSTATUS.lstate j)
  c.put (NOC_JSTATUS.lstate j) (w - bits w (2 * n) 2 * 2 ^ (2 * n) + v * 2 ^ (2 * n))
/-- A link of a junction is down (R335). -/
def Chip.linkDown (c : Chip) (j port : Nat) : Bool :=
  if port = 10 then (c.junc j).hubDown else decide (port < 4) && bit (c.fld (NOC_JSTATUS.link_down j)) port
/-- The response to a request (R333), with the stamp of a CLOSED one. -/
def responseTo (h : Line) (resp stamp : Nat) : Line :=
  hset (hset (hset (hset (hset (hset 0 0 12 (hbits h 12 12)) 12 12 (hbits h 0 12)) 24 2 1) 26 4 6) 35 10 (hbits h 35 10)) 45 3 resp
    |> fun x => hset x 248 56 stamp

/-- A posted packet or a response is discarded (R335, Table 14.6). -/
def Chip.dropPacket (c : Chip) (j : Nat) : Chip := c.incSat (NOC_DROP_CNT.count j)
/-- A packet leaves junction `j` (R328). -/
def Chip.forward (c : Chip) (j port : Nat) (h : Line) (pay : List Flit) : Chip :=
  (c.addSat (NOC_FLIT_CNT.count j) (1 + pay.length)).emit (.packet j port h pay)

/-- A response reaches the local port of its requester: one that is not awaited, or whose port is CLOSED, is an orphan (R334,
Table 14.6). -/
def Chip.deliverResponse (c : Chip) (j n : Nat) (h : Line) (pay : List Flit) : Chip :=
  match (c.junc j).open_.find? fun o => o.1 = n ∧ o.2.1 = hbits h 35 10 with
  | some o =>
    if c.portState j n = 2 then (c.incSat (NOC_ORPHAN_CNT.count j)).put (NOC_JERR.orphan j) 1
    else (c.onJunc j fun x => { x with open_ := x.open_.erase o }).forward j (4 + n) h pay
  | none => (c.incSat (NOC_ORPHAN_CNT.count j)).put (NOC_JERR.orphan j) 1

/-- Send a response from junction `j` on its way. -/
def Chip.sendResponse (c : Chip) (j : Nat) (h : Line) : Chip :=
  let p := routePort j h
  if p = 10 ∨ p < 4 then (if c.linkDown j p then c.dropPacket j else c.forward j p h [])
  else c.deliverResponse j (p - 4) h []

/-- Refuse a packet at junction `j` with a response code; a posted one is discarded and counted. -/
def Chip.refusePacket (c : Chip) (j : Nat) (h : Line) (resp stamp : Nat) : Chip :=
  if pktPosted h then c.dropPacket j else c.sendResponse j (responseTo h resp stamp)

/-- A packet reaches the local port of its target (R327, R338, R339). -/
def Chip.deliver (c : Chip) (j n : Nat) (h : Line) (pay : List Flit) : Chip :=
  if pktKind h = 6 then c.deliverResponse j n h pay
  else if !bit (c.fld (NOC_JCFG.port_en j)) n then c.refusePacket j h 1 0
  else if c.portState j n ≠ 0 then
    let t := c.fld2 (NOC_CLOSE_STAMP_LO.stamp_lo j) (NOC_CLOSE_STAMP_HI.stamp_hi j)
    if pktPosted h then
      let c := c.dropPacket j
      let c := if c.flag (NOC_DROP_STAMP_HI.valid j) then c else
        (c.put2 (NOC_DROP_STAMP_LO.stamp_lo j) (NOC_DROP_STAMP_HI.stamp_hi j) (recStamp c.now)).put (NOC_DROP_STAMP_HI.valid j) 1
      c.errEvt (NOC_JERR.post_drop j) (juncEvent j) 3
        [j, c.fld2 (NOC_DROP_STAMP_LO.stamp_lo j) (NOC_DROP_STAMP_HI.stamp_hi j)]
    else c.sendResponse j (responseTo h 4 t)
  else ((if j < 256 then (c.startWake (j / 64) 3).stir (j / 64) else c)).forward j (4 + n) h pay

/-- A head flit is admitted at junction `j`: routed, delivered, or answered (R330, R335). -/
def Chip.routePacket (c : Chip) (j : Nat) (h : Line) (pay : List Flit) : Chip :=
  let p := routePort j h
  if p = 10 ∨ p < 4 then
    if c.linkDown j p then
      if pktPosted h then c.dropPacket j
      else (c.incSat (NOC_GEN_TIMEOUT_CNT.count j)).sendResponse j (responseTo h 5 0)
    else c.forward j p h pay
  else c.deliver j (p - 4) h pay

/-- A packet enters junction `j` on a port; from a local port it is a request its requester now awaits (R334). -/
def Chip.packetIn (c : Chip) (j port : Nat) (h : Line) (pay : List Flit) : Chip :=
  let c := if 4 ≤ port ∧ port < 10 ∧ !pktPosted h then
      c.onJunc j fun x => { x with open_ := x.open_ ++ [(port - 4, hbits h 35 10, hbits h 0 12)] } else c
  if pktBad h pay then
    let c := (c.incSat (NOC_MALFORMED_CNT.count j)).errEvt (NOC_JERR.malformed j) (juncEvent j) 2 [j, hbits h 12 12]
    if pktPosted h then c else c.sendResponse j (responseTo h 1 0)
  else if c.flag (NOC_JSTATUS.swapping j) then c.onJunc j fun x => { x with held := x.held ++ [(h, pay)] }
  else c.routePacket j h pay

/-- JUNCTION_PACKET (R330). -/
def execJunctionPacket (j : Fin 260) (port : Fin 11) (head : Line) (payload : List Flit) (s : State) : Res :=
  s.on (·.packetIn j port head payload)

/-- A link fails (R335): the junction on its sending side, and the hub block, report it. -/
def Chip.linkFail (c : Chip) (j port : Nat) : Chip :=
  let c := if port = 10 then c.onJunc j fun x => { x with hubDown := true }
    else c.put (NOC_JSTATUS.link_down j) (withBit (c.fld (NOC_JSTATUS.link_down j)) port true)
  (c.errEvt (NOC_JERR.link_down j) (juncEvent j) 1 [j, port]).errEvt NOC_ERR.link_down 12 1 [j, port]

/-- A flit of the link from `j` fails its CRC (R326): replayed, and after four failed replays the link is down. `again` when
it is the replay of the flit that failed last. -/
def Chip.crcError (c : Chip) (j port : Nat) (again : Bool) : Chip :=
  if c.linkDown j port then c else
  let n := if again then Tab.get 0 (c.junc j).fails port + 1 else 0
  let c := c.onJunc j fun x => { x with fails := Tab.set 0 x.fails port n }
  if 4 ≤ n then c.linkFail j port else c.incSat (NOC_REPLAY_CNT.count j)

/-- LINK_CRC_ERROR (R326, R335). -/
def execLinkCrcError (j : Fin 260) (port : Fin 11) (again : Bool) (s : State) : Res := s.on fun c =>
  if port.val < 4 ∨ port.val = 10 then c.crcError j port again else c

/-- REQUEST_TIMEOUT (R334): a request of local port `n` of junction `j` completes locally with TIMEOUT. -/
def execRequestTimeout (j : Fin 260) (n : Fin 6) (tag : BitVec 10) (s : State) : Res := s.on fun c =>
  match (c.junc j).open_.find? fun o => o.1 = n.val ∧ o.2.1 = tag.toNat with
  | none => c
  | some o =>
    let src : Nat := if j.val < 256 then (meshXY j).1 + 16 * (meshXY j).2 + 256 * n.val else (j.val - 256) + 256 * n.val + 2048
    let c := c.onJunc j fun x => { x with open_ := x.open_.erase o }
    let c := c.incSat NOC_TIMEOUT_CNT.count
    let c := if c.flag NOC_TIMEOUT_LAST.valid then c else
      ((c.put NOC_TIMEOUT_LAST.src src).put NOC_TIMEOUT_LAST.dst o.2.2).put NOC_TIMEOUT_LAST.valid 1
    let c := c.errEvt NOC_ERR.timeout 12 6 [j, src, o.2.2]
    c.emit (.packet j (4 + n.val) (hset (hset (hset (hset (hset 0 0 12 src) 12 12 o.2.2) 24 2 1) 26 4 6) 35 10 tag.toNat
      |> fun h => hset h 45 3 5) [])

/-- The local ports a closure covers (Table 14.5): junction and port. -/
def closurePorts : Closure → List (Nat × Nat)
  | .region r =>
    ((List.range 256).filter fun j => juncRegion j = r.val).flatMap fun j => [(j, 0), (j, 1), (j, 2)]
  | .cluster k =>
    let a := k.val % 8 / 2
    (((List.range 256).filter fun j => juncRegion j = k.val / 8)[a]?.toList).map fun j => (j, 1 + k.val % 2)
  | .quarter q =>
    ((List.range 64).flatMap fun i => (List.range 6).map fun n => (64 * q.val + i, n)).filter fun p => bit (nocPorts p.1) p.2
  | .hub => [(256, 0), (256, 1), (257, 0), (257, 1), (258, 0), (258, 1), (259, 1), (259, 2)]

/-- Place of a whole domain in NOC_DOM_STATUS: 0 the hub core, 1 + q a quarter. -/
def closureDomain : Closure → Option Nat
  | .region _ => none
  | .cluster _ => none
  | .quarter q => some (1 + q.val)
  | .hub => some 0
/-- State of a whole domain's closure. -/
def Chip.setDom (c : Chip) (d : Closure) (v : Nat) : Chip :=
  match closureDomain d with
  | some n =>
    let w := c.fld NOC_DOM_STATUS.dom
    c.put NOC_DOM_STATUS.dom (w - bits w (2 * n) 2 * 2 ^ (2 * n) + v * 2 ^ (2 * n))
  | none => c
/-- The event of a closure or a reopening (R343). -/
def Chip.closureEvent (c : Chip) (d : Closure) (cause : Nat) : Chip :=
  match d with
  | .region r => c.raise (224 + r.val / 16 * 136 + 108 + r.val % 16) cause [r.val, recStamp c.now]
  | .cluster k => c.raise (224 + k.val / 128 * 136 + 108 + k.val % 128 / 8) cause [k.val / 8, recStamp c.now]
  | .quarter q => c.raise 12 cause [1 + q.val, recStamp c.now]
  | .hub => c.raise 12 cause [0, recStamp c.now]

/-- A closure starts (Table 14.6 steps 1 and 2): its open ports are CLOSING. -/
def Chip.portClose (c : Chip) (d : Closure) : Chip :=
  let ps := (closurePorts d).filter fun p => c.portState p.1 p.2 = 0
  if ps.isEmpty then c else
  let c := c.each ps fun c p =>
    let c := (c.setPortState p.1 p.2 1).put2 (NOC_CLOSE_STAMP_LO.stamp_lo p.1) (NOC_CLOSE_STAMP_HI.stamp_hi p.1) (recStamp c.now)
    c.put (NOC_DROP_STAMP_HI.valid p.1) 0
  (c.setDom d 1).closureEvent d 4

/-- Its ports have drained (step 5). -/
def Chip.portClosed (c : Chip) (d : Closure) : Chip :=
  let ps := (closurePorts d).filter fun p => c.portState p.1 p.2 = 1
  if ps.isEmpty then c else (c.each ps fun c p => c.setPortState p.1 p.2 2).setDom d 2

/-- The domain is powered and out of reset (R337). -/
def Chip.domainBack (c : Chip) : Closure → Bool
  | .region r => c.tileUp && c.flag (QC_STATUS.ready (r.val / 16)) && !c.offline (r.val / 16)
  | .cluster k => c.tileUp && c.flag (QC_STATUS.ready (k.val / 128)) && !c.offline (k.val / 128)
  | .quarter q => c.tileUp && c.flag (QC_STATUS.ready q.val) && !c.offline q.val
  | .hub => c.tileUp

/-- Its ports open again (step 6). -/
def Chip.portReopen (c : Chip) (d : Closure) : Chip :=
  let ps := (closurePorts d).filter fun p => c.portState p.1 p.2 ≠ 0
  if ps.isEmpty then c else ((c.each ps fun c p => c.setPortState p.1 p.2 0).setDom d 0).closureEvent d 5

/-- PORT_CLOSE (R338). -/
def execPortClose (d : Closure) (s : State) : Res := s.on (·.portClose d)
/-- PORT_CLOSED (R338). -/
def execPortClosed (d : Closure) (s : State) : Res := s.on (·.portClosed d)
/-- PORT_REOPEN (R337). -/
def execPortReopen (d : Closure) (s : State) : Res := s.on fun c => if c.domainBack d then c.portReopen d else c

/-- NOC_JCMD.swap (R340): new head flits are held. -/
def Chip.swap (c : Chip) (j : Nat) : Chip :=
  if c.flag (NOC_JSTATUS.swapping j) ∨ c.flag (NOC_JSTATUS.swap_pending j) then c.put (NOC_JERR.bad_value j) 1
  else (c.onJunc j fun x => { x with waiting := List.range 10 }).put (NOC_JSTATUS.swapping j) 1

/-- SWAP (R340). -/
def execSwap (j : Fin 260) (s : State) : Res := s.on (·.swap j)

/-- Held head flits are admitted again (Table 14.7 step 4). -/
def Chip.admitHeld (c : Chip) (j : Nat) : Chip :=
  let l := (c.junc j).held
  let c := ((c.onJunc j fun x => { x with held := [] }).put (NOC_JSTATUS.swapping j) 0).putB (NOC_JSTATUS.swap_pending j)
    (!(c.junc j).waiting.isEmpty)
  c.each l fun c p => c.routePacket j p.1 p.2

/-- A port takes the shadow settings (Table 14.7 step 3). -/
def Chip.portTakes (c : Chip) (j port : Nat) : Chip :=
  if !(c.junc j).waiting.contains port then c else
  let c := c.onJunc j fun x => { x with waiting := x.waiting.erase port }
  let c := if 4 ≤ port then
      c.put (NOC_JCFG.port_en j) (withBit (c.fld (NOC_JCFG.port_en j)) (port - 4) (bit (c.fld (NOC_JSHADOW.port_en j)) (port - 4)))
    else c
  let c := c.put (NOC_JCFG.vc3_share j) (c.fld (NOC_JSHADOW.vc3_share j))
  if (c.junc j).waiting.isEmpty then
    if c.flag (NOC_JSTATUS.swapping j) then c.admitHeld j else c.put (NOC_JSTATUS.swap_pending j) 0
  else c

/-- SWAP_PORT_DONE (R340): a port's wormhole ends (0 to 3 links, 4 to 9 local ports), or the 64 cycles have passed (10). -/
def execSwapPortDone (j : Fin 260) (port : Fin 11) (s : State) : Res := s.on fun c =>
  if port.val = 10 then (if c.flag (NOC_JSTATUS.swapping j) then c.admitHeld j else c) else c.portTakes j port

end Sys2Proof.Machine
end

