-- ==== Sys2Proof/Machine/Trunks.lean ====
section
/-! DEFINITION. Trunk links (17 R381 to R394): roles, training, recovery, resending, lane tests and error injection. -/

namespace Sys2Proof.Machine

/-- Event of trunk `u` (R403). -/
def trkEvent (u : Nat) : Nat := 160 + u
/-- Change port `u`. -/
def Chip.onPort (c : Chip) (u : Nat) (f : TrkPort → TrkPort) : Chip := c.setPort u (f (c.port u))
/-- State of port `u` (Table 17.7). -/
def Chip.trkState (c : Chip) (u : Nat) : Nat := c.fld (TRK_STATUS.state u)
/-- This tile's serial number. -/
def Chip.serial (c : Chip) : Nat := c.fld2 ID_SERIAL_LO.lo ID_SERIAL_HI.hi
/-- Port `u` starts an attempt from step 1 of Table 17.1. -/
def Chip.trkDetect (c : Chip) (u : Nat) : Chip :=
  ((c.put (TRK_STATUS.state u) 1).put (TRK_STATUS.lane_lock u) 0).onPort u fun p => { p with step := 1, quick := false }
/-- The coefficients of a port are discarded (R387, Table 17.6). -/
def Chip.trkForget (c : Chip) (u : Nat) : Chip := (c.put (TRK_STATUS.stored u) 0).onPort u fun p => { p with storedFor := none }

/-- The limits of R394 on a role of port `u`. -/
def Chip.roleLegal (c : Chip) (u role : Nat) : Bool :=
  let taken := (List.range 8).any fun w => w ≠ u && decide ((c.port w).roleNext.getD (c.fld (TRK_CTRL.role w)) = role)
  (decide (role ≠ 1) && decide (role ≠ 3)) || (!c.isManager && !taken)

/-- A write of TRK_CTRL (R384, R394): fec and wake_en are taken; a role waits while the port is not OFF; en starts or stops
the port. -/
def Chip.trkCtrlWrite (c : Chip) (u v : Nat) : Chip :=
  let role := bits v 0 2
  let en := bit v 2
  let c := (c.put (TRK_CTRL.fec u) (bits v 3 1)).put (TRK_CTRL.wake_en u) (bits v 4 1)
  let c := if c.roleLegal u role then c.onPort u fun p => { p with roleNext := some role } else c.put (TRK_ERR.bad_value u) 1
  let c := if en then c else
    (((c.put (TRK_CTRL.en u) 0).put (TRK_STATUS.state u) 0).put (TRK_STATUS.lane_lock u) 0).onPort u
      fun p => { p with step := 0, fails := 0, testing := false, inject := 0 }
  let c := if c.trkState u = 0 then
      match (c.port u).roleNext with
      | some r => (c.put (TRK_CTRL.role u) r).onPort u fun p => { p with roleNext := none }
      | none => c
    else if (c.port u).roleNext = some (c.fld (TRK_CTRL.role u)) then c.onPort u fun p => { p with roleNext := none }
    else c
  if !en then c else
  let c := c.put (TRK_CTRL.en u) 1
  if c.trkState u = 0 ∧ c.fld (TRK_CTRL.role u) ≠ 0 then c.trkDetect u else c

/-- TRK_CTRL_WRITE (R394). -/
def execTrkCtrlWrite (u : Fin 8) (v : Word) (s : State) : Res := s.on (·.trkCtrlWrite u v.toNat)

/-- CK_DETECT (R384, R386, R387): STARTUP; a peer with the stored serial skips step 3. -/
def execCkDetect (u : Fin 8) (serial : Nat) (s : State) : Res := s.on fun c =>
  if c.flag (TRK_CTRL.en u) ∧ c.tileUp ∧ (c.trkState u = 1 ∨ c.trkState u = 7) then
    (c.put (TRK_STATUS.state u) 2).onPort u fun p => { p with step := 2, quick := p.storedFor = some serial }
  else c

/-- HELLO as this tile sends it (Table 17.2): serial, epoch, tile number or 0xFFF, hop count, role of the port; a manager
says so in place of the role. -/
def Chip.sendHello (c : Chip) (u : Nat) : Chip :=
  c.sendReliable u .hello [c.serial, c.fld MP_EPOCH.epoch, if c.flag HY_SELF.valid then c.fld HY_SELF.tile else 0xFFF,
    c.fld MP_STATUS.hops, if c.isManager then 4 else c.fld (TRK_CTRL.role u)]

/-- Put every unacknowledged message on the wire again, oldest first, counting each (R391). -/
def Chip.resend (c : Chip) (u : Nat) : Chip :=
  let p := c.port u
  (c.each p.window fun c m => c.emit (.trunk u m.kind m.seq p.ack m.fields)).addSat (TRK_REPLAY_CNT.count u) p.window.length

/-- Messages for a peer that did not come back are discarded (R391). -/
def Chip.discardFor (c : Chip) (u : Nat) : Chip :=
  let p := c.port u
  let c := (c.onPort u fun p => { p with window := [], waiting := [], held := [], nextSeq := 0, expect := 0 }).put
    (TRK_HELD.msgs u) 0
  c.each (p.window ++ p.waiting ++ p.held) fun c m =>
    c.doIf (decide (m.kind = .launch) || decide (m.kind = .cancel) || decide (m.kind = .report))
      (·.dropForward u m.kind m.fields)

/-- The link is ACTIVE with a peer (R391, R399): what waits for the same peer and epoch is sent, anything else discarded. -/
def Chip.linkBack (c : Chip) (u serial epoch : Nat) : Chip :=
  let same := decide ((c.port u).peer = some (serial, epoch))
  let c := if same || decide ((c.port u).peer = none) then c else (c.discardFor u).put (TRK_STATUS.enrolled u) 0
  let c := (c.onPort u fun p =>
    { p with peer := some (serial, epoch), waiting := p.waiting ++ p.held, held := [], lostSent := false }).put
      (TRK_HELD.msgs u) 0
  (c.resend u).drainWaiting u 128

/-- The old UP port of a member that failed over becomes UP_ALT when its link returns, and the upstream's port its UP port
(R397). -/
def Chip.rolesAfterFailover (c : Chip) (u : Nat) : Chip :=
  if c.flag HY_STATUS.failed_over ∧ c.fld (TRK_CTRL.role u) = 1 ∧ u ≠ c.fld HY_STATUS.up then
    (((c.put (TRK_CTRL.role u) 3).put (TRK_CTRL.role (c.fld HY_STATUS.up)) 1).put HY_STATUS.alt u)
  else c

/-- R396: the asymmetry of the UP port from the cable's delay record (its two lane-0 delays), else from TRK_CABLE_SKEW. -/
def Chip.writeAsym (c : Chip) (u : Nat) (cable : Option (Int × Int)) : Chip :=
  match cable with
  | some (fwd, rev) => c.putS (MP_TRUNK_ASYM.asym u) (fwd - rev)
  | none => c.putS (MP_TRUNK_ASYM.asym u) (c.fldS (TRK_CABLE_SKEW.skew u))

/-- One coefficient set of a lane, within the limits of R385. -/
def Chip.putCoeff (c : Chip) (u n : Nat) (k : Nat × Nat) : Chip :=
  let post := min k.2 16
  let pre := min (min k.1 8) (16 - post)
  ((c.put (TRK_TXEQ_L.pre u n) pre).put (TRK_TXEQ_L.post u n) post).put (TRK_TXEQ_L.main u n) (48 - pre - post)

/-- A lane's peaking from an automatic scan goes to its field (R386). -/
def Chip.putPeaks (c : Chip) (u : Nat) (l : List Nat) : Chip :=
  if c.flag (TRK_CTLE.auto u) then
    c.put (TRK_CTLE.peak u) ((l.take 5).foldr (fun x n => x % 16 + 16 * n) 0)
  else c

/-- A training attempt ends in ACTIVE (Table 17.1 step 5). -/
def Chip.trkActive (c : Chip) (u : Nat) (e : TrainEnd) (cable : Option (Int × Int)) : Chip :=
  let quick := (c.port u).quick
  let fec := c.flag (TRK_CTRL.fec u) || e.fec
  let c := (((c.putPeaks u e.peak).put (TRK_STATUS.state u) 4).put (TRK_STATUS.lane_lock u) 15).putB (TRK_STATUS.fec_on u) fec
  let c := if quick then c else
    ((c.each (List.range 4) fun c n => c.putCoeff u n (e.coeff.getD n (0, 0))).put (TRK_STATUS.stored u) 1).onPort u
      fun p => { p with storedFor := some e.serial }
  let c := c.onPort u fun p => { p with step := 0, fails := 0, errs := 0 }
  let c := c.raise (trkEvent u) 1 [ofBool fec, ofBool quick]
  let c := (c.rolesAfterFailover u).linkBack u e.serial e.epoch
  let c := if !quick && decide (c.fld (TRK_CTRL.role u) = 1) && c.flag HY_STATUS.enrolled then c.writeAsym u cable else c
  c.sendHello u

/-- A training attempt fails (R384): retried twice, then FAILED. -/
def Chip.trkFailed (c : Chip) (u step : Nat) : Chip :=
  let n := (c.port u).fails + 1
  let c := c.onPort u fun p => { p with fails := min n 3, step := 0 }
  if n < 3 then c.trkDetect u
  else (c.put (TRK_STATUS.state u) 8).errEvt (TRK_ERR.train_fail u) (trkEvent u) 4 [step]

/-- A recovery falls back to full training from step 1 (R388). -/
def Chip.recoveryFails (c : Chip) (u : Nat) : Chip :=
  (c.errEvt (TRK_ERR.link_down u) (trkEvent u) 2 [5, c.fld (TRK_RECOV_CNT.count u)]).trkDetect u

/-- TRK_TRAINING_END (R384 to R388): the attempt, or the recovery, of port `u` ends. -/
def execTrkTrainingEnd (u : Fin 8) (e : TrainEnd) (cable : Option (Int × Int)) (s : State) : Res := s.on fun c =>
  if c.trkState u = 2 ∨ c.trkState u = 3 then if e.ok then c.trkActive u e cable else c.trkFailed u e.step
  else if c.trkState u = 5 then
    if e.ok then
      (((c.putPeaks u e.peak).put (TRK_STATUS.state u) 4).put (TRK_STATUS.lane_lock u) 15 |>.onPort u fun p =>
        { p with errs := 0 }).linkBack u e.serial e.epoch
    else c.recoveryFails u
  else c

/-- TRK_RETRY (R384): every 1 s a FAILED port that stays enabled starts a new attempt. -/
def execTrkRetry (u : Fin 8) (s : State) : Res := s.on fun c =>
  if c.trkState u = 8 ∧ c.flag (TRK_CTRL.en u) then c.trkDetect u else c

/-- RECOVERY is entered and counted (R388). -/
def Chip.enterRecovery (c : Chip) (u : Nat) : Chip :=
  if c.portActive u then (c.put (TRK_STATUS.state u) 5).incSat (TRK_RECOV_CNT.count u) else c

/-- BLOCK_LOCK_LOSS (R388). -/
def execBlockLockLoss (u : Fin 8) (lane : Fin 4) (s : State) : Res := s.on fun c =>
  if c.portActive u then (c.put (TRK_STATUS.lane_lock u) (withBit (c.fld (TRK_STATUS.lane_lock u)) lane false)).enterRecovery u
  else c

/-- RECOVERY_REQUEST (R388): the peer's training sets ask for recovery. -/
def execRecoveryRequest (u : Fin 8) (s : State) : Res := s.on (·.enterRecovery u)

/-- TRK_ERROR_WINDOW (R388): errors above TRK_ERR_LIMIT in 1 ms; `corrected` codewords were corrected in it (R383). -/
def execTrkErrorWindow (u : Fin 8) (corrected : Nat) (s : State) : Res := s.on fun c =>
  let n := (c.port u).errs
  let c := (c.addSat (TRK_FEC_CORR_CNT.count u) corrected).onPort u fun p => { p with errs := 0 }
  if c.portActive u ∧ c.fld (TRK_ERR_LIMIT.limit u) < n then
    (c.enterRecovery u).errEvt (TRK_ERR.err_rate u) (trkEvent u) 3 [n]
  else c

/-- RECOVERY_TIMEOUT (R388): a recovery that has not ended within 1.5 ms. -/
def execRecoveryTimeout (u : Fin 8) (s : State) : Res := s.on fun c => if c.trkState u = 5 then c.recoveryFails u else c

/-- TRK_CMD.retrain (R387). -/
def Chip.trkRetrain (c : Chip) (u : Nat) : Chip :=
  let c := c.trkForget u
  if c.trkState u = 0 then c else (c.onPort u fun p => { p with fails := 0, testing := false }).trkDetect u
/-- TRK_RETRAIN (R387). -/
def execTrkRetrain (u : Fin 8) (s : State) : Res := s.on (·.trkRetrain u)

/-- The value of TRK_TEST. -/
def Chip.testValue (c : Chip) (u : Nat) : Nat :=
  c.fld (TRK_TEST.pattern u) + 16 * c.fld (TRK_TEST.lanes u) + 65536 * c.fld (TRK_TEST.ms u)
/-- Port `u` enters TEST (R392). -/
def Chip.enterTest (c : Chip) (u v : Nat) : Chip :=
  (c.put (TRK_STATUS.state u) 6).onPort u fun p => { p with testing := true, testVal := v }
/-- TRK_CMD.test_start (R392). -/
def Chip.testStart (c : Chip) (u : Nat) : Chip :=
  if (List.range 64).any (fun g => c.fld (PGR_STATUS.state g) = 3) ∨ c.trkState u = 0 ∨ c.trkState u = 1 ∨ c.trkState u = 8 then
    c.put (TRK_ERR.test_refused u) 1
  else (c.sendReliable u .testReq [c.testValue u]).enterTest u (c.testValue u)
/-- TEST_START (R392). -/
def execTestStart (u : Fin 8) (s : State) : Res := s.on (·.testStart u)

/-- A lane test ends (R392): the checkers' counts of the lanes tested, the event, and training with the stored
coefficients. -/
def Chip.testEnd (c : Chip) (u : Nat) (errs : List Nat) (compared : Nat) : Chip :=
  let v := (c.port u).testVal
  let lanes := (List.range 4).filter fun n => bit v (4 + n)
  let c := c.each lanes fun c n => c.addSat (TRK_PRBS_ERR_L.count u n) (errs.getD n 0)
  let c := c.put2 (TRK_PRBS_BITS_LO.lo u) (TRK_PRBS_BITS_HI.hi u)
    (satN 64 (c.fld2 (TRK_PRBS_BITS_LO.lo u) (TRK_PRBS_BITS_HI.hi u) + compared))
  let c := c.raise (trkEvent u) 8 ([bits v 0 2, bits v 4 4] ++ lanes.map fun n => c.fld (TRK_PRBS_ERR_L.count u n))
  (c.onPort u fun p => { p with testing := false, fails := 0 }).trkDetect u

/-- TRK_CMD.test_stop (R392): `errs` the errors of each lane and `compared` the bits compared per lane in the test. -/
def Chip.testStop (c : Chip) (u : Nat) (errs : List Nat) (compared : Nat) : Chip :=
  if c.trkState u = 6 then c.testEnd u errs compared else c
/-- TEST_STOP (R392). -/
def execTestStop (u : Fin 8) (errs : List Nat) (compared : Nat) (s : State) : Res := s.on (·.testStop u errs compared)
/-- TRK_TEST_TIMEOUT (R392): TRK_TEST.ms have passed. -/
def execTrkTestTimeout (u : Fin 8) (errs : List Nat) (compared : Nat) (s : State) : Res := s.on fun c =>
  if c.trkState u = 6 ∧ bits (c.port u).testVal 16 16 ≠ 0 then c.testEnd u errs compared else c
/-- TEST_REQ (R392): the peer starts a test. -/
def execTestReq (u : Fin 8) (seq ack v : Nat) (s : State) : Res := s.on fun c => c.receive u seq ack (·.enterTest u v)

/-- One injection of R393. -/
def Chip.injectOnce (c : Chip) (u : Nat) : Chip :=
  let p := c.port u
  if p.inject = 0 then c
  else if c.portActive u || decide (c.trkState u = 6) then
    let v := p.injVal
    let kind := bits v 2 2
    let c := c.emit (.trunkError u (bits v 0 2) kind (if kind = 1 then bits v 8 8 else 1))
    c.onPort u fun p => { p with inject := p.inject - 1 }
  else c.onPort u fun p => { p with inject := 0 }
/-- TRK_CMD.inject (R393): the first injection comes at once. -/
def Chip.inject (c : Chip) (u : Nat) : Chip :=
  if (c.port u).inject ≠ 0 then c.put (TRK_ERR.bad_value u) 1
  else if c.portActive u || decide (c.trkState u = 6) then
    let v := c.fld (TRK_INJ.lane u) + 4 * c.fld (TRK_INJ.kind u) + 256 * c.fld (TRK_INJ.burst_len u)
    (c.onPort u fun p => { p with inject := c.fld (TRK_INJ.count u), injVal := v }).injectOnce u
  else c
/-- INJECT (R393). -/
def execInject (u : Fin 8) (s : State) : Res := s.on (·.inject u)
/-- INJECT_TICK (R393): one more injection, 1 µs after the last. -/
def execInjectTick (u : Fin 8) (s : State) : Res := s.on (·.injectOnce u)

/-- RESEND_TIMER (R391): 10 µs without an acknowledgement. -/
def execResendTimer (u : Fin 8) (s : State) : Res := s.on fun c => if c.portActive u then c.resend u else c
/-- IDLE (R389): it carries an acknowledgement. -/
def execIdle (u : Fin 8) (ack : Nat) (s : State) : Res := s.on fun c => if c.portActive u then c.takeAck u ack else c

/-- TRK_BAD_MESSAGE (R383, R389, R391): 0 a reserved type, 1 a bad CRC, 2 an uncorrectable group; `timed` timed messages were
lost with it. -/
def execTrkBadMessage (u : Fin 8) (kind : Fin 3) (timed : Nat) (s : State) : Res := s.on fun c =>
  if !c.portActive u then c else
  let c := c.addSat (TRK_TIMED_LOST_CNT.count u) timed
  let c := if kind = 0 then c else c.onPort u fun p => { p with errs := p.errs + 1 }
  if kind = 2 then
    let c := c.incSat (TRK_FEC_UNC_CNT.count u)
    c.errEvt (TRK_ERR.fec_unc u) (trkEvent u) 5 [c.fld (TRK_FEC_UNC_CNT.count u)]
  else c.incSat (TRK_CRC_CNT.count u)

/-- TRK_WAKE (R400): a peer drives CK on an ASLEEP port of a sleeping tile. -/
def execTrkWake (u : Fin 8) (s : State) : Res := s.on fun c =>
  if c.trkState u = 7 ∧ !c.tileUp then c.startWake 4 4 else c

/-- SLEEP (R400): the peer announces that it sleeps. -/
def execSleep (u : Fin 8) (seq ack : Nat) (s : State) : Res := s.on fun c => c.receive u seq ack fun c =>
  (c.put (TRK_STATUS.state u) 7).raise (trkEvent u) 7 [c.fld (TRK_PEER.tile u)]

/-- A DOWN port's ACTIVE peer has not sent SLEEP: the tile vetoes DORMANT and SEALED (R400). -/
def Chip.trunkVeto (c : Chip) : Bool :=
  (List.range 8).any fun u => decide (c.fld (TRK_CTRL.role u) = 2) && c.portActive u

/-- Before DORMANT or SEALED the tile sends SLEEP on every ACTIVE port and its links fall ASLEEP (R400, Table 17.6). -/
def Chip.trunksSleep (c : Chip) : Chip := c.each (List.range 8) fun c u =>
  let c := if c.portActive u then c.sendReliable u .sleep [] else c
  if c.trkState u = 0 then c else c.put (TRK_STATUS.state u) 7
/-- On a wake the links train again; after SEALED without stored coefficients (Table 17.6). -/
def Chip.trunksWake (c : Chip) (sealed_ : Bool) : Chip := c.each (List.range 8) fun c u =>
  let c := c.doIf sealed_ (·.trkForget u)
  if c.trkState u = 7 then c.trkDetect u else c

end Sys2Proof.Machine
end

