-- ==== Sys2Proof/Machine/Security.lean ====
section
/-! DEFINITION. Measured start, keys and attestation (22): measurement registers and their log, quotes, the SPDM responder,
debug unlock, the battery-backed store. -/

namespace Sys2Proof.Machine

/-- Change the security engine's state. -/
def Chip.onSec (c : Chip) (f : Security → Security) : Chip := { c with sec := f c.sec }
/-- The 48 bytes of a measurement register. -/
def Chip.mrBytes (c : Chip) (m : Nat) : List Nat := (List.range 12).flatMap fun i => bytesLE 4 (c.fld (SEC_MR_W.value m i))
/-- Set the words of a measurement register from a 384-bit number. -/
def Chip.setMr (c : Chip) (m v : Nat) : Chip := c.each (List.range 12) fun c i => c.put (SEC_MR_W.value m i) (v / 2 ^ (32 * i))

/-- An extend of MRm with a digest (R484), written to the measurement log with its source and region: the nth since reset in
slot n mod 256 (R486). -/
def Chip.extend (c : Chip) (m digest source region : Nat) : Chip :=
  let n := c.fld SEC_LOG_COUNT.count + 1
  let c := c.setMr m (Config.sha384 (c.mrBytes m ++ bytesLE 48 digest))
  (c.put SEC_LOG_COUNT.count n).onSec fun x =>
    { x with log := Tab.set none x.log (n % 256) (some ⟨m, source, region, digest, recStamp c.now⟩) }

/-- The digest in SEC_EXT_DATA. -/
def Chip.extData (c : Chip) : Nat := numLE ((List.range 12).flatMap fun i => bytesLE 4 (c.fld (SEC_EXT_DATA.data i)))
/-- SEC_CMD.extend (R484): MR0 to MR7 are refused. -/
def Chip.secExtend (c : Chip) : Chip :=
  let m := c.fld SEC_EXT_SEL.mr
  if m < 8 then c.put SEC_ERR.extend_refused 1 else c.extend m c.extData 5 0
/-- EXTEND (R484). -/
def execExtend (s : State) : Res := s.on (·.secExtend)

/-- SEC_CMD.new_challenge (R491): `nonce` is what the random generator gives. -/
def Chip.newChallenge (c : Chip) (nonce : Nat) : Chip :=
  (c.each (List.range 8) fun c i => c.put (SEC_DBG_CHAL.nonce i) (nonce / 2 ^ (32 * i))).onSec fun x => { x with chal := true }
/-- NEW_CHALLENGE (R491). -/
def execNewChallenge (nonce : Nat) (s : State) : Res := s.on (·.newChallenge nonce)

/-- SEC_CMD.unlock (R491): `sigOk` tells whether the response is the debug authority's signature over nonce, serial and level. -/
def Chip.unlock (c : Chip) (sigOk : Bool) : Chip :=
  if c.flag SEC_STATUS.lockout then c.put SEC_ERR.unlock_fail 1
  else
    let level := c.fld SEC_DBG_LEVEL.level
    let pass := sigOk && c.sec.chal && !c.flag SEC_STATUS.debug_disable && (decide (level = 1) || decide (level = 2))
    let c := c.onSec fun x => { x with chal := false }
    if pass then
      (((c.put SEC_STATUS.debug level).extend 4 (Config.stateDigest 4) 2 0).raise 18 1 [level]).onSec fun x => { x with fails := 0 }
    else
      let n := c.sec.fails + 1
      let c := c.put SEC_ERR.unlock_fail 1
      if n < 3 then c.onSec fun x => { x with fails := n }
      else ((c.put SEC_STATUS.lockout 1).raise 18 2 []).onSec fun x => { x with fails := 0 }
/-- UNLOCK (R491). -/
def execUnlock (sigOk : Bool) (s : State) : Res := s.on (·.unlock sigOk)
/-- LOCKOUT_END (R491): 60 s after the third failure. -/
def execLockoutEnd (s : State) : Res := s.on (·.put SEC_STATUS.lockout 0)
/-- SEC_CMD.relock (R491). -/
def Chip.relock (c : Chip) : Chip :=
  if c.fld SEC_STATUS.debug = 0 then c
  else ((c.put SEC_STATUS.debug 0).extend 4 (Config.stateDigest 5) 2 0).raise 18 3 []
/-- RELOCK (R491). -/
def execRelock (s : State) : Res := s.on (·.relock)

/-- KEY_IMPORT (R481): 1 the fuse key, else the battery-backed key; `tagOk` tells whether the envelope's tag verifies and `key`
is the key it holds. -/
def execKeyImport (fuse tagOk : Bool) (key : Nat) (s : State) : Res := s.on fun c =>
  if !tagOk then c
  else if fuse then
    if c.flag SEC_STATUS.fuse_key then c
    else ((c.put SEC_STATUS.fuse_key 1).extend 4 (Config.stateDigest 1) 2 0).onSec fun x => { x with fuseKey := some key }
  else if c.fld SEC_STATUS.bstore = 0 then c
  else ((c.put SEC_STATUS.bstore 2).extend 4 (Config.stateDigest 2) 2 0).onSec fun x => { x with batKey := some key }

/-- The header and MR values of a quote (Table 22.4), everything before its signature. -/
def Chip.quoteBody (c : Chip) (mask nonce count : Nat) : List Nat :=
  let tile := if c.flag HY_SELF.valid then c.fld HY_SELF.tile else 0xFFF
  let flags := ofBool (c.fld SEC_STATUS.debug ≠ 0) + 2 * ofBool (c.fld SEC_TAMPER.flags ≠ 0) +
    4 * ofBool (c.fld SEC_STATUS.bstore = 2) + 8 * ofBool (c.fld SEC_STATUS.boot = 2 ∨ c.fld SEC_STATUS.boot = 3)
  bytesLE 4 0x51543452 ++ bytesLE 2 1 ++ bytesLE 2 mask ++ bytesLE 8 c.serial ++ bytesLE 2 tile ++
    bytesLE 2 (c.fld MP_EPOCH.epoch) ++ bytesLE 4 count ++ bytesLE 16 c.now ++ bytesLE 2 (c.fld SEC_SVN.svn) ++ [flags] ++
    bytesLE 5 0 ++ bytesLE 32 nonce ++ bytesLE 16 0 ++
    (List.range 16).flatMap fun m => if bit mask m then c.mrBytes m else []
/-- Sign a quote (R488): counted in SEC_QUOTE_CNT, whose new value it carries. -/
def Chip.quote (c : Chip) (mask nonce : Nat) : Chip × List Nat :=
  let c := c.incWrap SEC_QUOTE_CNT.count
  let body := c.quoteBody mask nonce (c.fld SEC_QUOTE_CNT.count)
  (c, body ++ Config.deviceSign body)

/-- Firmware takes the head message of end `x` (it reads every word). -/
def Chip.takeMessage (c : Chip) (n x : Nat) : Nat → Chip
  | 0 => c
  | k + 1 => if ((c.way n).queue x).isEmpty then c else Chip.takeMessage (c.wsRead n x) n x k
/-- Firmware posts a message at end `x`. -/
def Chip.postMessage (c : Chip) (n x : Nat) (ws : List Nat) : Chip :=
  (c.each ws fun c w => c.wsTx n x .firmware w).wsSend n x .firmware 0

/-- QUOTE_SERVICE (R489): firmware answers the head message of its end of Waystation `n`; a message of 12 words asks for a
quote, one of any other length is answered with status 1. -/
def execQuoteService (n : Fin 32) (x : Fin 2) (s : State) : Res := s.on fun c =>
  if !c.wsAllowed n x .firmware then c else
  match (c.way n).queue x with
  | [] => c
  | m :: _ =>
    let c := c.takeMessage n x m.words.length
    let w (i : Nat) : Nat := m.words.getD i 0
    let addr := w 10 + 2 ^ 32 * w 11
    if m.words.length ≠ 12 ∨ w 0 ≠ 1 ∨ addr % 64 ≠ 0 ∨ 2 ^ 41 ≤ addr then c.postMessage n x [1, 0]
    else
      let nonce := numLE ((List.range 8).flatMap fun i => bytesLE 4 (w (i + 1)))
      let (c, q) := c.quote (w 9 % 65536) nonce
      (c.emit (.dramWrite .firmware addr q)).postMessage n x [0, q.length]

/-- Answer an SPDM request: response code of SPDM 1.2 and payload. -/
def Chip.spdm (c : Chip) (code : Nat) (payload : List Nat) : Chip := if c.tileUp then c.emit (.spdm code payload) else c
/-- ERROR UnsupportedRequest (R489). -/
def Chip.spdmError (c : Chip) : Chip := c.spdm 0x7F [0x07]

/-- GET_VERSION (R489): SPDM 1.2. -/
def execGetVersion (s : State) : Res := s.on (·.spdm 0x04 [0x12])
/-- GET_CAPABILITIES (R489): certificates, challenge and signed measurements. -/
def execGetCapabilities (s : State) : Res := s.on (·.spdm 0x61 [0x16])
/-- NEGOTIATE_ALGORITHMS (R489): SHA-384 and ECDSA P-384 only. -/
def execNegotiateAlgorithms (s : State) : Res := s.on (·.spdm 0x63 [0x80, 0x02])
/-- GET_MEASUREMENTS (R489): index m + 1 is MRm, 0xFF all 16; a signature where one is asked for. -/
def execGetMeasurements (index : Fin 256) (sign : Bool) (nonce : Nat) (s : State) : Res := s.on fun c =>
  let ms := if index.val = 0xFF then List.range 16 else if 1 ≤ index.val ∧ index.val ≤ 16 then [index.val - 1] else []
  if ms.isEmpty then c.spdmError
  else
    let body := (ms.flatMap c.mrBytes) ++ bytesLE 32 nonce
    c.spdm 0x60 (body ++ if sign then Config.deviceSign body else [])
/-- CHALLENGE (R489): slot 0 is answered with the device key's signature. -/
def execChallenge (slot : Fin 8) (nonce : Nat) (s : State) : Res := s.on fun c =>
  if slot.val = 0 then
    let body := bytesLE 48 (Config.sha384 Config.deviceCert) ++ bytesLE 32 nonce
    c.spdm 0x03 (body ++ Config.deviceSign body)
  else c.spdmError
/-- GET_DIGESTS (R489): slot 0. -/
def execGetDigests (s : State) : Res := s.on (·.spdm 0x01 (bytesLE 48 (Config.sha384 Config.deviceCert)))
/-- GET_CERTIFICATE (R489): a portion of the chain of slot 0. -/
def execGetCertificate (slot : Fin 8) (offset len : Nat) (s : State) : Res := s.on fun c =>
  if slot.val = 0 then c.spdm 0x02 ((Config.deviceCert.drop offset).take len) else c.spdmError
/-- SPDM_UNSUPPORTED (R489). -/
def execSpdmUnsupported (s : State) : Res := s.on (·.spdmError)

/-- The event of a tamper whose flag the store has set, when the hub core has power (R483, R493). -/
def Chip.tamperEvent (c : Chip) : Chip :=
  if c.sec.due && c.tileUp then
    let c := (c.onSec fun x => { x with due := false }).extend 4 (Config.stateDigest 3) 2 0
    c.errEvt SEC_ERR.tamper 16 0 [c.fld SEC_TAMPER.flags, recStamp c.now]
  else c
/-- The store erases its contents (R483): key and CFG_BOOT; the flag survives. -/
def Chip.storeErase (c : Chip) (flag : Nat) : Chip :=
  if c.fld SEC_STATUS.bstore = 0 then c
  else
    let c := (c.put SEC_STATUS.bstore 1).put SEC_TAMPER.flags (withBit (c.fld SEC_TAMPER.flags) flag true)
    let c := ((c.put CFG_BOOT.slot 0).put CFG_BOOT.en 0).onSec fun x => { x with batKey := none, due := true }
    c.tamperEvent

/-- SEC_CMD.recover (R487): outside RECOVERY ignored; the image in the recovery SRAM is checked by the steps of Table 22.3. `check`
is 0 when every check passes, 1 signature, 2 security version, 3 body digest; the digests are what the steps measure. -/
def Chip.recover (c : Chip) (check header body config : Nat) : Chip :=
  if c.fld SEC_STATUS.boot ≠ 4 then c
  else if check = 1 then c
  else if check = 2 then c.put SEC_ERR.rollback 1
  else
    let c := c.extend 1 header 0 0
    if check = 3 then c else (c.extend 2 body 0 0).extend 3 config 1 0
/-- RECOVER (R487). -/
def execRecover (check : Fin 4) (header body config : Nat) (s : State) : Res := s.on (·.recover check.val header body config)

end Sys2Proof.Machine
end

