-- ==== Sys2Proof/Machine/CfgLoad.lean ====
section
/-! DEFINITION. Configuration (20): region, DELTA and FULL loads with their checks, clamp and release, aborts, readback. Ports are
the quarters' numbers; a FULL load is kept under 4. -/

namespace Sys2Proof.Machine

/-- The load under a port's number. -/
def Chip.load (c : Chip) (p : Nat) : Option CfgLoad := Tab.get none c.cfg.loads p
/-- Replace it. -/
def Chip.setLoad (c : Chip) (p : Nat) (l : Option CfgLoad) : Chip :=
  { c with cfg := { c.cfg with loads := Tab.set none c.cfg.loads p l } }
/-- The readback on a port. -/
def Chip.readback (c : Chip) (q : Nat) : Option CfgRead := Tab.get none c.cfg.reads q
/-- Port `q` runs a load or a readback (R445). -/
def Chip.portBusy (c : Chip) (q : Nat) : Bool := (c.load q).isSome || (c.load 4).isSome || (c.readback q).isSome
/-- Show what runs (Table 20.9, R455). -/
def Chip.cfgShow (c : Chip) : Chip :=
  let busy := maskOf ((List.range 4).filter c.portBusy)
  let c := (c.put CFG_STATUS.busy busy).putB CFG_STATUS.full (c.load 4).isSome
  let c := c.each ((List.range 4).filter c.portBusy) (·.odAbandon ·)
  (c.putB CFG_STATUS.readback ((List.range 4).any fun q => (c.readback q).isSome)).putB CFG_STATUS.run_veto (busy ≠ 0)
/-- The regions a load targets. -/
def CfgLoad.regions (l : CfgLoad) : List Nat := if l.full then List.range 64 else [l.region]
/-- The quarters whose result group a load reports in. -/
def loadQuarters (p : Nat) : List Nat := if p = 4 then List.range 4 else [p]
/-- State of region `r` (Table 20.10). -/
def Chip.rgState (c : Chip) (r : Nat) : Nat := c.fld (RG_STATUS.state r)
/-- The image identity of region `r` as a number. -/
def Chip.imageId (c : Chip) (r : Nat) : Nat := numLE ((List.range 4).flatMap fun i => bytesLE 4 (c.fld (RG_IMAGE_ID.id r i)))
/-- Microseconds from `a` to `b`. -/
def microsBetween (a b : Nat) : Nat := (b - a) / usMT

/-- A load begins on its port or ports (R445). -/
def Chip.loadBegin (c : Chip) (full : Bool) (r : Nat) (slot : Option Nat) (boot : Bool) : Chip :=
  let p := if full then 4 else r / 16
  let rs := if full then List.range 64 else [r]
  let c := c.setLoad p (some ⟨full, r, slot, c.now, rs.map fun r => (r, c.rgState r), none, none, none, 0, [], [], [], false, boot⟩)
  let c := c.each rs fun c r => c.put (RG_STATUS.state r) 1
  let c := c.each (loadQuarters p) fun c q => ((c.put (CFG_FRAMES.count q) 0).put (CFG_BAD_ADDR.addr q) 0).put
    (CFG_RESULT.region q) r
  (c.doIf full (·.put CFG_STATUS.skipped 0)).cfgShow
/-- CFG_CMD.load (R445). -/
def Chip.cfgLoad (c : Chip) : Chip :=
  let full := c.flag CFG_EXPECT.full
  let r := c.fld CFG_EXPECT.region
  let busy := if full then (List.range 4).any c.portBusy else c.portBusy (r / 16) || c.offline (r / 16)
  if busy then c.put CFG_CMD_RESULT.result 2
  else (c.loadBegin full r (if c.fld CFG_SRC.kind = 0 then some (c.fld CFG_SRC.slot) else none) false).put CFG_CMD_RESULT.result 1
/-- Firmware loads the boot image after a cold start or a wake from SEALED (R456). -/
def Chip.bootLoad (c : Chip) : Chip :=
  if c.flag CFG_BOOT.en then c.loadBegin true 0 (some (c.fld CFG_BOOT.slot)) true else c
/-- Event 187 with the result of a boot load (R456). -/
def Chip.bootResult (c : Chip) (l : CfgLoad) (code reason : Nat) : Chip :=
  c.doIf l.boot (·.raise 187 0 [l.slot.getD 0, code, reason])
/-- CFG_LOAD (R445). -/
def execCfgLoad (s : State) : Res := s.on (·.cfgLoad)

/-- A load fails (R450): in VERIFY its regions are as before; after K they are UNLOADED and nothing is released. -/
def Chip.cfgFail (c : Chip) (p reason bad : Nat) : Chip :=
  match c.load p with
  | none => c
  | some l =>
    let after := l.clamp.isSome
    let c := c.setLoad p none
    let c := c.each l.was fun c e => if after then
        ((c.put (RG_STATUS.state e.1) 0).onRegion e.1 fun x => { x with loaded := false, user := [] })
      else c.put (RG_STATUS.state e.1) e.2
    let c := c.each l.regions fun c r => (c.put (RG_ABORT.reason r) reason).put (RG_ABORT.valid r) 1
    let c := c.doIf after (·.each l.regions fun c r => c.raise (regionEvent r) 18 [reason, bad])
    let c := (c.put CFG_ERR.load_failed 1).each (loadQuarters p) fun c q =>
      (((c.put (CFG_RESULT.code q) 3).put (CFG_RESULT.reason q) reason).putB (CFG_RESULT.clamped q) after).put (CFG_BAD_ADDR.addr q) bad
    (c.cfgShow.raise 185 0 [if p = 4 then 0 else p, l.region, reason, ofBool after, bad, l.written.length]).bootResult l 3 reason

/-- CFG_CMD.abort for quarter `q` (R450): its load, or the FULL load it is part of. -/
def Chip.cfgAbort (c : Chip) (q reason : Nat) : Chip :=
  if (c.load 4).isSome then c.cfgFail 4 reason 0 else c.cfgFail q reason 0
/-- CFG_ABORT (R450). -/
def execCfgAbort (q : Fin 4) (s : State) : Res := s.on (·.cfgAbort q 17)

/-- The counts of Table 20.3 agree with the kind. -/
def imgCountsOk (h : ImgHeader) : Bool :=
  decide (0 < h.chunks) &&
    (if h.kind = 1 then (decide (h.frames = 0) || decide (h.frames = 261760)) && decide (h.descs.map (·.1) = List.range 64)
     else decide (h.descs.length = 1) &&
      if h.kind = 2 then decide (h.frames = 0) || decide (h.frames = 4090) else decide (h.frames ≤ 4090))

/-- The header's checks FORMAT to SIGNATURE, in the order of Table 20.6: 0 when all pass. -/
def Chip.headerReason (c : Chip) (l : CfgLoad) (h : ImgHeader) : Nat :=
  let r := ((h.descs.map (·.1)).head?).getD 64
  let was := (l.was.lookup l.region).getD 0
  if !h.formOk || h.kind = 0 || 3 < h.kind || h.keySel = 0 || 2 < h.keySel || !imgCountsOk h then 1
  else if (l.full != decide (h.kind = 1)) || (!l.full && decide (r ≠ l.region)) ||
      (decide (h.grade = 1) && decide (c.fld ID_VARIANT.grade = 0)) || (!l.full && c.offline (l.region / 16)) then 2
  else if h.kind = 3 ∧ (was ≠ 4 ∨ h.base ≠ c.imageId l.region) then 3
  else if (h.keySel = 1 ∧ !c.flag SEC_STATUS.fuse_key) ∨ (h.keySel = 2 ∧ c.fld SEC_STATUS.bstore ≠ 2) then 4
  else if !h.sigOk then 5
  else 0

/-- Chunk 0 (R446 step 2, R451): one good Kerb record for each descriptor; a frame count of 0 ends the load EMPTY. -/
def Chip.cfgKerb (c : Chip) (p : Nat) (l : CfgLoad) (h : ImgHeader) (tagOk : Bool) (recs : List KerbRec) : Chip :=
  if !tagOk then c.cfgFail p 7 0
  else if recs.map (·.region) ≠ h.descs.map (·.1) ∨ recs.any fun k => !k.crcOk || !k.backOk then c.cfgFail p 6 0
  else if h.frames = 0 then
    let c := (c.setLoad p none).each l.was fun c e => c.put (RG_STATUS.state e.1) e.2
    let us := microsBetween l.start c.now
    let c := c.each (loadQuarters p) fun c q =>
      (((c.put (CFG_RESULT.code q) 2).put (CFG_RESULT.reason q) 0).put (CFG_RESULT.clamped q) 0).put (CFG_LOAD_TIME.us q) us
    c.cfgShow.raise 184 0 [if p = 4 then 0 else p, h.kind, l.region, 2, us]
  else c.setLoad p (some { l with kerbs := some (recs.map fun k => (k.region, k.words)), chunk := 1 })

/-- Every port of the load's regions is CLOSED (R338, R446 step 4). -/
def Chip.cfgClosed (c : Chip) (l : CfgLoad) : Bool :=
  l.regions.all fun r => (closurePorts (.region (Fin.ofNat 64 r))).all fun p => c.portState p.1 p.2 = 2

/-- Class of a frame index (Table 20.1): 0 LOGIC, 1 BMEM, 2 AVENUE, 3 reserved. -/
def frameClass (i : Nat) : Nat := if i < 0xA50 then 0 else if i < 0xFF0 then 1 else if i < 0xFFA then 2 else 3

/-- The checks of R448 on one frame record, in order: 0 when all pass. -/
def CfgLoad.frameReason (l : CfgLoad) (h : ImgHeader) (f : FrameRec) : Nat :=
  let q := bits f.addr 30 2
  let r := 16 * q + bits f.addr 26 4
  let i := bits f.addr 14 12
  let inside := decide (f.addr < 2 ^ 32) && decide (f.addr % 2 ^ 14 = 0) &&
    (if l.full then decide (q = (l.chunk - 1) % 4) else decide (r = l.region))
  if !f.crcOk then 9 else if !inside then 10 else if frameClass i = 3 then 11 else if l.written.contains f.addr then 12
  else if !f.liveOk then 13 else if frameClass i = 2 ∧ !f.avenueOk then 14 else if h.frames ≤ l.written.length then 15 else 0

/-- A frame is written (R440, R446, 21 R460, R463): configuration frames into their cells with a fresh check, BMEM frames kept as
contents; in an offline quarter it is discarded (R453). -/
def Chip.cfgWrite (c : Chip) (p : Nat) (l : CfgLoad) (h : ImgHeader) (f : FrameRec) : Chip × CfgLoad :=
  let q := bits f.addr 30 2
  let r := 16 * q + bits f.addr 26 4
  let i := bits f.addr 14 12
  let l := { l with written := f.addr :: l.written }
  if c.offline q then (c.put CFG_STATUS.skipped (withBit (c.fld CFG_STATUS.skipped) q true), l)
  else
    let c := c.addSat (CFG_FRAMES.count (if p = 4 then q else p)) 1
    if frameClass i = 1 then
      (c, { l with contents := Tab.set 0 l.contents f.addr f.payload,
                   flagged := if f.contents then (160 * r + (i - 0xA50) / 9) :: l.flagged else l.flagged })
    else
      (c.onRegion r fun x =>
        { x with frames := Tab.set 0 x.frames i f.payload, upsets := Tab.del x.upsets i,
                 live := if f.live then i :: x.live.filter (· ≠ i) else x.live.filter (· ≠ i),
                 locator := Tab.set none x.locator i (l.slot.map fun s => (s, h.digest, l.chunk)) }, l)

/-- The frames of a chunk are checked and written one after another; the first failure aborts (R448). -/
def Chip.cfgFrames (c : Chip) (p : Nat) (h : ImgHeader) : CfgLoad → List FrameRec → Chip × Option CfgLoad
  | l, [] => (c, some l)
  | l, f :: fs =>
    match l.frameReason h f with
    | 0 => let (c, l) := c.cfgWrite p l h f
           Chip.cfgFrames c p h l fs
    | k => ((c.setLoad p (some l)).cfgFail p k f.addr, none)

/-- The lowest valid frame left unwritten, as an address (R448). -/
def CfgLoad.missing (l : CfgLoad) : Option Nat :=
  (l.regions.flatMap fun r => ((List.range 0xFFA).map fun i => r * 2 ^ 26 + i * 2 ^ 14)).find? fun a => !l.written.contains a

/-- A chunk after chunk 0 (R443, R448, 22 R483): it waits until the ports are CLOSED. -/
def Chip.cfgChunk (c : Chip) (p : Nat) (l : CfgLoad) (h : ImgHeader) (tagOk : Bool) (recs : List FrameRec) : Chip :=
  if l.clamp.isNone || !c.cfgClosed l || l.done then c
  else if !tagOk || (decide (h.keySel = 2) && decide (c.fld SEC_STATUS.bstore ≠ 2)) then c.cfgFail p 7 0
  else
    match c.cfgFrames p h l recs with
    | (c, none) => c
    | (c, some l) =>
      let l := { l with chunk := l.chunk + 1 }
      if l.chunk < h.chunks then c.setLoad p (some l)
      else
        let short := decide (h.kind ≠ 3) && decide (l.written.length < h.frames)
        if short then (c.setLoad p (some l)).cfgFail p 16 (l.missing.getD 0)
        else (c.setLoad p (some { l with done := true })).each l.regions fun c r => c.put (RG_STATUS.state r) 3

/-- CFG_CHUNK (R443, R446, R448): the next piece of the source of port `p`'s load (4 a FULL load). -/
def execCfgChunk (p : Fin 5) (d : CfgData) (s : State) : Res := s.on fun c =>
  match c.load p with
  | none => c
  | some l =>
    match d, l.header with
    | .readFail, _ => c.cfgFail p 8 0
    | .header h, none =>
      match c.headerReason l h with
      | 0 => c.setLoad p (some { l with header := some h })
      | k => c.cfgFail p k 0
    | .kerb tagOk recs, some h => if l.kerbs.isNone then c.cfgKerb p l h tagOk recs else c
    | .chunk tagOk recs, some h => c.cfgChunk p l h tagOk recs
    | _, _ => c

/-- A capture of region `r` held in the shadow cells is discarded, and a freeze of it ends (R447, R455). -/
def Chip.dropCapture (c : Chip) (r : Nat) : Chip :=
  let q := r / 16
  let c := c.onQuarter q fun k => { k with shadow := k.shadow.filter fun e => e.1 ≠ r % 16, held := k.held.filter (· ≠ r % 16) }
  c.put (QC_CAP_STATUS.captured q) (withBit (c.fld (QC_CAP_STATUS.captured q)) (r % 16) false)

/-- What K brings to one region (R446 step 3, R447): clamped and held, its group aborted and disarmed, the APG port emptied and
its streamer loading again, clusters in RESET, ports closing. -/
def Chip.clampRegion (c : Chip) (r : Nat) (full : Bool) (kerb : List Nat) : Chip :=
  let c := ((c.put (RG_STATUS.state r) 2).put (RG_STATUS.clamped r) 1).onRegion r fun x =>
    { x with loading := true, user := [], kerb := (kerb.zipIdx).foldl (fun t e => Tab.set 0 t e.2 e.1) [] }
  let c := if full then ((c.put (PGR_CTRL.enable r) 0).toSafe r).showInhibit r else c.abortRow r 2 none
  let c := (c.setArmed r 0).apgEmpty r
  let c := match c.feeder r with
    | some n => c.strLoad n
    | none => c
  let c := c.each (List.range 8) fun c i => c.clReset (8 * r + i)
  (c.dropCapture r).portClose (.region (Fin.ofNat 64 r))

/-- CFG_CLAMP (R446): the clamp instant K, once chunk 0 is good. -/
def execCfgClamp (p : Fin 5) (s : State) : Res := s.on fun c =>
  match c.load p with
  | none => c
  | some l =>
    match l.header, l.kerbs with
    | some h, some ks =>
      if l.clamp.isSome then c
      else
        let c := (c.extend 5 h.digest 3 l.region).setLoad p (some { l with clamp := some c.now })
        c.each l.regions fun c r =>
          (c.clampRegion r l.full ((ks.lookup r).getD [])).raise (regionEvent r) 16 [h.identity % 2 ^ 64, recStamp c.now]
    | _, _ => c

/-- Word `a` of a block as the load's BMEM frames give it: 64 data bits, and bits 71 to 64 from the ninth frame in NONE mode
(R440); a frame the load does not list leaves what the block holds. -/
def CfgLoad.wordOf (l : CfgLoad) (old : BmBlock) (r i a prot : Nat) : Nat :=
  let addr (k : Nat) : Nat := r * 2 ^ 26 + (0xA50 + 9 * i + k) * 2 ^ 14
  let had (k : Nat) : Bool := l.written.contains (addr k)
  let w := (old.word a).data
  let lo := if had (a / 512) then bits (Tab.get 0 l.contents (addr (a / 512))) (64 * (a % 512)) 64 else w % 2 ^ 64
  let hi := if prot = 2 then (if had 8 then bits (Tab.get 0 l.contents (addr 8)) (8 * a) 8 else w / 2 ^ 64) else 0
  lo + hi * 2 ^ 64

/-- A block memory of a released region (R440, R449, 06 R154): contents from flagged frames, unless it is in CRC mode. -/
def CfgLoad.blockOf (l : CfgLoad) (old : BmBlock) (r : Nat) (b : BlockImage) : BmBlock :=
  let x : BmBlock := { mode := b.mode, prot := b.prot, wa := b.wa, wb := b.wb, lvlLo := b.lvlLo, lvlHi := b.lvlHi }
  if b.prot = 1 ∨ !l.flagged.contains (160 * r + b.block) then x
  else
    let ws := (List.range 4096).foldl (fun t a => Tab.set {} t a ⟨l.wordOf old r b.block a b.prot, 0, true⟩) []
    { x with filled := true, words := ws, init := ws }

/-- What release does to one region (R449). -/
def Chip.releaseRegion (c : Chip) (l : CfgLoad) (h : ImgHeader) (img : RegionImage) : Chip :=
  let r := img.region
  let d := (h.descs.lookup r).getD (false, false, 0)
  let blocks := img.blocks.map fun b => (b.block, l.blockOf (c.block (160 * r + b.block)) r b)
  let c := c.resetRange (rgBase r + 0x804) (rgBase r + 0x1000)
  let c := c.resetRange (bmBase r) (bmBase r + 0x100)
  let c := (c.bmInit r d.1 blocks).each (List.range 8) fun c i => c.clReset (8 * r + i)
  let c := c.onRegion r fun x =>
    { x with lbMode := img.lbMode.foldl (fun t e => Tab.set 0 t e.1 e.2) [],
             entries := img.entries.foldl (fun t e => Tab.set {} t e.1 ⟨[(0, ⟨e.2.1, e.2.2.1, e.2.2.2, true⟩)]⟩) [],
             user := img.user.foldl (fun t e => Tab.set 0 t e.1 e.2) [], init := img.user.foldl (fun t e => Tab.set 0 t e.1 e.2) [],
             reflex := img.reflex, gcks := d.2.2, disabled := [],
             flagAt := [], frozen := false, loading := false, loaded := true }
  let c := (c.put (RG_GCK_MASK.gck r) d.2.2).putB (FAB_STATUS.match_live r) d.2.1
  let c := c.each (List.range 4) fun c i => c.put (RG_IMAGE_ID.id r i) (h.identity / 2 ^ (32 * i))
  let c := c.put2 (RG_LOAD_STAMP_LO.stamp_lo r) (RG_LOAD_STAMP_HI.stamp_hi r) (recStamp c.now)
  let c := ((c.incWrap (RG_LOAD_CNT.count r)).put (RG_ABORT.valid r) 0).put (RG_STATUS.clamped r) 0
  let c := (c.putB (RG_STATUS.readback_ok r) h.readback).put (RG_STATUS.state r) 4
  let c := (c.portReopen (.region (Fin.ofNat 64 r))).put SW_SUSPECT_LO.regions
    (if r < 32 then withBit (c.fld SW_SUSPECT_LO.regions) r false else c.fld SW_SUSPECT_LO.regions)
  let c := if r < 32 then c else c.put SW_SUSPECT_HI.regions (withBit (c.fld SW_SUSPECT_HI.regions) (r - 32) false)
  if c.gstate r = 4 then c.toIdle r else c

/-- CFG_RELEASE (R449): the regions of a complete load are released together; `imgs` is what their frames mean. -/
def execCfgRelease (p : Fin 5) (imgs : List RegionImage) (s : State) : Res := s.on fun c =>
  match c.load p with
  | none => c
  | some l =>
    match l.header, l.done with
    | some h, true =>
      let us := microsBetween l.start c.now
      let c := c.each (l.regions.filter fun r => !c.offline (r / 16)) fun c r =>
        (c.releaseRegion l h ((imgs.find? fun g => g.region = r).getD ⟨r, [], [], [], [], []⟩)).raise (regionEvent r) 17 [us]
      let c := c.each (l.regions.filter fun r => c.offline (r / 16)) fun c r => c.put (RG_STATUS.state r) 0
      let c := (c.setLoad p none).each (loadQuarters p) fun c q =>
        (((c.put (CFG_RESULT.code q) 1).put (CFG_RESULT.reason q) 0).put (CFG_RESULT.clamped q) 0).put (CFG_LOAD_TIME.us q) us
      (c.cfgShow.raise 184 0 [if p.val = 4 then 0 else p.val, h.kind, l.region, 1, us]).bootResult l 1 0
    | _, _ => c

/-- The payload a readback returns for one frame (R454). -/
def Chip.frameOut (c : Chip) (r i : Nat) : Nat :=
  let x := c.region r
  if frameClass i = 1 then
    let b := c.block (160 * r + (i - 0xA50) / 9)
    let k := (i - 0xA50) % 9
    if k < 8 then numLE ((List.range 512).flatMap fun a => bytesLE 8 (b.word (512 * k + a)).data)
    else if b.prot = 2 then numLE ((List.range 4096).map fun a => (b.word a).data / 2 ^ 64) else 0
  else if frameClass i = 3 then 0
  else
    let user := match (Tab.get none (c.quarter (r / 16)).shadow (r % 16) : Option Shadow) with
      | some sh => sh.user
      | none => x.user
    let cells := if x.live.contains i then x.entries.map fun e => match e.2.writes with
        | w :: _ => ofBool w.2.valid + 2 * w.2.mask + 2 ^ 41 * w.2.value
        | [] => 0
      else []
    Config.frameReadback (c.flag (RG_STATUS.readback_ok r)) i (Tab.get 0 x.frames i ^^^ Tab.get 0 x.upsets i % 2 ^ 32768) user cells
/-- The record of one frame (R454, Table 20.4) with a fresh CRC. -/
def Chip.frameRecord (c : Chip) (r i : Nat) : List Nat :=
  let masked := !c.flag (RG_STATUS.readback_ok r) && (decide (frameClass i = 0) || decide (frameClass i = 2))
  let flags := ofBool ((c.region r).live.contains i) + 4 * ofBool masked
  let head := bytesLE 4 (r * 2 ^ 26 + i * 2 ^ 14) ++ bytesLE 2 flags ++ bytesLE 6 0
  let pay := bytesLE 4096 (c.frameOut r i)
  head ++ bytesLE 4 (crc32c (head ++ pay)) ++ pay

/-- CFG_CMD.readback (R454): refused, BUSY, EMPTY, or started with its records written to tile DRAM in order. -/
def Chip.cfgReadback (c : Chip) : Chip :=
  let r := c.fld CFG_RB_REGION.region
  let i := c.fld CFG_RB_FIRST.index
  let n := c.fld CFG_RB_COUNT.count
  let q := r / 16
  if 4096 < i + n then c.put CFG_ERR.bad_value 1
  else if c.rgState r ≠ 4 ∨ c.portBusy q then c.put CFG_CMD_RESULT.result 2
  else
    let c := c.put CFG_CMD_RESULT.result 1
    if n = 0 then c.raise 186 0 [r, i, 0, 2]
    else
      let dst := c.fld CFG_RB_DST_LO.addr_lo * 64 + 2 ^ 32 * c.fld CFG_RB_DST_HI.addr_hi
      let c := { c with cfg := { c.cfg with reads := Tab.set none c.cfg.reads q (some ⟨r, i, n⟩) } }
      (c.each (List.range n) fun c k => c.emit (.dramWrite .config (dst + 4112 * k) (c.frameRecord r (i + k)))).cfgShow
/-- CFG_READBACK (R454). -/
def execCfgReadback (s : State) : Res := s.on (·.cfgReadback)

/-- READBACK_DONE (R454): the last destination write is answered, or one was answered other than OK. -/
def execReadbackDone (q : Fin 4) (ok : Bool) (s : State) : Res := s.on fun c =>
  match c.readback q with
  | none => c
  | some x =>
    let c := { c with cfg := { c.cfg with reads := Tab.set none c.cfg.reads q none } }
    let c := c.doIf (!ok) (·.put CFG_ERR.readback_failed 1)
    c.cfgShow.raise 186 0 [x.region, x.first, x.count, if ok then 1 else 3]

/-- TAMPER (22 R483): VBAT, lid or temperature out of range; a load in VERIFY with the battery-backed key aborts KEY. -/
def execTamper (flag : Fin 3) (s : State) : Res := s.on fun c =>
  let c := c.storeErase flag
  c.each (List.range 5) fun c p =>
    match c.load p with
    | some l => match l.header with
      | some h => if h.keySel = 2 ∧ l.clamp.isNone then c.cfgFail p 4 0 else c
      | none => c
    | none => c

/-- The power-fail mark, or a tile reset without results, stops every load (R455). -/
def Chip.cfgStop (c : Chip) (reason : Nat) : Chip := c.each (List.range 5) fun c p => c.cfgFail p reason 0

/-- A tile reset abandons loads and readbacks (R455): a region past K is UNLOADED; results take their reset values. -/
def Chip.cfgTileReset (c : Chip) : Chip :=
  let c := c.each (List.range 5) fun c p =>
    match c.load p with
    | some l => (c.each l.was fun c e => if l.clamp.isSome then
        (c.put (RG_STATUS.state e.1) 0).onRegion e.1 fun x => { x with loaded := false, user := [] }
      else c.put (RG_STATUS.state e.1) e.2)
    | none => c
  let boot := (c.fld CFG_BOOT.slot, c.fld CFG_BOOT.en)
  let c := { c.resetRange CFG_STATUS.busy.addr (CFG_STATUS.busy.addr + 0x1000) with cfg := {} }
  (c.put CFG_BOOT.slot boot.1).put CFG_BOOT.en boot.2

/-- SEALED and cold start lose the configuration (R456): every region UNLOADED. -/
def Chip.cfgLose (c : Chip) : Chip :=
  let c := c.each (List.range 64) fun c r => (c.resetRange (rgBase r) (rgBase r + 0x1000)).setRegion r {}
  { c with cfg := {} }

end Sys2Proof.Machine
end

