-- ==== Sys2Proof/Machine/Cores.lean ====
section
/-! DEFINITION. Halt and step of the management cores and of clusters, the watchdog and the Detours (25 R535 to R541). -/

namespace Sys2Proof.Machine

/-- Change the debug block's own state. -/
def Chip.onDbg (c : Chip) (f : Debug → Debug) : Chip := { c with dbg := f c.dbg }
/-- 0 RUNNING, 1 HALTING, 2 HALTED (R535). -/
def Chip.coreState (c : Chip) : Nat := c.fld DBG_STATUS.core_state

/-- The watchdog counts (R538, Table 25.4): enabled, the cores not HALTED unless run_in_halt, the tile up, no power-fail mark. -/
def Chip.wdgRuns (c : Chip) : Bool :=
  c.flag WDG_CTRL.en && (decide (c.coreState ≠ 2) || c.flag WDG_CTRL.run_in_halt) && c.tileUp && c.pwr.mark.isNone
/-- Time left, in MT. -/
def Chip.wdgRemain (c : Chip) : Nat := if c.wdgRuns then c.dbg.wdgLeft - (c.now - c.dbg.wdgAt) else c.dbg.wdgLeft
/-- Hold the time left before something starts or stops the count. -/
def Chip.wdgSync (c : Chip) : Chip := c.onDbg fun d => { d with wdgLeft := c.wdgRemain, wdgAt := c.now }
/-- WDG_PERIOD in MT. -/
def Chip.wdgPeriod (c : Chip) : Nat := c.fld WDG_PERIOD.ms * msMT
/-- The count starts over from WDG_PERIOD. -/
def Chip.wdgReload (c : Chip) : Chip := c.onDbg fun d => { d with wdgLeft := c.wdgPeriod, wdgAt := c.now }
/-- WDG_CTRL written: what has elapsed counts under the old setting. -/
def Chip.wdgCtrlWrite (c : Chip) (v : Nat) : Chip :=
  (c.wdgSync.put WDG_CTRL.en v).put WDG_CTRL.run_in_halt (v / 2)

/-- A write of WDG_KICK (R538): only one that carries the FIRMWARE identity reloads (R533 gives it to Twivel's). -/
def Chip.wdgKick (c : Chip) (src : Src) : Chip :=
  if partyOf src = partyOf .firmware then c.wdgReload else c.put DBG_ERR.bad_value 1
/-- WDG_KICK (R538). -/
def execWdgKick (src : Src) (s : State) : Res := s.on (·.wdgKick src)

/-- WDG_EXPIRE (R538): the cores restart short of a tile reset, a halt of theirs ends, the firmware reset epoch advances. -/
def Chip.wdgExpire (c : Chip) : Chip :=
  if c.wdgRuns && decide (c.wdgRemain = 0) then
    let c := ((c.put DBG_STATUS.core_state 0).put DBG_HALT_INFO.valid 0).incSat WDG_EXPIRE_CNT.count
    ((c.wdgReload.wsEpoch 1 0).lockShow).raise 219 1 [c.fld WDG_EXPIRE_CNT.count]
  else c
/-- WDG_EXPIRE (R538). -/
def execWdgExpire (s : State) : Res := s.on (·.wdgExpire)

/-- DBG_CMD.halt_core (R535, R536). -/
def Chip.haltCore (c : Chip) : Chip :=
  if c.coreState = 0 then c.put DBG_STATUS.core_state 1 else c.put DBG_ERR.bad_value 1
/-- HALT_CORE (R535). -/
def execHaltCore (s : State) : Res := s.on (·.haltCore)

/-- The cores are HALTED from this instant, at core address `pc`. -/
def Chip.coresStop (c : Chip) (pc : Nat) : Chip :=
  let c := (c.wdgSync.put DBG_STATUS.core_state 2).put DBG_HALT_PC.pc pc
  (c.put2 DBG_HALT_STAMP_LO.stamp_lo DBG_HALT_STAMP_HI.stamp_hi (recStamp c.now)).onDbg fun d => { d with haltAt := c.now }
/-- A halt asked for takes hold (R535): with a lock still owned, LOCKHELD names the lowest Waystation. -/
def Chip.coresHalted (c : Chip) (pc : Nat) : Chip :=
  if c.coreState ≠ 1 then c
  else
    let c := c.coresStop pc
    match c.fwLocks with
    | w :: _ => (((c.put DBG_STATUS.lockheld 1).put DBG_HALT_INFO.ws w).put DBG_HALT_INFO.valid 1).raise 216 2 [pc, w]
    | [] => c.raise 216 1 [pc, 0]
/-- CORES_HALTED (R535). -/
def execCoresHalted (pc : Word) (s : State) : Res := s.on (·.coresHalted pc.toNat)

/-- The watchdog goes on after a halt from max(remaining, WDG_PERIOD / 8) (R538). -/
def Chip.wdgContinue (c : Chip) : Chip :=
  let c := c.wdgSync
  c.onDbg fun d => { d with wdgLeft := max d.wdgLeft (c.wdgPeriod / 8) }
/-- DBG_CMD.resume_core (R536): a resume while HALTING cancels the halt. -/
def Chip.resumeCore (c : Chip) : Chip :=
  if c.coreState = 2 then
    let c := ((c.wdgContinue).put DBG_STATUS.core_state 0).put DBG_HALT_INFO.valid 0
    c.raise 217 1 [c.now - c.dbg.haltAt]
  else if c.coreState = 1 then c.put DBG_STATUS.core_state 0
  else c.put DBG_ERR.bad_value 1
/-- RESUME_CORE (R536). -/
def execResumeCore (s : State) : Res := s.on (·.resumeCore)

/-- DBG_CMD.step_core (R536): one instruction, then HALTED at core address `pc`. -/
def Chip.stepCore (c : Chip) (pc : Nat) : Chip :=
  if c.coreState = 2 then (c.wdgContinue).coresStop pc
  else if c.coreState = 0 then c.put DBG_ERR.bad_value 1
  else c
/-- STEP_CORE (R536). -/
def execStepCore (pc : Word) (s : State) : Res := s.on (·.stepCore pc.toNat)

/-- A core halt is released by the power-fail mark or the entry to DORMANT (Table 25.4): event 217 with cause 2 LOST or 3 POWERFAIL. -/
def Chip.haltLost (c : Chip) (cause : Nat) : Chip :=
  let was := c.coreState
  let c := (c.put DBG_STATUS.core_state 0).put DBG_HALT_INFO.valid 0
  if was = 2 then c.raise 217 cause [c.now - c.dbg.haltAt] else c

/-- The debugger's halt of a cluster: as CL_CMD.halt, with event 216 when it halts (R537, Table 25.6). -/
def Chip.haltCl (c : Chip) (j : Nat) : Chip :=
  if c.clState j < 2 then c.clStop j
  else (c.onDbg fun d => { d with cls := if d.cls.contains j then d.cls else d.cls ++ [j] }).clStop j
/-- HALT_CL (R537). -/
def execHaltCl (s : State) : Res := s.on fun c => c.haltCl (c.fld DBG_CL_SEL.cluster)
/-- RESUME_CL (R537). -/
def execResumeCl (s : State) : Res := s.on fun c => c.clResume (c.fld DBG_CL_SEL.cluster)

/-- The debugger's step of a cluster (R537): from HALTED one instruction to the next boundary; with step_irq an interrupt pending and
enabled is entered instead, and the cluster halts at 0xF40. -/
def Chip.stepCl (c : Chip) (j : Nat) : Chip :=
  if c.clState j ≠ 1 then c.clRefuse j
  else
    let x := c.cl j
    let irq := !x.handler && x.redirs.isEmpty && decide ((c.fld (CL_IRQ_PEND.pend j) &&& c.fld (CL_IRQ_EN.en j)) ≠ 0)
    if c.flag DBG_CTRL.step_irq && irq then
      let c := (c.put (CL_IRA.ira j) (c.fld (CL_PC.pc j))).onCl j fun x => { x with handler := true }
      (c.put (CL_PC.pc j) 0xF40).clShow j
    else ((c.onCl j fun x => { x with haltReq := true }).clRunState j).clShow j
/-- STEP_CL (R537). -/
def execStepCl (s : State) : Res := s.on fun c => c.stepCl (c.fld DBG_CL_SEL.cluster)

/-- The unit that acts on a fetch or read of flash address `a`: the lowest-numbered enabled one (R539). -/
def Chip.detour (c : Chip) (a : Nat) : Option Nat :=
  (List.range 32).find? fun d => c.flag (DTR_CTL.en d) && decide (c.fld (DTR_ADDR.addr d) = a / 4)

/-- A core fetches the word at flash address `a`, at core address `pc` (R539): BREAK at FULL halts the cores before the
instruction; PATCH serves its word. -/
def Chip.detourFetch (c : Chip) (a pc : Nat) : Chip :=
  match c.detour a with
  | none => c
  | some d =>
    if c.flag (DTR_CTL.mode d) then
      if decide (c.fld SEC_STATUS.debug = 2) && decide (c.coreState ≠ 2) then
        ((c.coresStop pc).put (DTR_CTL.hit d) 1).raise 218 1 [d, a]
      else c
    else c.incSat (DTR_HITCNT.count d)
/-- DETOUR_BREAK (R539). -/
def execDetourBreak (a : Fin 0x800000) (pc : Word) (s : State) : Res := s.on (·.detourFetch a pc.toNat)

/-- The bytes of the Detour table that MR6 takes: address, data and control word of each unit. -/
def Chip.detourTable (c : Chip) : List Nat :=
  (List.range 32).flatMap fun d => bytesLE 4 (4 * c.fld (DTR_ADDR.addr d)) ++ bytesLE 4 (c.fld (DTR_DATA.data d)) ++
    bytesLE 4 (c.fld (DTR_CTL.en d) + 2 * c.fld (DTR_CTL.mode d))
/-- MR6 takes the current table (22 Table 22.2). -/
def Chip.detourExtend (c : Chip) : Chip := c.extend 6 (Config.sha384 c.detourTable) 4 0

/-- A write of word `w` of unit `d`'s page (R540): only firmware, and Twivel at FULL; address and data while the unit is disabled;
a change of en or mode extends MR6 and raises event 221. -/
def Chip.dtrWrite (c : Chip) (src : Src) (d w v : Nat) : Chip :=
  let mayWrite := decide (src = .firmware) || (decide (src = .twivel) && decide (c.fld SEC_STATUS.debug = 2))
  if !mayWrite then c.put DBG_ERR.bad_value 1
  else if w = 0 ∨ w = 1 then
    if c.flag (DTR_CTL.en d) then c.put DBG_ERR.bad_value 1
    else if w = 0 then c.put (DTR_ADDR.addr d) ((DTR_ADDR.addr d).of v) else c.put (DTR_DATA.data d) v
  else if w = 2 then
    let was := (c.fld (DTR_CTL.en d), c.fld (DTR_CTL.mode d))
    let c := ((c.put (DTR_CTL.en d) v).put (DTR_CTL.mode d) (v / 2)).w1c (DTR_CTL.hit d) v
    if (c.fld (DTR_CTL.en d), c.fld (DTR_CTL.mode d)) = was then c
    else c.detourExtend.raise 221 1 [d, c.fld (DTR_CTL.en d), c.fld (DTR_CTL.mode d)]
  else c
/-- DTR_WRITE (R540). -/
def execDtrWrite (src : Src) (d : Fin 32) (w : Fin 4) (v : Word) (s : State) : Res := s.on (·.dtrWrite src d w v.toNat)

/-- The standby domain's own registers and state take their reset values: the port, its trace, DBG_CTRL (Table 25.4). -/
def Chip.standbyReset (c : Chip) : Chip :=
  let c := c.each [DBG_CTRL.max_wait, DBG_CTRL.wake_ok, DBG_CTRL.step_irq, DBG_STATUS.held, DBG_ERR.fault, DBG_ERR.bad_value,
    DBG_FAULT.cause, DBG_FAULT.resp, DBG_TRACE_SEL.entry, DBG_TRACE_COUNT.count] fun c f => c.put f f.reset
  (c.onDbg fun d => { d with held := none, trace := [] }).resetRange 0x00100800 0x00100A00

/-- DBG_CMD.sd_reset (R531, R541): the port and its trace reset, every Detour unit disabled, MR6 extended. -/
def Chip.sdReset (c : Chip) : Chip := c.standbyReset.detourExtend
/-- SD_RESET (R531). -/
def execSdReset (s : State) : Res := s.on (·.sdReset)

/-- A tile reset (Table 25.4): the held access ends in FAULT TARGET, halts released, the watchdog at its reset values; the Detours
stay, and MR6 takes their table when a unit is enabled (R540). -/
def Chip.dbgTileReset (c : Chip) : Chip :=
  let c := ((c.put DBG_STATUS.core_state 0).put DBG_STATUS.lockheld 0).resetRange 0x00100010 0x00100024
  let c := c.resetRange 0x00100080 0x00100094
  let c := c.onDbg fun d => { d with held := d.held.map fun h => if h.done.isNone then { h with done := some (.fault 6 none) } else h }
  c.wdgReload.onDbg fun d => { d with cls := [] }
/-- SEALED and cold start (Table 25.4): everything of the block lost. -/
def Chip.dbgLose (c : Chip) : Chip := (({ c with dbg := {} }).resetRange 0x00100000 0x00101000).wdgReload

end Sys2Proof.Machine
end

