-- ==== Sys2Proof/Machine/Commits.lean ====
section
/-! DEFINITION. Staged groups (03 R82 to R86): which fields a group holds, what a commit would put in effect, the staged
conditions that make a pin group, a streamer or a fail log bad, and the end of a commit. -/

namespace Sys2Proof.Machine

/-- A byte address lies in a unit's page. -/
def inPage (a base size : Nat) : Bool := decide (base ≤ a) && decide (a < base + size)

/-- A staged field's address belongs to staged group `gp` (Table 3.6). -/
def groupHas (gp a : Nat) : Bool :=
  if gp < 64 then
    inPage a (pgrBase gp) 0x1000 || inPage a (pchBase (16 * gp)) 0x1000 || inPage a (tsBase gp 0) 0x1000
  else if gp < 136 then inPage a (strBase (gp - 64)) 0x400
  else if gp < 140 then inPage a (flBase (gp - 136)) 0x10000
  else if gp < 176 then inPage a (dmcBase (gp - 140)) 0x3000
  else if gp < 192 then inPage a (0x000C0400 + 0x40 * (gp - 176)) 0x40
  else false

/-- The staged values of a group as they stand now (R86). -/
def Chip.snapshot (c : Chip) (gp : Nat) : Tab Nat := c.staged.filter fun e => groupHas gp (e.1 / 8)

/-- A group's values become active (R84). -/
def Chip.activate (c : Chip) (gp : Nat) (snap : Tab Nat) : Chip :=
  let kept := c.active.filter fun e => !groupHas gp (e.1 / 8)
  { c with active := snap.foldl (fun t e => Tab.ins t e.1 e.2) kept }

/-- The value a field would have after a commit of the groups `ns`: staged where its group `gp` is among them. -/
def Chip.eff (c : Chip) (ns : List Nat) (gp : Nat) (f : Fld) : Nat := if ns.contains gp then c.stg f else c.act f

/-- Timing sets of a group a staged write has touched. -/
def Chip.touchedSets (c : Chip) (g : Nat) : List Nat :=
  (c.staged.filter fun e => inPage (e.1 / 8) (tsBase g 0) 0x1000).map fun e => (e.1 / 8 - tsBase g 0) / 16

/-- Timing sets to check: the touched ones, and one of the others, which are all alike. -/
def Chip.setsToCheck (c : Chip) (g : Nat) : List Nat :=
  let t := (c.touchedSets g).eraseDups
  match (List.range 256).find? fun n => !t.contains n with
  | some n => n :: t
  | none => t

/-- Offsets in rising order, each at least 106 MT after the one before. -/
def spaced : List Nat → Bool
  | a :: b :: l => decide (a + 106 ≤ b) && spaced (b :: l)
  | _ => true

/-- Table 7.3 for one timing set and one channel format: period with 16 fraction bits. -/
def slotsBad (period : Nat) (drv : List Nat) (den : Nat) (window s0 s1 : Bool) (o0 o1 : Nat) : Bool :=
  let late (o : Nat) := decide (period ≤ o * 65536)
  let stb := (if s0 ∨ (window ∧ s1) then [o0] else []) ++ (if s1 ∨ (window ∧ s0) then [o1] else [])
  let wrap (l : List Nat) := match l.head?, l.getLast? with
    | some a, some b => decide (period + a * 65536 < (b + 106) * 65536)
    | _, _ => false
  drv.any late || late den || stb.any late || !spaced drv || (decide (2 ≤ drv.length) && wrap drv) ||
    (!window && s0 && s1 && (decide (o1 < o0 + 106) || wrap [o0, o1])) ||
    (window && ((s0 && decide (o1 < o0 + 48)) || (s1 && !s0)))

/-- Table 7.3 for one staged timing set and one channel. -/
def Chip.tsBad (c : Chip) (g ts k : Nat) : Bool :=
  let n := 16 * g + k
  let f := c.stg (TS.fmt g ts)
  let drv := ((List.range 4).filter fun i => c.stg (pchAct n f i) ≠ 0).map fun i => c.stg (TS.drive g ts i)
  let en := c.stg (PCH_FMT.s_en n f)
  slotsBad (c.stg (TS.period g ts)) drv (c.stg (TS.drive g ts (c.stg (PCH_FMT.den_slot n f))))
    (decide (c.stg (TS.smode g ts) = 1)) (bit en 0) (bit en 1) (c.stg (TS.s0 g ts)) (c.stg (TS.s1 g ts))

/-- Table 7.3: staged values of a pin group are bad. -/
def Chip.pinGroupBad (c : Chip) (g : Nat) : Bool :=
  (decide (c.stg (PGR_ARM.armed g) = 1) && (decide (c.gstate g = 0) || decide (c.gstate g = 4))) ||
    (c.setsToCheck g).any fun ts =>
      let p := c.stg (TS.period g ts)
      decide (p < 0x006AAAAB) || decide (0x28000000 < p) || (List.range 16).any fun k => c.tsBad g ts k

/-- Table 8.2: staged values of streamer `n` are bad in a commit of the groups `ns`. -/
def Chip.streamerBad (c : Chip) (ns : List Nat) (n : Nat) : Bool :=
  let eff (m : Nat) (f : Nat → Fld) := c.eff ns (64 + m) (f m)
  let q := n / 18
  let twice := decide (c.stg (STR_GROUP.valid n) = 1) && (List.range 18).any fun s =>
    let m := 18 * q + s
    m ≠ n && decide (eff m STR_GROUP.valid = 1) && decide (eff m STR_GROUP.group = c.stg (STR_GROUP.group n))
  let moved := [STR_PROG_LO.prog_lo n, STR_PROG_HI.prog_hi n, STR_GROUP.group n, STR_GROUP.valid n, STR_PACK.width n,
    STR_PACK.ts_init n].any fun f => c.stg f ≠ c.act f
  decide (c.stg (STR_PROG_LO.prog_lo n) % 16 ≠ 0) || twice || (decide (c.fld (STR_STATUS.state n) = 3) && moved)

/-- The bytes from `a` on, `n` of them, lie in quarter `q`'s own interleave set: in its 512 GiB, every extent they touch in
mode QUARTER (11 R258). -/
def Chip.inOwnSet (c : Chip) (q a n : Nat) : Bool :=
  let lo := a / 2 ^ 33
  let hi := (a + n - 1) / 2 ^ 33
  decide (64 * q ≤ lo) && decide (hi < 64 * (q + 1)) &&
    (List.range (hi + 1 - lo)).all fun i => !bit (Tab.get 8 c.dram.maps ((lo + i) % 64)) 0

/-- Two windows of bytes overlap. -/
def overlap (a n b m : Nat) : Bool := decide (a < b + m) && decide (b < a + n)

/-- Table 9.9: staged values of a quarter's fail log are bad. -/
def Chip.failLogBad (c : Chip) (q : Nat) : Bool :=
  let base := c.stg (FL_BUF_BASE_LO.base_lo q) + 2 ^ 32 * c.stg (FL_BUF_BASE_HI.base_hi q)
  let size := 2 ^ c.stg (FL_BUF_SIZE.log2 q)
  let lim := c.stg (FL_LIMIT.limit q)
  let head := c.stg (FL_HEADROOM.headroom q)
  let mode (g : Nat) := c.stg (FL_MODE.mode q g)
  let bmAt (g : Nat) := c.stg (FL_BM_BASE_LO.base_lo q g) + 2 ^ 32 * c.stg (FL_BM_BASE_HI.base_hi q g)
  let bmSize (g : Nat) := 2 ^ c.stg (FL_BM_SIZE.log2 q g)
  let maps := (List.range 16).filter fun g => mode g = 2
  let diff (l : List Fld) := l.any fun f => c.stg f ≠ c.act f
  let place := [FL_BUF_BASE_LO.base_lo q, FL_BUF_BASE_HI.base_hi q, FL_BUF_SIZE.log2 q, FL_CTRL.ack_src q]
  let others := place ++ [FL_LIMIT.limit q, FL_HEADROOM.headroom q, FL_DMA_CH.ch q] ++
    (List.range 16).flatMap (fun g => [FL_MODE.mode q g, FL_BM_BASE_LO.base_lo q g, FL_BM_BASE_HI.base_hi q g,
      FL_BM_SIZE.log2 q g, FL_BM_CFG.lanes q g, FL_BM_CFG.addr_src q g]) ++
    (List.range 256).map fun k => FL_BM_LANE.lane q (k / 8) (k % 8)
  ((List.range 16).any (fun g => mode g ≠ 0) && !c.inOwnSet q base size) || decide (size < lim * 65536) ||
    decide (lim < 2 * head) || decide (lim < c.stg (FL_RESUME.resume q) + 2 * head) ||
    maps.any (fun g => !c.inOwnSet q (bmAt g) (bmSize g) || overlap (bmAt g) (bmSize g) base size ||
      maps.any fun h => h ≠ g && overlap (bmAt g) (bmSize g) (bmAt h) (bmSize h)) ||
    (decide (c.flWr q ≠ c.flAck q) && diff place) || (c.quarterRunning q && diff others)

/-- Change the commits in progress. -/
def Chip.onCommits (c : Chip) (f : List Commit → List Commit) : Chip := { c with lq := { c.lq with commits := f c.lq.commits } }

/-- A commit's groups have all switched (R85): DONE where it is the last one, and event 45. -/
def Chip.commitEnd (c : Chip) (k : Commit) : Chip := (c.doIf k.last (·.put LQ_COMMIT_STATUS.state 2)).raise 45 0 [k.cset]

/-- Group `gp` has switched, or a later commit replaces it (R85, R86). -/
def Chip.commitDone (c : Chip) (gp : Nat) : Chip :=
  let drop (k : Commit) : Commit := { k with groups := k.groups.filter fun e => e.1 ≠ gp }
  let ended := (c.lq.commits.filter fun k => k.groups.any fun e => e.1 = gp).filter fun k => (drop k).groups.isEmpty
  let c := c.onCommits fun l => (l.map drop).filter fun k => !k.groups.isEmpty
  c.each ended (·.commitEnd ·)

/-- The values a pending commit holds for group `gp`. -/
def Chip.pendingSnap (c : Chip) (gp : Nat) : Option (Tab Nat) :=
  (c.lq.commits.filterMap fun k => k.groups.lookup gp).head?

end Sys2Proof.Machine
end

