-- ==== Sys2Proof/Machine/Legs.lean ====
section
/-! DEFINITION. Starting and stopping legs (03 R70 Table 3.1, 07 R172 to R174, 08 R189): START_LEG, HALT, ABORT and their
immediate forms. -/

namespace Sys2Proof.Machine

/-- Timing set in force when a group's leg starts: STR_PACK.ts_init of its streamer (08 R193); a group no streamer feeds takes
each vector's set from its APG and starts from set 0. -/
def Chip.firstSet (c : Chip) (g : Nat) : Nat :=
  match c.feeder g with
  | some n => c.act (STR_PACK.ts_init n)
  | none => 0

/-- The group's streamer goes to RUNNING with the leg (08 Table 8.1), its STR_CTRL in force for the leg (08 R209). -/
def Chip.strStart (c : Chip) (g : Nat) : Chip :=
  match c.feeder g with
  | none => c
  | some n =>
    let st := c.fld (STR_STATUS.state n)
    if st = 1 ∨ st = 2 then
      let ctrl := c.fld (STR_CTRL.pin_loops n) + 2 * c.fld (STR_CTRL.alt_prefetch n)
      (c.onStr n fun x => { x with ts := c.act (STR_PACK.ts_init n), ctrl := ctrl }).put (STR_STATUS.state n) 3
    else c

/-- An armed group starts its leg at instant `t` (R24, R172 row 11): its LEG record, the batch's leg count, its streamer. A
group not in ARMED is refused (R174). -/
def Chip.startLeg (c : Chip) (launch t g : Nat) : Chip :=
  if c.act (PGR_ARM.armed g) = 0 then c
  else if c.gstate g ≠ 2 then c.errEvt (PGR_ERR.start_refused g) (pgrEvent g) 2 [c.gstate g, t]
  else
    let ts := c.firstSet g
    let l : Leg := { t := t, sum := 0, count := 0, ts := ts, num := c.lq.batch.legs % 2 ^ 16, launch := launch,
                     period := c.act (TS.period g ts), ending := 0, voided := false, fin := t, lastAt := t }
    let p := c.group g
    let stalled := decide (c.fld (FL_STATUS.flow (g / 16)) = 1) && decide (c.flMode g ≠ 0)
    let c := c.setGroup g { p with 
      leg := some l, stalls := if stalled then [(t, none)] else [], chans := p.chans.map fun e => (e.1, { e.2 with lastDrv := none, lastDen := none, lastStb := none, prev := none }) }
    let c := (c.groupTo g 3 0).onBatch fun b => { b with legs := b.legs + 1 }
    let c := c.put2 (PGR_VEC_LO.vec_lo g) (PGR_VEC_HI.vec_hi g) 0
    (c.legRecordTo g 1 t 0 l).strStart g

/-- The pin groups of the masked quarters, in order. -/
def maskGroups (mask : Nat) : List Nat := (maskQuarters mask).flatMap fun q => (List.range 16).map fun g => 16 * q + g

/-- START_LEG (R70). -/
def execStartLeg (s : State) : Res := s.on (·.runEntry 1 fun c e i =>
  c.each (maskGroups (bits e.arg 0 4)) fun c g => c.startLeg e.id i g)

/-- HALT (R70): legs in the masked quarters end at the next vector boundary; event 54. -/
def execHalt (s : State) : Res := s.on (·.runEntry 3 fun c e i =>
  let c := c.each (maskGroups (bits e.arg 0 4)) fun c g => c.endLegReq g 3
  c.raiseAt 54 0 i [bits e.arg 0 4])

/-- Abort the groups of the masked quarters (Table 7.8 row 9). -/
def Chip.abortMask (c : Chip) (mask : Nat) (at_ : Option Nat) : Chip :=
  c.each (maskGroups mask) fun c g => c.abortRow g 7 at_

/-- ABORT (R70): the abort levels are placed at the execution instant (07 R173); event 53. -/
def execAbort (s : State) : Res := s.on (·.runEntry 4 fun c e i =>
  (c.abortMask (bits e.arg 0 4) (some i)).raiseAt 53 0 i [bits e.arg 0 4])

/-- ABORT_NOW (R92): every quarter at the current instant, outside the queue. -/
def Chip.abortNow (c : Chip) : Chip := (c.abortMask 0xF none).raise 53 0 [0xF]
/-- ABORT_NOW (R92). -/
def execAbortNow (s : State) : Res := s.on (·.abortNow)

end Sys2Proof.Machine
end

