-- ==== Sys2Proof/Machine/Ecc.lean ====
section
/-! DEFINITION. The line code of 12 R285 to R290: RS(72,64) over GF(2^8) with polynomial x^8 + x^4 + x^3 + x^2 + 1, generator
roots alpha^0 to alpha^7. What the code sees of a line is the difference between its stored check bytes and the check bytes
of its stored data: 0 in a clean line, and the syndromes depend on nothing else. Byte k of the 64-bit difference is check
byte k, the coefficient of x^(7-k). -/

namespace Sys2Proof.Machine

/-- Multiplication by x in the field. -/
def gfX (a : Nat) : Nat := if a < 128 then 2 * a else (2 * a) ^^^ 0x11D
/-- Product in the field. -/
def gfMul (a b : Nat) : Nat := go 8 a b
where
  /-- Over the `n` low bits of `b`: `a` times its bit 0, plus `a` times x times the rest. -/
  go : Nat → Nat → Nat → Nat
    | 0, _, _ => 0
    | n + 1, a, b => (if b % 2 = 1 then a else 0) ^^^ go n (gfX a) (b / 2)
/-- Power in the field. -/
def gfPow (a : Nat) : Nat → Nat
  | 0 => 1
  | n + 1 => gfMul a (gfPow a n)
/-- Inverse in the field: a to the 254 (0 for 0). -/
def gfInv (a : Nat) : Nat :=
  let a2 := gfMul a a
  let a4 := gfMul a2 a2
  let a8 := gfMul a4 a4
  let a16 := gfMul a8 a8
  let a32 := gfMul a16 a16
  let a64 := gfMul a32 a32
  let a128 := gfMul a64 a64
  gfMul a128 (gfMul a64 (gfMul a32 (gfMul a16 (gfMul a8 (gfMul a4 a2)))))

/-- A polynomial, constant coefficient first, at a point. -/
def gfEval (p : List Nat) (x : Nat) : Nat := p.foldr (fun c acc => c ^^^ gfMul acc x) 0
/-- Sum of two polynomials. -/
def gfAdd : List Nat → List Nat → List Nat
  | [], q => q
  | p, [] => p
  | a :: p, b :: q => (a ^^^ b) :: gfAdd p q
/-- Product of two polynomials. -/
def gfMulP : List Nat → List Nat → List Nat
  | [], _ => []
  | a :: p, q => gfAdd (q.map (gfMul a)) (0 :: gfMulP p q)

/-- The generator polynomial (12 R285), constant coefficient first. -/
def rsGen : List Nat := (List.range 8).foldl (fun g i => gfMulP [gfPow 2 i, 1] g) [1]

/-- One data byte through the divider: `st` is the remainder, coefficient of x^7 first; `g` holds g7 to g0. -/
def rsStep (g st : List Nat) (d : Nat) : List Nat :=
  let fb := d ^^^ st.headD 0
  List.zipWith (fun c s => gfMul fb c ^^^ s) g (st.drop 1 ++ [0])
/-- The check bytes of 64 data bytes, as a number with check byte k in bits 8k to 8k + 7 (12 R285). -/
def rsCheck (line : Nat) : Nat :=
  numLE ((bytesLE 64 line).foldl (rsStep ((rsGen.take 8).reverse)) [0, 0, 0, 0, 0, 0, 0, 0])

/-- Syndromes of a difference, of the roots alpha^0 to alpha^7. -/
def rsSyndromes (dev : Nat) : List Nat :=
  (List.range 8).map fun i => gfEval (bytesLE 8 dev).reverse (gfPow 2 i)

/-- State of the search for the error locator: the locator, the one before, its length, the shift and the last discrepancy. -/
structure Locator where
  c : List Nat
  b : List Nat
  l : Nat
  m : Nat
  d : Nat
deriving DecidableEq, Repr

/-- One step of the Berlekamp-Massey search: `seen` holds the syndromes so far, latest first. -/
def Locator.step (x : Locator) (n : Nat) (seen : List Nat) : Locator :=
  let d := (List.zipWith gfMul x.c seen).foldl (· ^^^ ·) 0
  if d = 0 then { x with m := x.m + 1 }
  else
    let k := gfMul d (gfInv x.d)
    let c := gfAdd x.c (List.replicate x.m 0 ++ x.b.map (gfMul k))
    if 2 * x.l ≤ n then { c := c, b := x.c, l := n + 1 - x.l, m := 1, d := d }
    else { x with c := c, m := x.m + 1 }

/-- The error locator of the syndromes. -/
def rsLocator : List Nat → Nat → List Nat → Locator → Locator
  | [], _, _, x => x
  | s :: ss, n, seen, x => rsLocator ss (n + 1) (s :: seen) (x.step n (s :: seen))

/-- The derivative of a polynomial. -/
def gfDeriv (p : List Nat) : List Nat := ((p.drop 1).zipIdx).map fun (c, i) => if i % 2 = 0 then c else 0

/-- A correction: what to change in the data bytes and in the check bytes, and how many symbols it changes. -/
structure RsFix where
  data    : Nat
  check   : Nat
  symbols : Nat
deriving DecidableEq, Repr

/-- Correction of the symbol at power `p` of x by `e`: data byte j stands at power 71 - j, check byte k at 7 - k (R285). -/
def RsFix.put (f : RsFix) (p e : Nat) : RsFix :=
  if p < 8 then { f with check := f.check ^^^ e * 2 ^ (8 * (7 - p)), symbols := f.symbols + 1 }
  else { f with data := f.data ^^^ e * 2 ^ (8 * (71 - p)), symbols := f.symbols + 1 }

/-- The correction of at most `t` symbols that explains a difference, if there is one (12 R287, R288). -/
def rsCorrect (t dev : Nat) : Option RsFix :=
  let ss := rsSyndromes dev
  let x := rsLocator ss 0 [] ⟨[1], [1], 0, 1, 1⟩
  let om := (gfMulP ss x.c).take 8
  let dc := gfDeriv x.c
  let roots := numbersUpTo.filter fun p => gfEval x.c (gfInv (gfPow 2 p)) = 0
  let fix := roots.foldl (fun (f : RsFix) p =>
    let inv := gfInv (gfPow 2 p)
    f.put p (gfMul (gfPow 2 p) (gfMul (gfEval om inv) (gfInv (gfEval dc inv))))) ⟨0, 0, 0⟩
  if x.l ≤ t ∧ roots.length = x.l ∧ rsCheck fix.data ^^^ fix.check = dev then some fix else none
where
  /-- The powers of a codeword's symbols. -/
  numbersUpTo : List Nat := List.range 72

/-- The fixed poison pattern 50 4F 49 53 4E 4C 4F 52, in check byte order (12 R290). -/
def poisonMark : Nat := 0x524F4C4E53494F50

/-- What the decoder finds (12 Table 12.1). -/
inductive Decoded where
  | clean | fixed (f : RsFix) | poison | lost
deriving DecidableEq, Repr

/-- Decode a line from the difference of its check bytes, correcting at most `t` symbols (12 R288). -/
def rsDecode (t dev : Nat) : Decoded :=
  if dev = 0 then .clean
  else if dev = poisonMark then .poison
  else match rsCorrect t dev with
    | some f => .fixed f
    | none => .lost

end Sys2Proof.Machine
end

