-- ==== Sys2Proof/Machine/Mem.lean ====
section
/-! DEFINITION. Tile DRAM as a sparse memory: an unlisted byte reads 0, as a line nothing has written since the DRAM gained
power does (11 R571). Bytes are numbered by tile address (01 R30). -/

namespace Sys2Proof.Machine

/-- The contents of tile DRAM: addresses strictly rising, no entry equal to 0. -/
abbrev Memory := List Host.Cell

/-- The canonical form holds. -/
def Memory.wf (m : Memory) : Bool := Tab.wf (0#8) m
/-- The byte at an address. -/
def Memory.byte (m : Memory) (a : Nat) : BitVec 8 := Tab.get (0#8) m a
/-- Replace the byte at an address. -/
def Memory.setByte (m : Memory) (a : Nat) (b : BitVec 8) : Memory := Tab.set (0#8) m a b
/-- The `n` bytes from address `a`, byte 0 least significant (00 R7). -/
def Memory.read (m : Memory) (a : Nat) : Nat → Nat
  | 0 => 0
  | n + 1 => Memory.read m a n + (m.byte (a + n)).toNat * 2 ^ (8 * n)
/-- Write the `n` low bytes of `v` from address `a`. -/
def Memory.write (m : Memory) (a v : Nat) : Nat → Memory
  | 0 => m
  | n + 1 => (Memory.write m a v n).setByte (a + n) (BitVec.ofNat 8 (v / 2 ^ (8 * n)))
/-- Zero every byte from `lo` up to `hi`. -/
def Memory.zero (m : Memory) (lo hi : Nat) : Memory := m.filter fun e => !(decide (lo ≤ e.1) && decide (e.1 < hi))

/-- Entries of a table numbered from `lo` up to `hi` dropped. -/
def Tab.drop {α : Type} (t : Tab α) (lo hi : Nat) : Tab α := t.filter fun e => !(decide (lo ≤ e.1) && decide (e.1 < hi))

/-- The machine with its tile changed. -/
def State.upd (s : State) (f : Chip → Chip) : State := { s with chip := f s.chip }
/-- Do `f` for every element of a list, in order. -/
def State.each {α : Type} (s : State) (l : List α) (f : State → α → State) : State := l.foldl f s

end Sys2Proof.Machine
end

