-- ==== Sys2Proof/Machine/DramMap.lean ====
section
/-! DEFINITION. Placement of tile addresses in the DRAM packages (11 R257 to R260), how a line is stored (12 R285, 13 R304),
and the windows of the protected ranges (13 R302, R307). -/

namespace Sys2Proof.Machine

/-- Extent index of a tile address, 0 to 63 (11, "Address mapping"). -/
def extentOf (a : Nat) : Nat := a / 2 ^ 33 % 64
/-- Extent `x` is a TILE set. -/
def Chip.tileSet (c : Chip) (x : Nat) : Bool := bit (Tab.get 8 c.dram.maps x) 0
/-- Grain G of extent `x` in bytes. -/
def Chip.grain (c : Chip) (x : Nat) : Nat := 2 ^ (Tab.get 8 c.dram.maps x / 2 + 8)
/-- Check unit K of a grain. -/
def checkUnit (g : Nat) : Nat := max g 2048

/-- Where a line lies: quarter, data channel and check channel within the quarter, slot, first of its check bytes (R259). -/
structure Place where
  q       : Nat
  c36     : Nat
  chk     : Nat
  slot    : Nat
  chkByte : Nat
deriving DecidableEq, Repr

/-- Global number of the controller that owns the data. -/
def Place.ctl (p : Place) : Nat := p.q * 9 + p.c36 % 9
/-- Global number of the controller that owns the check bytes. -/
def Place.chkCtl (p : Place) : Nat := p.q * 9 + p.chk % 9
/-- Channel of the data within its controller. -/
def Place.ch (p : Place) : Nat := p.c36 / 9
/-- Channel of the check bytes within their controller. -/
def Place.chkCh (p : Place) : Nat := p.chk / 9
/-- Global channel of the data (Table 11.1). -/
def Place.gch (p : Place) : Nat := p.ctl * 4 + p.ch
/-- Bank b of a slot (Table 11.1). -/
def Place.bank (p : Place) : Nat := p.slot / 32 % 32
/-- Row of a slot. -/
def Place.row (p : Place) : Nat := p.slot / 1024
/-- Number of the bank among a controller's 128. -/
def Place.qnum (p : Place) : Nat := p.ch * 32 + p.bank

/-- R259: placement of set address `sa` of extent `x`, in quarter `q` for a QUARTER set. -/
def placeSet (tile : Bool) (g q x sa : Nat) : Place :=
  let k := checkUnit g
  let p := if tile then 128 else 32
  let t := sa / (p * k)
  let off := sa % (p * k)
  let n := off / g
  let pos := n % p
  let w := ((n / p) * g + off % g) / 64
  let qq := if tile then pos % 4 else q
  let pq := if tile then pos / 4 else pos
  ⟨qq, (4 * (t % 9) + 4 + pq) % 36, (4 * (t % 9) + pq / 8) % 36, x * 2 ^ 22 + t * (k / 64) + w, pq % 8 * 8⟩

/-- Placement of a tile address (R258, R259). -/
def Chip.place (c : Chip) (a : Nat) : Place :=
  let x := extentOf a
  let q := a / 2 ^ 39
  let tile := c.tileSet x
  placeSet tile (c.grain x) q x ((if tile then q * 2 ^ 33 else 0) + a % 2 ^ 33)

/-- The tile address of a slot of a channel, none in a check block (12 R292 inverts R259). -/
def Chip.unplace (c : Chip) (q c36 slot : Nat) : Option Nat :=
  let x := slot / 2 ^ 22
  let tile := c.tileSet x
  let g := c.grain x
  let k := checkUnit g
  let p := if tile then 128 else 32
  let t := slot % 2 ^ 22 / (k / 64)
  let w := slot % 2 ^ 22 % (k / 64)
  let m := (c36 + 36 - 4 * (t % 9) % 36) % 36
  if m < 4 then none
  else
    let pos := if tile then q + 4 * (m - 4) else m - 4
    let n := w * 64 / g * p + pos
    let sa := t * (p * k) + n * g + w * 64 % g
    some (if tile then sa / 2 ^ 33 * 2 ^ 39 + x * 2 ^ 33 + sa % 2 ^ 33 else q * 2 ^ 39 + x * 2 ^ 33 + sa)

/-- Change the DRAM subsystem. -/
def Chip.onDram (c : Chip) (f : Dram → Dram) : Chip := { c with dram := f c.dram }
/-- Controller `k`. -/
def Chip.ctl (c : Chip) (k : Nat) : DCtl := Tab.get {} c.dram.ctls k
/-- Change controller `k`. -/
def Chip.onCtl (c : Chip) (k : Nat) (f : DCtl → DCtl) : Chip :=
  c.onDram fun d => { d with ctls := Tab.set {} d.ctls k (f (c.ctl k)) }
/-- Protected range `n` beside its registers. -/
def Chip.prange (c : Chip) (n : Nat) : PRange := Tab.get {} c.dram.prs n
/-- Change range `n`. -/
def Chip.onPrange (c : Chip) (n : Nat) (f : PRange → PRange) : Chip :=
  c.onDram fun d => { d with prs := Tab.set {} d.prs n (f (c.prange n)) }

/-- Event of controller `k` (R284). -/
def dmcEvent (k : Nat) : Nat := 224 + k / 9 * 136 + 58 + k % 9
/-- Error event of controller `k` (12 R301). -/
def eccEvent (k : Nat) : Nat := 224 + k / 9 * 136 + 67 + k % 9

/-- The layer over a byte address. -/
def Chip.layerAt (c : Chip) (a : Nat) : Option Layer := c.dram.layers.find? fun l => decide (l.lo ≤ a) && decide (a < l.hi)
/-- A new layer; those it covers wholly go, and lines under it are as it says. -/
def Chip.pushLayer (c : Chip) (l : Layer) : Chip := c.onDram fun d =>
  { d with layers := l :: d.layers.filter (fun o => !(decide (l.lo ≤ o.lo) && decide (o.hi ≤ l.hi))),
           solid := Tab.drop d.solid (l.lo / 64) (l.hi / 64) }
/-- Write counter of a line under its layer (13 R304, R306). -/
def Chip.lineCtr (c : Chip) (l : Layer) (ln : Nat) : Nat := Tab.get 0 c.dram.ctr ln + l.bias
/-- The 64 bytes a function gives, byte 0 least significant. -/
def lineOf (f : Nat → Nat) : Nat := (List.range 64).foldr (fun j acc => f j % 256 + 256 * acc) 0
/-- The 16-byte block of 13 R304 for a line, its write counter and a use: KID number, line address bits [40:6], counter and use, each
most significant byte first. -/
def cipherBlock (kid ln ctr use : Nat) : List Nat :=
  [kid % 256] ++ (bytesLE 5 ln).reverse ++ (bytesLE 8 ctr).reverse ++ (bytesLE 2 use).reverse
/-- Keystream byte `j` of a line (13 R304). -/
def keystream (key kid ln ctr j : Nat) : Nat := Config.cipherByte key (cipherBlock kid ln ctr (j / 16)) (j % 16)
/-- What the stored bytes of a line differ by from those the machine's memory holds (13 R304, R306). -/
def Chip.pattern (c : Chip) (ln : Nat) : Nat :=
  if Tab.get false c.dram.solid ln then 0 else
  match c.layerAt (64 * ln) with
  | none => 0
  | some l =>
    if l.kind = 1 then
      if c.lineCtr l ln = 0 then 0 else lineOf (keystream l.key l.kid ln (c.lineCtr l ln))
    else if l.kind = 2 then lineOf fun j => Config.metaByte l.key (64 * ln + j)
    else 0

/-- The line as its protected range sees it. -/
def State.plainLine (s : State) (ln : Nat) : Nat := Memory.read s.mem (64 * ln) 64
/-- The bytes stored in the packages for a line. -/
def State.storedLine (s : State) (ln : Nat) : Nat := s.plainLine ln ^^^ s.chip.pattern ln
/-- Difference of a line's stored check bytes. -/
def Chip.dev (c : Chip) (ln : Nat) : Nat := Tab.get 0 c.dram.dev ln
/-- Set it. -/
def Chip.setDev (c : Chip) (ln v : Nat) : Chip := c.onDram fun d => { d with dev := Tab.set 0 d.dev ln v }
/-- Cells of a line and of its check bytes upset. -/
def State.upset (s : State) (ln flips cflips : Nat) : State :=
  if flips % 2 ^ 512 = 0 ∧ cflips % 2 ^ 64 = 0 then s else
  let f := flips % 2 ^ 512
  { s with mem := Memory.write s.mem (64 * ln) (s.plainLine ln ^^^ f) 64,
           chip := s.chip.setDev ln (s.chip.dev ln ^^^ rsCheck f ^^^ cflips % 2 ^ 64) }
/-- Write a whole line as plain DRAM, with fresh check bytes. -/
def State.putPlain (s : State) (ln v : Nat) : State :=
  let c := s.chip.setDev ln 0
  let c := match c.layerAt (64 * ln) with
    | some l => if l.kind = 0 then c else c.onDram fun d => { d with solid := Tab.set false d.solid ln true }
    | none => c
  { s with mem := Memory.write s.mem (64 * ln) v 64, chip := c }
/-- Write a whole line of a protected range under its next counter, with fresh check bytes (13 R306, R310). -/
def State.putSecret (s : State) (ln v : Nat) : State :=
  let c := (s.chip.setDev ln 0).onDram fun d =>
    { d with ctr := Tab.set 0 d.ctr ln (Tab.get 0 d.ctr ln + 1), solid := Tab.set false d.solid ln false }
  { s with mem := Memory.write s.mem (64 * ln) v 64, chip := c }
/-- Fill a window with zeros and matching check bytes (11 R261, R571). -/
def State.fillZero (s : State) (lo hi : Nat) : State :=
  let c := s.chip.onDram fun d => { d with dev := Tab.drop d.dev (lo / 64) (hi / 64), ctr := Tab.drop d.ctr (lo / 64) (hi / 64) }
  { s with mem := Memory.zero s.mem lo hi, chip := c.pushLayer ⟨lo, hi, 0, 0, 0, 0⟩ }

/-- Base B of range `n` (13 R302). -/
def Chip.prBase (c : Chip) (n : Nat) : Nat := c.act (PR_BASE_LO.base_lo n) * 2 ^ 21 + c.act (PR_BASE_HI.base_hi n) * 2 ^ 32
/-- Size S of range `n`. -/
def Chip.prSize (c : Chip) (n : Nat) : Nat := 2 ^ 21 * 8 ^ c.act (PR_CFG.size n)
/-- Metadata address M of range `n`. -/
def Chip.prMeta (c : Chip) (n : Nat) : Nat := c.act (PR_META_LO.meta_lo n) * 2 ^ 20 + c.act (PR_META_HI.meta_hi n) * 2 ^ 32
/-- State of range `n`: 0 OFF, 1 ZEROISING, 2 READY, 3 REKEYING, 4 ALARM. -/
def Chip.prState (c : Chip) (n : Nat) : Nat := c.fld (PR_STATE.state n)
/-- The range that holds a byte address. -/
def Chip.rangeOf (c : Chip) (a : Nat) : Option Nat :=
  (List.range 16).find? fun n => decide (c.prState n ≠ 0) && inPage a (c.prBase n) (c.prSize n)
/-- The range whose metadata area holds a byte address. -/
def Chip.metaOf (c : Chip) (a : Nat) : Option Nat :=
  (List.range 16).find? fun n => decide (c.prState n ≠ 0) && inPage a (c.prMeta n) (c.prSize n / 2)

/-- Levels of the counter tree of range `n` (R307). -/
def Chip.prLevels (c : Chip) (n : Nat) : Nat := 4 + c.act (PR_CFG.size n)
/-- Offset of level `i` in the metadata area (R307). -/
def nodeOff (lines : Nat) : Nat → Nat
  | 0 => 0
  | i + 1 => nodeOff lines i + 64 * (lines / 8 ^ (i + 1))
/-- Address of node `k` of level `i` (R307). -/
def Chip.nodeAddr (c : Chip) (n i k : Nat) : Nat := c.prMeta n + nodeOff (c.prSize n / 64) i + 64 * k
/-- Address of the tag of data line `l` of range `n` (R307). -/
def Chip.tagAddr (c : Chip) (n l : Nat) : Nat := c.prMeta n + c.prSize n / 4 + 8 * l
/-- Address of the tag of node `k` of level `i` (R307). -/
def Chip.nodeTagAddr (c : Chip) (n i k : Nat) : Nat :=
  c.prMeta n + c.prSize n / 4 + c.prSize n / 8 + 8 * (nodeOff (c.prSize n / 64) i / 64 + k)
/-- The lines the access to a line of a range needs beside it: its tag, and the nodes over it with their tags. -/
def Chip.pathLines (c : Chip) (n l : Nat) : List Nat :=
  c.tagAddr n l :: (List.range (c.prLevels n)).flatMap fun i =>
    [c.nodeAddr n i (l / 8 ^ (i + 1)), c.nodeTagAddr n i (l / 8 ^ (i + 1))]

end Sys2Proof.Machine
end

