-- ==== Sys2Proof/Machine/Guard.lean ====
section
/-! DEFINITION. What stands between a request and a protected line (13 R303 to R313): the Tollgate, the alarm log, poisoned
subtrees, the counter tree, and turning a range off. -/

namespace Sys2Proof.Machine

/-- Class of a requester and, for a DMA channel, its number (13 Table 13.4). -/
def agentClass : Agent → Nat
  | .fabric _ => 0
  | .streamer _ => 1
  | .cluster _ => 2
  | .failLog _ => 3
  | .hub => 4
  | .firmware => 4
  | .config => 4
  | .dma _ => 5
  | .bar2 => 6
  | .debug => 7

/-- DMA channel of a requester, 0 for others. -/
def agentDma : Agent → Nat
  | .dma n => n
  | _ => 0

/-- Table 13.4: the requester may read or write range `n`. -/
def Chip.tollgate (c : Chip) (who : Agent) (write : Bool) (n : Nat) : Bool :=
  let k := agentClass who
  let d := agentDma who
  let mask := c.act (PR_DMA_MASK_LO.mask_lo n) + 2 ^ 32 * c.act (PR_DMA_MASK_HI.mask_hi n)
  c.prState n ≠ 1 &&
    (if k = 1 then !write
     else if k = 5 then decide (c.act (if write then PR_CFG.dma_in n else PR_CFG.dma_out n) = 1) && bit mask d
     else decide (k < 5))

/-- A refusal of the Tollgate (R313): counted, and the first one kept. -/
def Chip.tollRefuse (c : Chip) (who : Agent) (a : Nat) : Chip :=
  let c := c.incSat PR_TG_DENY_CNT.count
  let c := if c.flag PR_TG_LAST_HI.valid then c else
    (((c.put2 PR_TG_LAST_LO.addr_lo PR_TG_LAST_HI.addr_hi a).put PR_TG_LAST_HI.class_ (agentClass who)).put
      PR_TG_LAST_HI.dma_ch (agentDma who)).put PR_TG_LAST_HI.valid 1
  c.put PR_ERR.tollgate 1

/-- An alarm (R311, R320): alarm-log entry, error bit, event 8. -/
def Chip.prAlarm (c : Chip) (n kind addr level stamp : Nat) (bad : Fld) : Chip :=
  let c := if c.dram.prLog.length < 16 then c.onDram fun d => { d with prLog := d.prLog ++ [⟨addr, n, kind, level, stamp⟩] }
    else c.incSat PR_LOG_LOST.count
  (c.put bad 1).raise 8 0 [n, kind, addr, level, stamp]

/-- Range `n` takes state ALARM, READY, OFF and so on. -/
def Chip.prTo (c : Chip) (n st : Nat) : Chip := c.put (PR_STATE.state n) st
/-- Event 9 (R320): range, new state, KID slot. -/
def Chip.prEvent (c : Chip) (n : Nat) : Chip := c.raise 9 0 [n, c.prState n, c.act (PR_CFG.kid_slot n)]

/-- Line `l` of range `n` lies under a poisoned node (R311). -/
def Chip.underPoison (c : Chip) (n l : Nat) : Bool := (c.prange n).poisoned.any fun p => l / 8 ^ (p.1 + 1) = p.2

/-- A node of the path of line `l` fails (Table 13.1): its subtree is poisoned, and a ninth one puts the range in ALARM. -/
def Chip.nodeFail (c : Chip) (n l level kind : Nat) : Chip :=
  let k := l / 8 ^ (level + 1)
  let a := c.nodeAddr n level k
  let t := recStamp c.now
  let old := (c.prange n).poisoned
  if old.length < 8 then
    let c := c.onPrange n fun p => { p with poisoned := old ++ [(level, k)] }
    (c.put (PR_STATE.subtrees n) (old.length + 1)).prAlarm n kind a level t PR_ERR.tree_ue
  else
    let c := c.prAlarm n kind a level t PR_ERR.tree_ue
    let c := if kind = 2 then c else c.prAlarm n 2 a level t PR_ERR.tree_ue
    c.prTo n 4

/-- A root counter of range `n` cannot be read (Table 13.1). -/
def Chip.rootFail (c : Chip) (n l : Nat) : Chip :=
  (c.prAlarm n 3 (c.prBase n + 64 * l) (c.prLevels n) (recStamp c.now) PR_ERR.root_ue).prTo n 4

/-- A counter of the leaf over line `l` has risen: the leaf waits for its write-back (R308). -/
def Chip.leafDirty (c : Chip) (n l : Nat) : Chip := c.onPrange n fun p =>
  if p.dirty.contains (0, l / 8) then p else { p with dirty := p.dirty ++ [(0, l / 8)] }

/-- Write back one level of changed nodes: each raises its counter in its parent, and a root counter for the top level (R308). -/
def PRange.flushLevel (p : PRange) (levels i : Nat) : PRange :=
  let here := p.dirty.filter fun e => e.1 = i
  let up := if i + 1 < levels then ((here.map fun e => e.2 / 8).eraseDups.map fun k => (i + 1, k)).filter fun e => !p.dirty.contains e
    else []
  { p with nodes := here.foldl (fun t e => Tab.set 0 t (i * 2 ^ 40 + e.2) (Tab.get 0 t (i * 2 ^ 40 + e.2) + 1)) p.nodes,
           dirty := p.dirty.filter (fun e => e.1 ≠ i) ++ up }

/-- Write back every changed node of range `n`, lowest level first (R308, Table 13.6). -/
def Chip.flushNodes (c : Chip) (n : Nat) : Chip := c.onPrange n fun p =>
  (List.range (c.prLevels n)).foldl (fun p i => p.flushLevel (c.prLevels n) i) p
/-- Write back every changed node of the tile. -/
def Chip.flushAllNodes (c : Chip) : Chip := c.each (List.range 16) (·.flushNodes ·)

/-- A request accepted for range `n` has not completed. -/
def Chip.prBusy (c : Chip) (n : Nat) : Bool :=
  let inR (r : DReq) : Bool := inPage r.addr (c.prBase n) (c.prSize n)
  c.dram.ctls.any fun e =>
    e.2.queues.any (fun q => q.2.any inR) || e.2.ring.any inR || e.2.verify.any fun t => inR t.req

/-- A range is turned off (R317): nodes dropped, roots at 0, its lines left as stored, its metadata area as the engine left it. -/
def Chip.prOff (c : Chip) (n : Nat) : Chip :=
  let key := match c.layerAt (c.prBase n) with | some l => l.key | none => 0
  let c := c.pushLayer ⟨c.prMeta n, c.prMeta n + c.prSize n / 2, 2, key, 0, 0⟩
  let c := c.onPrange n fun _ => {}
  let c := (c.put (PR_STATE.subtrees n) 0).prTo n 0
  c.prEvent n

/-- Ranges a commit has turned off go OFF, and the commit's values take effect, once their accepted requests have completed
(R317). -/
def Chip.settleClosing (c : Chip) : Chip := c.each (List.range 16) fun c n =>
  match (c.prange n).closing with
  | none => c
  | some snap => if c.prBusy n then c else ((c.prOff n).activate (176 + n) snap).commitDone (176 + n)

end Sys2Proof.Machine
end

