-- ==== Sys2Proof/Machine/Dram.lean ====
section
/-! DEFINITION. DRAM requests (11 R260 to R274, R281, 12 R287 to R292, 13 R303 to R313): arrival, bank queues and their
order, check bytes over the check ring, decode, correction and poison, and the verification of protected lines. -/

namespace Sys2Proof.Machine

/-- Fields of the latest log entry of a controller, as event records carry them (12 R301). -/
def Chip.eccLast (c : Chip) (k : Nat) : List Nat :=
  match (c.ctl k).log.getLast? with
  | some e => [e.addr, e.symbols, e.kind, ofBool e.patrol, e.channel, e.slot, e.stamp]
  | none => []
/-- Set an error bit of a controller's code; its event when it changes from 0 to 1 (12 R301). -/
def Chip.eccErr (c : Chip) (k cause : Nat) (f : Fld) : Chip := c.errEvt f (eccEvent k) cause (c.eccLast k)
/-- Enter a line in a controller's log (12 R292). -/
def Chip.eccEnter (c : Chip) (k a symbols kind : Nat) (patrol : Bool) : Chip :=
  if (c.ctl k).log.length < 16 then
    c.onCtl k fun d => { d with log := d.log ++ [⟨a, symbols, kind, patrol, (c.place a).gch, (c.place a).slot, recStamp c.now⟩] }
  else c.incSat (ECC_LOG_LOST.count k)

/-- Answer a request and those merged into it (11 R266); a POISON answer to the host is reported (12 Table 12.2). -/
def Chip.respond (c : Chip) (k : Nat) (r : DReq) (resp : Resp) (line : Nat) : Chip :=
  let all := (r.who, r.id) :: r.more
  let c := c.each all fun c x => c.emit (.answer x.1 x.2 resp line)
  let c := if r.kind = 3 then c.addSat (DMC_ORW_CNT.count k) all.length else c
  if resp = .poison ∧ all.any (fun x => x.1 = .bar2) then c.eccErr k 6 (ECC_ERR.host_poison k) else c

/-- A request reads the line it names. -/
def DReq.reads (r : DReq) : Bool := r.kind ≠ 1
/-- A request writes the line it names. -/
def DReq.writes (r : DReq) : Bool := r.kind ≠ 0

/-- Extents the power-up fill has not reached hold their requests back (R571). -/
def Chip.extentFilled (c : Chip) (x : Nat) : Bool :=
  !c.flag DMC_MAP_STATUS.init_busy || decide (x < c.fld DMC_MAP_STATUS.init_done)

/-- Controller `k` serves channel `ch`: ACTIVE or in power-down, or a repair of another channel runs (R273, R280). -/
def Chip.ctlServes (c : Chip) (k ch : Nat) : Bool :=
  let st := c.fld (DMC_STATUS.state k)
  st = 2 || st = 3 || (st = 7 && decide (ch ≠ c.fld (DMC_PPR_ADDR.ch k)))

/-- The bank queue a request goes to. -/
def Chip.bankQueue (c : Chip) (k b : Nat) : List DReq := Tab.get [] (c.ctl k).queues b
/-- Replace a bank queue. -/
def Chip.setQueue (c : Chip) (k b : Nat) (l : List DReq) : Chip :=
  c.onCtl k fun d => { d with queues := Tab.set [] d.queues b l }

/-- A waiting OR_WRITE to the same line takes `r` in, where no other request to the line stands behind it (R266). -/
def mergeOr (q : List DReq) (r : DReq) : Option (List DReq) :=
  match indexFrom (fun x : DReq => x.addr = r.addr) q.reverse 0 with
  | none => none
  | some i =>
    let n := q.length - 1 - i
    match q[n]? with
    | some x =>
      if x.kind = 3 ∧ r.kind = 3 then
        some (q.set n { x with data := x.data ||| r.data, urgent := x.urgent || r.urgent,
                               more := x.more ++ (r.who, r.id) :: r.more })
      else none
    | none => none

/-- Put a request in its bank queue; none when the queue is full or the controller holds it at the junction. -/
def Chip.enter (c : Chip) (k : Nat) (r : DReq) : Option Chip :=
  let p := c.place r.addr
  let closing := match c.rangeOf r.addr with
    | some n => (c.prange n).closing.isSome
    | none => false
  if !c.ctlServes k p.ch || !c.extentFilled (extentOf r.addr) || closing then none
  else
    let q := c.bankQueue k p.qnum
    match mergeOr q r with
    | some q => some (c.setQueue k p.qnum q)
    | none =>
      if 16 ≤ q.length then none
      else
        let c := c.setQueue k p.qnum (q ++ [r])
        let c := c.put (DMC_QDEPTH_MAX.depth k) (max (c.fld (DMC_QDEPTH_MAX.depth k)) (q.length + 1))
        let c := c.doIf (c.fld (DMC_STATUS.state k) = 3) (·.put (DMC_STATUS.state k) 2)
        some c

/-- R274: a request meets a low-power entry of its controller. -/
def Chip.meetEntry (c : Chip) (k : Nat) : Chip :=
  match (c.ctl k).entry with
  | none => c
  | some (st, false) =>
    (c.onCtl k fun d => { d with entry := none, refuse := decide (st ≠ 3) }).incSat (DMC_LP_CANCEL_CNT.count k)
  | some (_, true) =>
    ((c.onCtl k fun d => { d with entry := none }).incSat (DMC_LP_ABORT_CNT.count k)).put (DMC_STATUS.state k) 2

/-- Try every request waiting at the junction of controller `k`, oldest first; one to a line never passes an older one. -/
def Chip.admitReq (c : Chip) (k : Nat) : Chip :=
  let wait := (c.ctl k).gate
  let c := c.onCtl k fun d => { d with gate := [] }
  let keep (r : DReq) (c : Chip) : Chip := c.onCtl k fun d => { d with gate := d.gate ++ [r] }
  c.each wait fun c r =>
    if (c.ctl k).gate.any fun x => x.addr = r.addr then keep r c
    else match c.enter k r with
      | some c => c
      | none => keep r c
/-- The same for every controller. -/
def Chip.admitAll (c : Chip) : Chip := c.each (List.range 36) (·.admitReq ·)

/-- After a request completes: ranges being turned off go OFF, and what waited for that enters. -/
def Chip.settle (c : Chip) : Chip :=
  if c.dram.prs.any fun e => e.2.closing.isSome then c.settleClosing.admitAll else c

/-- A request waits at the junction and enters as soon as it can (R267). -/
def Chip.queueUp (c : Chip) (k : Nat) (r : DReq) : Chip :=
  ((c.meetEntry k).onCtl k fun d => { d with gate := d.gate ++ [r] }).admitReq k

/-- A request to a protected range that passed the Tollgate (13 R311): an ALARM answers for it, an offline quarter on its path
times out. -/
def Chip.arriveIn (c : Chip) (k n : Nat) (r : DReq) : Chip :=
  let l := (r.addr - c.prBase n) / 64
  if c.prState n = 4 then c.respond k r (if r.writes then .denied else .poison) 0
  else if (c.pathLines n l).any fun a => c.offline (c.place a).q then c.respond k r .timeout 0
  else c.queueUp k r

/-- A request arrives at the controller that owns its line (R260 to R262, R281, 13 R303, R313); a full march denies
every request (21 R474). -/
def Chip.arrive (c : Chip) (r : DReq) : Chip :=
  let p := c.place r.addr
  let k := p.ctl
  if 2 ^ 41 ≤ r.addr then c.emit (.answer r.who r.id .decode 0) else
  let c := c.stir p.q
  if c.fld BIST_STATUS.state = 3 then c.respond k r .denied 0
  else if r.kind = 3 ∧ r.data = 0 then c.respond k r .ok 0
  else if c.offline p.q then c.respond k r .timeout 0
  else if c.dram.applying.contains (extentOf r.addr) then (c.addSat DMC_MAP_STATUS.deny 1).respond k r .denied 0
  else if (c.metaOf r.addr).isSome then c.respond k r .denied 0
  else match c.rangeOf r.addr with
    | some n =>
      if c.tollgate r.who r.writes n then c.arriveIn k n r
      else (c.tollRefuse r.who r.addr).respond k r .denied 0
    | none => c.queueUp k r

/-- DRAM_READ (R265): a whole line. -/
def execDramRead (who : Agent) (id addr len : Nat) (urgent : Bool) (s : State) : Res := s.on fun c =>
  if len = 64 ∧ addr % 64 = 0 then c.arrive ⟨who, id, 0, addr, 0, 0, false, urgent, []⟩
  else c.emit (.answer who id .decode 0)

/-- DRAM_WRITE (R265): a whole line. -/
def execDramWrite (who : Agent) (id addr len : Nat) (data : Line) (bad urgent : Bool) (s : State) : Res := s.on fun c =>
  if len = 64 ∧ addr % 64 = 0 then c.arrive ⟨who, id, 1, addr, data.toNat, 0, bad, urgent, []⟩
  else c.emit (.answer who id .decode 0)

/-- DRAM_PARTIAL (R265, R266): 1 to 63 bytes of one line, with an enable for each; `bad` when a byte it merges came flagged. -/
def execDramPartial (who : Agent) (id addr len : Nat) (data : Line) (be : BitVec 64) (bad urgent : Bool) (s : State) : Res :=
  s.on fun c =>
    let o := addr % 64
    if 1 ≤ len ∧ len ≤ 63 ∧ o + len ≤ 64 then
      c.arrive ⟨who, id, 2, addr - o, data.toNat % 2 ^ (8 * len) * 2 ^ (8 * o), be.toNat % 2 ^ len * 2 ^ o, bad, urgent, []⟩
    else c.emit (.answer who id .decode 0)

/-- DRAM_OR_WRITE (R265, R266): one aligned 64-bit word. -/
def execDramOrWrite (who : Agent) (id addr len : Nat) (mask : BitVec 64) (urgent : Bool) (s : State) : Res := s.on fun c =>
  if len = 8 ∧ addr % 8 = 0 then
    c.arrive ⟨who, id, 3, addr - addr % 64, mask.toNat * 2 ^ (8 * (addr % 64)), 0, false, urgent, []⟩
  else c.emit (.answer who id .decode 0)

/-- What the write of a request makes of a line (R266): whole, the enabled bytes, or the OR. -/
def DReq.merge (r : DReq) (line : Nat) : Nat :=
  if r.kind = 1 then r.data
  else if r.kind = 3 then line ||| r.data
  else lineOf fun j => if bit r.be j then bits r.data (8 * j) 8 else bits line (8 * j) 8

/-- A request may be served: no request to its line is held, read-modify-writes and writes hold theirs against all, reads
against writes (R266, R268, 13 R310). -/
def DCtl.free (d : DCtl) (r : DReq) : Bool :=
  !d.ring.any (fun x => x.addr = r.addr) &&
    !d.verify.any fun t => t.req.addr = r.addr && (r.writes || t.fwd.isNone)

/-- Requests of a bank queue that may be served next, with their places: the first to its line, its line free, and in a row
with a read behind an older write the first of the row (R268). -/
def Chip.eligible (c : Chip) (k : Nat) (q : List DReq) : List (Nat × DReq) :=
  let row (r : DReq) := (c.place r.addr).row
  let inOrder (w : Nat) : Bool := (List.range q.length).any fun j => match q[j]? with
    | some y => y.kind = 0 && row y = w && (q.take j).any fun x => x.writes && row x = w
    | none => false
  (q.zipIdx.map fun (r, i) => (i, r)).filter fun (i, r) =>
    !(q.take i).any (fun x => x.addr = r.addr) && (c.ctl k).free r &&
      !(inOrder (row r) && (q.take i).any fun x => row x = row r)

/-- R267: the request a bank serves next, its place, and whether it needs an activate. -/
def Chip.bankPick (c : Chip) (k b : Nat) : Option (Nat × DReq × Bool) :=
  let q := c.bankQueue k b
  let el := c.eligible k q
  let row (r : DReq) := (c.place r.addr).row
  let act (x : Nat × DReq) : Nat × DReq × Bool := (x.1, x.2, true)
  match Tab.get none (c.ctl k).rows b with
  | none => el.head?.map act
  | some w =>
    match el.find? (fun x => row x.2 = w), el.find? (fun x => row x.2 ≠ w) with
    | some h, some o =>
      if o.1 < h.1 ∧ 8 ≤ Tab.get 0 (c.ctl k).ahead b then some (act o) else some (h.1, h.2, false)
    | some h, none => some (h.1, h.2, false)
    | none, some o => some (act o)
    | none, none => none

/-- R267, R269: the bank of channel `ch` the next activate goes to: by rotating pick from the bank after the last one, an
urgent request first. -/
def Chip.activateBank (c : Chip) (k ch : Nat) : Option Nat :=
  let from_ := Tab.get 31 (c.ctl k).last ch + 1
  let order := (List.range 32).map fun i => ch * 32 + (from_ + i) % 32
  let needs (b : Nat) : Option DReq := match c.bankPick k b with | some (_, r, true) => some r | _ => none
  let cand := order.filter fun b => (needs b).isSome
  (cand.find? fun b => match needs b with | some r => r.urgent | none => false).orElse fun _ => cand.head?

/-- Take the picked request out of its bank queue: the row opens where it needs an activate, the count of R267 follows. -/
def Chip.takePick (c : Chip) (k b i : Nat) (r : DReq) (act : Bool) : Chip :=
  let q := c.bankQueue k b
  let older := (q.take i).any fun x => (c.place x.addr).row ≠ (c.place r.addr).row
  let c := c.setQueue k b (q.eraseIdx i)
  let c := if act then
      (c.onCtl k fun d => { d with rows := Tab.set none d.rows b (some (c.place r.addr).row), ahead := Tab.set 0 d.ahead b 0,
                                   last := Tab.set 31 d.last (b / 32) (b % 32) }).incSat (DMC_ACT_CNT.count k)
    else if older then c.onCtl k fun d => { d with ahead := Tab.set 0 d.ahead b (Tab.get 0 d.ahead b + 1) } else c
  c.admitReq k

/-- A channel of controller `k` is FAILED (R281). -/
def Chip.chFailed (c : Chip) (k ch : Nat) : Bool := bit (c.fld (DMC_STATUS.ch_failed k)) ch

/-- A served request asks for its check bytes, or meets a FAILED channel (Table 11.8, Table 12.1). -/
def State.toRing (s : State) (k : Nat) (r : DReq) : State :=
  let p := s.chip.place r.addr
  s.upd fun c =>
    if c.chFailed k p.ch || c.chFailed p.chkCtl p.chkCh then
      if r.writes then c.respond k r .denied 0
      else (c.incSat (ECC_UE_CNT.count k)).respond k r .poison (s.storedLine (r.addr / 64))
    else c.onCtl k fun d => { d with ring := d.ring ++ [r] }

/-- Serve one bank (R267). `flips` and `cflips` are the cells of the line and of its check bytes that prove upset. -/
def State.serveBank (s : State) (k ch bank flips cflips : Nat) : State :=
  let c := s.chip
  let b0 := ch * 32 + bank
  let b := match c.bankPick k b0 with
    | some (_, _, true) => (c.activateBank k ch).getD b0
    | _ => b0
  match c.bankPick k b with
  | none => s
  | some (i, r, act) =>
    let s := if r.reads then s.upset (r.addr / 64) flips cflips else s
    (((s.upd (·.takePick k b i r act)).toRing k r)).upd (·.settle)

/-- BANK_SERVICE (R267): nothing while training or a repair holds the channel or the devices sleep (R275, R280); the queues
drain as a set-point switch begins (Table 11.7 row 1). -/
def execBankService (k : Fin 36) (ch : Fin 4) (bank : Fin 32) (flips : Line) (cflips : BitVec 64) (s : State) : Res :=
  if s.chip.ctlServes k ch || decide (s.chip.fld (DMC_STATUS.state k) = 6) then
    .next (s.serveBank k ch bank flips.toNat cflips.toNat)
  else .next s

/-- One more correction counted (Table 12.1): count, histogram, first address, rate. -/
def Chip.countFix (c : Chip) (k a symbols : Nat) : Chip :=
  let c := c.incSat (ECC_CE_CNT.count k)
  let h := c.fld (ECC_CE_HIST.hist k)
  let o := 8 * (symbols - 1)
  let c := if bits h o 8 < 255 then c.put (ECC_CE_HIST.hist k) (h + 2 ^ o) else c
  let c := if c.flag (ECC_FIRST_CE_HI.valid k) then c else
    (((c.put2 (ECC_FIRST_CE_LO.addr_lo k) (ECC_FIRST_CE_HI.addr_hi k) a).put (ECC_FIRST_CE_HI.symbols k) symbols).put
      (ECC_FIRST_CE_HI.channel k) (c.place a).gch).put (ECC_FIRST_CE_HI.valid k) 1
  let th := c.fld (ECC_CE_THRESH.thresh k)
  if th ≠ 0 ∧ th ≤ c.fld (ECC_CE_CNT.count k) then
    c.errEvt (ECC_ERR.ce_rate k) (eccEvent k) 4 [c.fld (ECC_CE_CNT.count k)]
  else c

/-- What a read of a line gives (Table 12.1): OK and the line as its range sees it, or POISON. -/
def State.decodeLine (s : State) (k ln : Nat) : Decoded := rsDecode (s.chip.fld (ECC_CTRL.max_correct k)) (s.chip.dev ln)
/-- The corrected bytes of a line in the memory's form. -/
def State.fixedLine (s : State) (k ln : Nat) : Nat :=
  match s.decodeLine k ln with
  | .fixed f => s.plainLine ln ^^^ f.data
  | _ => s.plainLine ln

/-- The status a decode leaves, and what it does to the line (Table 12.1, R289, R290). -/
def Chip.afterDecode (c : Chip) (k a : Nat) (d : Decoded) (patrol : Bool) : Chip :=
  match d with
  | .clean => c
  | .fixed f =>
    let c := c.countFix k a f.symbols
    if c.flag (ECC_CTRL.wb_en k) && decide (c.fld (ECC_CTRL.wb_thresh k) ≤ f.symbols) && !(c.ctl k).fixes.contains (a / 64) then
      c.onCtl k fun d => { d with fixes := d.fixes ++ [a / 64] }
    else c
  | .poison => c.incSat (ECC_POISON_RD_CNT.count k)
  | .lost =>
    let c := (c.incSat (ECC_UE_CNT.count k)).setDev (a / 64) poisonMark
    (c.eccEnter k a 0 0 patrol).eccErr k 1 (ECC_ERR.ue k)

/-- The line's data is usable. -/
def Decoded.good : Decoded → Bool
  | .clean => true
  | .fixed _ => true
  | .poison => false
  | .lost => false

/-- Store what a request writes, in a range under its next counter (R266, R290, R291, 13 R310), and answer it OK. -/
def State.storeReq (s : State) (k : Nat) (r : DReq) (range : Option Nat) : State :=
  let ln := r.addr / 64
  let v := if r.kind = 1 then r.data
    else match range with
      | some _ => r.merge (s.fixedLine k ln)
      | none => r.merge (s.fixedLine k ln ^^^ s.chip.pattern ln)
  let s := match range with
    | some n => (s.putSecret ln v).upd (·.leafDirty n ((r.addr - s.chip.prBase n) / 64))
    | none => s.putPlain ln v
  s.upd fun c =>
    let c := if r.bad then ((c.setDev ln poisonMark).eccEnter k r.addr 0 1 false).eccErr k 2 (ECC_ERR.poison_write k) else c
    let c := c.onCtl k fun d => { d with fixes := d.fixes.filter fun x => x ≠ ln }
    (c.incSat (DMC_WR_CNT.count k)).respond k r .ok 0

/-- A protected range's part of a request whose check bytes have come (13 R306, R309 to R311). -/
def State.guardReq (s : State) (k n : Nat) (r : DReq) (d : Decoded) : State :=
  let ln := r.addr / 64
  let l := (r.addr - s.chip.prBase n) / 64
  let ctr := match s.chip.layerAt r.addr with | some y => s.chip.lineCtr y ln | none => 0
  if s.chip.underPoison n l || s.chip.prState n = 4 then
    s.upd fun c => c.respond k r (if r.writes then .denied else .poison) (if r.writes then 0 else s.storedLine ln)
  else
    let s := if r.reads then s.upd fun c => c.afterDecode k r.addr d false else s
    if r.reads && !d.good then s.upd fun c => c.respond k r .poison (if r.writes then 0 else s.storedLine ln)
    else if r.writes && decide (2 ^ 64 - 1 ≤ ctr) then
      s.upd fun c => (c.prAlarm n 5 r.addr 0 (recStamp c.now) PR_ERR.exhausted).respond k r .denied 0
    else
      let fast := r.kind = 0 ∧ s.chip.act (PR_CFG.spec n) = 1 ∧ agentClass r.who < 3
      s.upd fun c =>
        let c := if fast then c.respond k r .ok (s.fixedLine k ln) else c
        c.onCtl k fun x => { x with verify := x.verify ++ [⟨r, if fast then some (recStamp c.now) else none⟩] }

/-- A request has its check bytes (R264, R266, 12 R288): decoded, served and answered, or on to its verification. -/
def State.complete (s : State) (k : Nat) (r : DReq) : State :=
  let ln := r.addr / 64
  let d := if r.reads then s.decodeLine k ln else .clean
  let s := if r.reads then s.upd (·.incSat (DMC_RD_CNT.count k)) else s
  match s.chip.rangeOf r.addr with
  | some n => s.guardReq k n r d
  | none =>
    let raw := s.storedLine ln
    let val := s.fixedLine k ln ^^^ s.chip.pattern ln
    let s' := if r.reads then s.upd fun c => c.afterDecode k r.addr d false else s
    if r.kind = 0 then s'.upd fun c => if d.good then c.respond k r .ok val else c.respond k r .poison raw
    else if r.reads && !d.good then s'.upd fun c => c.respond k r .poison 0
    else s'.storeReq k r none

/-- The check-line cache of controller `k` answers for a line (R263): hit or miss counted, a missing line taken in, a full
cache giving up a line of its own choice. -/
def Chip.checkCache (c : Chip) (k key : Nat) (dirty : Bool) : Chip :=
  match (c.ctl k).cache.find? fun e => e.1 = key with
  | some e =>
    let c := c.incSat (DMC_CHK_HIT_CNT.count k)
    c.onCtl k fun d => { d with cache := (key, e.2 || dirty) :: d.cache.filter fun x => x.1 ≠ key }
  | none =>
    let c := c.incSat (DMC_CHK_MISS_CNT.count k)
    let full := decide (8192 ≤ (c.ctl k).cache.length)
    let v := Config.checkVictim c.free % 8192
    let c := if full then { c with free := c.free + 1 } else c
    c.onCtl k fun d => { d with cache := (key, dirty) :: (if full then d.cache.eraseIdx v else d.cache) }

/-- Every dirty check line of a controller is written back (R263, R278, R282). -/
def Chip.flushChecks (c : Chip) (k : Nat) : Chip := c.onCtl k fun d => { d with cache := d.cache.map fun e => (e.1, false) }

/-- The oldest request of controller `k` that waits for check bytes gets them from their owner (R263). -/
def State.checkNext (s : State) (k : Nat) : State :=
  match (s.chip.ctl k).ring with
  | [] => s
  | r :: rest =>
    let p := s.chip.place r.addr
    let s := s.upd fun c => (c.onCtl k fun d => { d with ring := rest }).checkCache p.chkCtl (p.chkCh * 2 ^ 28 + p.slot) r.writes
    (s.complete k r).upd (·.settle)
/-- CHECK_REQUEST (R263). -/
def execCheckRequest (k : Fin 36) (s : State) : Res := .next (s.checkNext k)

/-- CHECK_RING_TIMEOUT (R281): 10 microseconds without the check bytes. -/
def execCheckRingTimeout (k : Fin 36) (s : State) : Res := s.on fun c =>
  match (c.ctl k).ring with
  | [] => c
  | r :: rest =>
    let p := c.place r.addr
    let c := c.onCtl k fun d => { d with ring := rest }
    let c := c.errEvt (DMC_ERR.ring_timeout k) (dmcEvent k) 3 [p.chkCtl, recStamp c.now]
    (c.respond k r .timeout 0).settle

/-- A taint notice to everyone a line was forwarded to (13 R312). -/
def Chip.taintAll (c : Chip) (k n : Nat) (t : DTag) (f : Nat) : Chip :=
  (c.addSat (PR_TAINT_CNT.count n) 1).emit (.taint t.req.who t.req.id t.req.addr f) |>.onCtl k fun d =>
    { d with verify := d.verify.filter fun x => x ≠ t }

/-- A tag differs (Table 13.1): the line is poisoned, the alarm raised, a waiting request answered POISON, and everyone the
line was forwarded to is told. -/
def State.tagFail (s : State) (k n : Nat) (t : DTag) : State :=
  let a := t.req.addr
  let st := t.fwd.getD (recStamp s.chip.now)
  s.upd fun c =>
    let c := (c.setDev (a / 64) poisonMark).prAlarm n 0 a 0 st PR_ERR.tag_fail
    let c := c.incSat (PR_TAG_FAIL_CNT.count n)
    let told := (t :: (c.ctl k).verify).filter fun x => x.req.addr = a
    let c := c.each told fun c x => match x.fwd with | some f => c.taintAll k n x f | none => c
    if t.fwd.isSome then c else c.respond k t.req .poison (if t.req.writes then 0 else s.storedLine (a / 64))

/-- Verification of a protected request ends (13 R306, R309 to R311). A line whose counter is 0 is not tag-checked: its stored
bytes must be 0. The tag of a line that a WRITE replaces is not checked. -/
def State.verified (s : State) (k n : Nat) (t : DTag) (res : TagRes) : State :=
  let a := t.req.addr
  let ln := a / 64
  let l := (a - s.chip.prBase n) / 64
  let ctr := match s.chip.layerAt a with | some y => s.chip.lineCtr y ln | none => 0
  let res : TagRes := match res with
    | .nodeUe i => .nodeUe i
    | .nodeTag i => .nodeTag i
    | .rootUe => .rootUe
    | r => if t.req.kind = 1 then .ok else if ctr = 0 then (if s.fixedLine k ln = 0 then .ok else .tag) else r
  let deny (c : Chip) : Chip :=
    if t.fwd.isSome then c else c.respond k t.req (if t.req.writes then .denied else .poison) (if t.req.writes then 0 else s.storedLine ln)
  match res with
  | .ok =>
    if t.req.writes then s.storeReq k t.req (some n)
    else if t.fwd.isSome then s
    else s.upd fun c => c.respond k t.req .ok (s.fixedLine k ln)
  | .tag => s.tagFail k n t
  | .nodeUe i => s.upd fun c => deny (c.nodeFail n l i 2)
  | .nodeTag i => s.upd fun c => deny (c.nodeFail n l i 1)
  | .rootUe => s.upd fun c => deny (c.rootFail n l)

/-- The `i`-th verification of controller `k` ends (13 R311). -/
def State.tagNext (s : State) (k i : Nat) (res : TagRes) : State :=
  match (s.chip.ctl k).verify[i]? with
  | none => s
  | some t =>
    let s := s.upd fun c => c.onCtl k fun d => { d with verify := d.verify.eraseIdx i }
    match s.chip.rangeOf t.req.addr with
    | none => s
    | some n => (s.verified k n t res).upd fun c => c.settle
/-- TAG_CHECK_DONE (13 R311). -/
def execTagCheckDone (k : Fin 36) (i : Nat) (res : TagRes) (s : State) : Res := .next (s.tagNext k i res)

/-- Controller `k` finishes one request it has queued, none of whose cells proves upset: the oldest check, the oldest verification,
else one bank. -/
def State.drainOne (s : State) (k : Nat) : State :=
  if !(s.chip.ctl k).ring.isEmpty then s.checkNext k
  else if !(s.chip.ctl k).verify.isEmpty then s.tagNext k 0 .ok
  else match (List.range 128).find? fun b => (s.chip.bankPick k b).isSome with
    | some b => s.serveBank k (b / 32) (b % 32) 0 0
    | none => s
/-- So many times. -/
def State.drainMany (s : State) (k : Nat) : Nat → State
  | 0 => s
  | n + 1 => State.drainMany (s.drainOne k) k n
/-- Controller `k` finishes the requests already queued (05 R138). -/
def State.drainCtl (s : State) (k : Nat) : State :=
  let d := s.chip.ctl k
  s.drainMany k (3 * d.queues.foldl (fun n e => n + e.2.length) 0 + 2 * d.ring.length + d.verify.length)

/-- TAINT_NOTICE (13 R312): it reaches a streamer, a cluster, or a fabric DRAM port's taint output. -/
def execTaintNotice (who : Agent) (req line f : Nat) (s : State) : Res := s.on fun c =>
  match who with
  | .streamer n => c.strTaint n line
  | .cluster j => c.clTaint j line
  | .fabric r => c.emit (.fabric r 5 [req, line, f])
  | .failLog _ => c
  | .dma _ => c
  | .bar2 => c
  | .firmware => c
  | .config => c
  | .hub => c
  | .debug => c

end Sys2Proof.Machine
end

