-- ==== Sys2Proof/Machine/DramCtl.lean ====
section
/-! DEFINITION. What the DRAM controllers do beside serving requests (11 R261, R271 to R281, R571, 12 R289, R295 to R298):
refresh, power-down, training, set points, repair, the extent map, write-backs and the patrol. -/

namespace Sys2Proof.Machine

/-- REFRESH_TICK (R271): the next pair of banks of a rank is refreshed, or the refresh is postponed while either has requests,
at most seven times in a row. -/
def Chip.refreshTick (c : Chip) (k ch rank : Nat) : Chip :=
  let st := c.fld (DMC_STATUS.state k)
  if st ≠ 2 ∧ st ≠ 3 then c else
  let d := c.ctl k
  let id := ch * 2 + rank
  let b := ch * 32 + rank * 16 + Tab.get 0 d.pair id
  let busy := !(c.bankQueue k b).isEmpty || !(c.bankQueue k (b + 8)).isEmpty
  let owed := Tab.get 0 d.owed id
  let c := if busy then c.put (DMC_REF_POSTPONE_MAX.depth k) (max (c.fld (DMC_REF_POSTPONE_MAX.depth k)) (owed + 1)) else c
  if busy && decide (owed + 1 < 8) then c.onCtl k fun d => { d with owed := Tab.set 0 d.owed id (owed + 1) }
  else c.onCtl k fun d =>
    { d with rows := Tab.set none (Tab.set none d.rows b none) (b + 8) none, owed := Tab.set 0 d.owed id 0,
             pair := Tab.set 0 d.pair id ((Tab.get 0 d.pair id + 1) % 8) }

/-- REFRESH_TICK (R271). -/
def execRefreshTick (k : Fin 36) (ch : Fin 4) (rank : Fin 2) (s : State) : Res := s.on (·.refreshTick k ch rank)

/-- REFRESH_RATE_POLL (R271, R272): the devices report their refresh scale, two bits a channel. -/
def execRefreshRatePoll (k : Fin 36) (rates : BitVec 8) (s : State) : Res := s.on fun c =>
  let old := c.fld (DMC_REF_RATE.rate k)
  let c := c.put (DMC_REF_RATE.rate k) rates.toNat
  c.each (List.range 4) fun c i =>
    let o := bits old (2 * i) 2
    let n := bits rates.toNat (2 * i) 2
    if n = 2 ∧ o ≠ 2 then c.errEvt (DMC_ERR.hot k) (dmcEvent k) 4 [i, n]
    else if o = 2 ∧ n < 2 then c.raise (dmcEvent k) 5 [i, n] else c

/-- Nothing waits in controller `k`. -/
def Chip.ctlIdle (c : Chip) (k : Nat) : Bool :=
  let d := c.ctl k
  d.queues.isEmpty && d.gate.isEmpty && d.ring.isEmpty && d.verify.isEmpty

/-- POWERDOWN_IDLE (R273, R274): entry to power-down begins (0), its entry command is issued (1), and it is complete (2). -/
def execPowerdownIdle (k : Fin 36) (phase : Fin 3) (s : State) : Res := s.on fun c =>
  match (c.ctl k).entry, phase.val with
  | none, 0 =>
    if c.fld (DMC_STATUS.state k) = 2 ∧ c.fld (DMC_CTRL.pd_idle k) ≠ 0 ∧ c.ctlIdle k ∧ c.quarterRun (k / 9) then
      c.onCtl k fun d => { d with entry := some (3, false) }
    else c
  | some (3, false), 1 => c.onCtl k fun d => { d with entry := some (3, true) }
  | some (3, true), 2 => (c.onCtl k fun d => { d with entry := none }).put (DMC_STATUS.state k) 3
  | _, _ => c

/-- A commit of controller `k`'s group is complete: its values take effect (R278, 03 R85). -/
def Chip.setPointDone (c : Chip) (k : Nat) : Chip :=
  match c.pendingSnap (140 + k) with
  | some snap => (c.activate (140 + k) snap).commitDone (140 + k)
  | none => c

/-- The set-point switch of Table 11.7 begins: requests held, check lines written back. -/
def Chip.switchStart (c : Chip) (k : Nat) : Chip := (c.flushChecks k).put (DMC_STATUS.state k) 6

/-- Controller `k` becomes ACTIVE: a change of set point that waited runs now, else waiting requests enter. -/
def Chip.ctlActive (c : Chip) (k : Nat) : Chip :=
  if (c.ctl k).want.isSome then c.switchStart k else (c.put (DMC_STATUS.state k) 2).admitReq k

/-- Training of set points starts on all four channels (Table 11.6). -/
def Chip.trainStart (c : Chip) (k : Nat) (todo : List Nat) : Chip :=
  let c := c.onCtl k fun d => { d with train := some ⟨todo, 2, 0, c.now⟩, rows := [] }
  (c.put (DMC_STATUS.state k) 1).put (DMC_STATUS.ch_training k) 15

/-- Training leaves the channels: a waiting set-point change switches, else the controller is ACTIVE. -/
def Chip.trainEnd (c : Chip) (k : Nat) : Chip :=
  ((c.onCtl k fun d => { d with train := none }).put (DMC_STATUS.ch_training k) 0)

/-- One set point is trained on the channels that passed (Table 11.6 row 6). -/
def Chip.trained (c : Chip) (k : Nat) (t : Training) : Chip :=
  let sp := t.todo.headD 0
  let chs := c.fld (DMC_STATUS.ch_training k)
  let c := if chs = 0 then c else
    let c := c.put (DMC_TRAIN_STORED.sp k) (withBit (c.fld (DMC_TRAIN_STORED.sp k)) sp true)
    let c := c.put (DMC_STATUS.ch_failed k) (c.fld (DMC_STATUS.ch_failed k) - (c.fld (DMC_STATUS.ch_failed k) &&& chs))
    let c := c.onCtl k fun d => { d with temps := Tab.set 0 d.temps sp (c.fldS (DMC_TEMP.temp k)) }
    c.raise (dmcEvent k) 1 [sp, chs, c.now - t.start]
  match t.todo.drop 1 with
  | [] => ((c.trainEnd k).setPointDone k).ctlActive k
  | more => c.trainStart k more

/-- A training step ends: every channel under training passes, or the step is tried again, and its third failure fails the
channels (R275, Table 11.8). -/
def Chip.trainStep (c : Chip) (k : Nat) (t : Training) (pass : Nat) : Chip :=
  let chs := c.fld (DMC_STATUS.ch_training k)
  let bad := chs - (chs &&& pass)
  let advance (c : Chip) : Chip :=
    if t.step < 5 ∧ c.fld (DMC_STATUS.ch_training k) ≠ 0 then
      c.onCtl k fun d => { d with train := some { t with step := t.step + 1, fails := 0 } }
    else c.trained k t
  if bad = 0 then advance c
  else if t.fails + 1 < 3 then c.onCtl k fun d => { d with train := some { t with fails := t.fails + 1 } }
  else
    let c := c.put (DMC_STATUS.ch_failed k) (c.fld (DMC_STATUS.ch_failed k) ||| bad)
    let c := c.put (DMC_STATUS.ch_training k) (chs - bad)
    let c := c.each (numbersBelow 4 (bit bad)) fun c i =>
      c.errEvt (DMC_ERR.train_fail k) (dmcEvent k) 2 [t.todo.headD 0, i, t.step]
    advance c

/-- TRAINING_CHECKPOINT (R275, R279): a checkpoint of the step in progress; `ends` at the step's own end, with the channels
that passed. A set-point change that waits stops the training here and switches; the power-fail mark stops it here unless this
is its end (R282). -/
def execTrainingCheckpoint (k : Fin 36) (ends : Bool) (pass : BitVec 4) (s : State) : Res := s.on fun c =>
  match (c.ctl k).train with
  | none => c
  | some t =>
    if (c.ctl k).want.isSome then (c.trainEnd k).switchStart k
    else if c.pwr.mark.isSome && !(ends && t.step = 5 && t.todo.length ≤ 1) then (c.trainEnd k).ctlActive k
    else if ends then c.trainStep k t pass.toNat else c

/-- A controller that serves requests starts a training of its active set point (R276), none after the power-fail mark (R282). -/
def Chip.retrain (c : Chip) (k : Nat) : Chip :=
  if c.pwr.mark.isSome then c
  else if c.fld (DMC_STATUS.state k) = 2 ∨ c.fld (DMC_STATUS.state k) = 3 then c.trainStart k [c.fld (DMC_STATUS.sp_active k)] else c

/-- RETRAIN (R276): a write of DMC_CMD.retrain. -/
def execRetrain (k : Fin 36) (s : State) : Res := s.on (·.retrain k)

/-- AUTO_RETRAIN (R276): the die temperature is read; a drift beyond DMC_RETRAIN_DT retrains when no leg runs and the next
launch is at least 12 ms ahead. -/
def execAutoRetrain (k : Fin 36) (temp : BitVec 16) (s : State) : Res := s.on fun c =>
  let c := c.put (DMC_TEMP.temp k) temp.toNat
  let dt := c.fld (DMC_RETRAIN_DT.dt k)
  let was := Tab.get 0 (c.ctl k).temps (c.fld (DMC_STATUS.sp_active k))
  let far : Bool := match c.earliest with
    | some e => decide (c.now + 12 * msMT ≤ e.t)
    | none => true
  if dt ≠ 0 ∧ (dt : Int) < (signedOf 16 temp.toNat - was).natAbs ∧ !c.anyRunning ∧ far then c.retrain k else c

/-- A write of DMC_SPn_CFG (R277). -/
def Chip.spCfgWrite (c : Chip) (k n v : Nat) : Chip :=
  if n = c.fld (DMC_STATUS.sp_active k) ∨ 6 ≤ v % 8 then c.put (DMC_ERR.bad_value k) 1
  else (c.put (DMC_SP_CFG.rate k n) v).put (DMC_TRAIN_STORED.sp k) (withBit (c.fld (DMC_TRAIN_STORED.sp k)) n false)

/-- SP_CFG_WRITE (R277). -/
def execSpCfgWrite (k : Fin 36) (n : Fin 3) (v : Word) (s : State) : Res := s.on (·.spCfgWrite k n v.toNat)

/-- A committed set point (R278, R279): an unchanged one is in effect at once; a controller in training switches at its next
checkpoint, one that serves switches now, one in a low-power state or a repair when it leaves it. -/
def Chip.setPointCommit (c : Chip) (k sp : Nat) : Chip :=
  let st := c.fld (DMC_STATUS.state k)
  if c.pwr.mark.isSome then c
  else if st = 0 then (c.put (DMC_STATUS.sp_active k) sp).setPointDone k
  else if sp = c.fld (DMC_STATUS.sp_active k) ∧ (c.ctl k).want.isNone then c.setPointDone k
  else
    let c := c.onCtl k fun d => { d with want := some sp }
    if st = 2 ∨ st = 3 then c.switchStart k else c

/-- SETPOINT_SWITCH_DONE (R278): the new set point is in force; without stored results it is trained first. -/
def execSetpointSwitchDone (k : Fin 36) (s : State) : Res := s.on fun c =>
  match c.fld (DMC_STATUS.state k), (c.ctl k).want with
  | 6, some sp =>
    let c := (c.onCtl k fun d => { d with want := none, rows := [] }).put (DMC_STATUS.sp_active k) sp
    if bit (c.fld (DMC_TRAIN_STORED.sp k)) sp || c.pwr.mark.isSome then (c.setPointDone k).ctlActive k else c.trainStart k [sp]
  | _, _ => c

/-- R280, R282, 12 R299: at the power-fail mark a set-point switch that has not started, a repair and the pending write-backs are
abandoned. -/
def Chip.ctlMark (c : Chip) (k : Nat) : Chip :=
  let st := c.fld (DMC_STATUS.state k)
  let c := c.onCtl k fun d => { d with want := if st = 6 then d.want else none, fixes := [] }
  c.doIf (decide (st = 7)) fun c => (c.put (DMC_PPR_STATUS.busy k) 0).ctlActive k

/-- Channel, bank and row of DMC_PPR_ADDR. -/
def Chip.pprAddr (c : Chip) (k : Nat) : List Nat :=
  [c.fld (DMC_PPR_ADDR.ch k), c.fld (DMC_PPR_ADDR.bank k), c.fld (DMC_PPR_ADDR.row k)]
/-- A spare exists for the bank in DMC_PPR_ADDR. -/
def Chip.pprAvail (c : Chip) (k : Nat) : Bool :=
  (c.ctl k).spares.contains (c.fld (DMC_PPR_ADDR.ch k) * 32 + c.fld (DMC_PPR_ADDR.bank k))

/-- PPR (R280): a repair starts, or is refused. -/
def Chip.pprStart (c : Chip) (k : Nat) : Chip :=
  if c.pwr.mark.isSome then c
  else if c.anyRunning || !c.pprAvail k || c.flag (DMC_PPR_STATUS.busy k) then
    c.errEvt (DMC_ERR.ppr_refused k) (dmcEvent k) 7 (c.pprAddr k ++ [0])
  else if c.fld (DMC_STATUS.state k) = 2 ∨ c.fld (DMC_STATUS.state k) = 3 then
    (c.put (DMC_PPR_STATUS.busy k) 1).put (DMC_STATUS.state k) 7
  else c

/-- PPR (R280): a write of DMC_CMD.ppr. -/
def execPpr (k : Fin 36) (s : State) : Res := s.on (·.pprStart k)

/-- The line at `a` goes through the decoder of controller `k` (12 R298): back corrected, or poisoned. -/
def State.recode (s : State) (k a : Nat) : State :=
  let ln := a / 64
  let d := s.decodeLine k ln
  let v := s.fixedLine k ln
  let s := s.upd fun c => c.afterDecode k a d false
  match d with
  | .fixed _ =>
    { s with mem := Memory.write s.mem (64 * ln) v 64,
             chip := (s.chip.setDev ln 0).onCtl k fun x => { x with fixes := x.fixes.filter fun y => y ≠ ln } }
  | .clean => s
  | .poison => s
  | .lost => s

/-- A line of the repaired row (12 R298). -/
def State.pprLine (s : State) (k slot : Nat) : State :=
  match s.chip.unplace (k / 9) (s.chip.fld (DMC_PPR_ADDR.ch k) * 9 + k % 9) slot with
  | none => s
  | some a => s.recode k a

/-- PPR_DONE (R280, 12 R298): the device reports; the row is written back and the channel released. -/
def State.pprDone (s : State) (k : Nat) (ok : Bool) : State :=
  if !s.chip.flag (DMC_PPR_STATUS.busy k) then s else
  let addr := s.chip.pprAddr k
  let row := addr.getD 2 0 * 1024 + addr.getD 1 0 * 32
  let s := s.each (List.range 32) fun s i => s.pprLine k (row + i)
  s.upd fun c =>
    let c := c.put (DMC_PPR_STATUS.busy k) 0
    let c := if ok then
        (c.onCtl k fun d => { d with spares := d.spares.erase (addr.getD 0 0 * 32 + addr.getD 1 0) }).raise (dmcEvent k) 6 addr
      else c.errEvt (DMC_ERR.ppr_fail k) (dmcEvent k) 7 (addr ++ [1])
    c.ctlActive k

/-- Extents whose map entry differs from the one in force (R261). -/
def Chip.changedExtents (c : Chip) : List Nat :=
  numbersBelow 64 fun x => c.fld (DMC_MAP.mode x) + 2 * c.fld (DMC_MAP.grain x) ≠ Tab.get 8 c.dram.maps x

/-- DMC_MAP_CMD.apply written in quarter `q` (R261). -/
def Chip.mapApply (c : Chip) (q : Nat) : Chip :=
  if c.flag DMC_MAP_STATUS.busy then c.put (DMC_ERR.bad_value (9 * q)) 1
  else if c.pwr.mark.isSome then c
  else (c.onDram fun d => { d with applying := c.changedExtents }).put DMC_MAP_STATUS.busy 1

/-- MAP_APPLY (R261). -/
def execMapApply (q : Fin 4) (s : State) : Res := s.on (·.mapApply q)

/-- A request to an extent being applied has not completed. -/
def Chip.applyBusy (c : Chip) : Bool :=
  let hit (r : DReq) : Bool := c.dram.applying.contains (extentOf r.addr)
  c.dram.ctls.any fun e =>
    e.2.queues.any (fun q => q.2.any hit) || e.2.gate.any hit || e.2.ring.any hit || e.2.verify.any fun t => hit t.req

/-- Part of a window lies in extent `x` of some quarter. -/
def windowInExtent (lo n x : Nat) : Bool :=
  (List.range 4).any fun q => overlap lo n (q * 2 ^ 39 + x * 2 ^ 33) (2 ^ 33)

/-- A fill of part of a range or of its metadata puts it in ALARM (13 Table 13.1). -/
def Chip.mapAlarm (c : Chip) (xs : List Nat) : Chip := c.each (List.range 16) fun c n =>
  let hit (x : Nat) := windowInExtent (c.prBase n) (c.prSize n) x || windowInExtent (c.prMeta n) (c.prSize n / 2) x
  if c.prState n ≠ 0 ∧ xs.any hit then
    (c.prAlarm n 4 (c.prBase n) 0 (recStamp c.now) PR_ERR.tree_ue).prTo n 4
  else c

/-- MAP_DONE by controller 0 of every quarter that is there (R284). -/
def Chip.mapDone (c : Chip) (xs : List Nat) : Chip := c.each (List.range 4) fun c q =>
  if c.offline q then c else c.raise (dmcEvent (9 * q)) 8 (xs ++ [recStamp c.now])

/-- MAP_APPLY_DONE (R261): the extents are filled with zeros under their new placement and admitted again. -/
def execMapApplyDone (s : State) : Res :=
  let c := s.chip
  if !c.flag DMC_MAP_STATUS.busy || c.applyBusy then .next s else
  let xs := c.dram.applying
  let s := s.upd fun c => c.onDram fun d =>
    { d with maps := xs.foldl (fun m x => Tab.set 8 m x (c.fld (DMC_MAP.mode x) + 2 * c.fld (DMC_MAP.grain x))) d.maps,
             applying := [] }
  let s := s.each xs fun s x => s.each (List.range 4) fun s q =>
    s.fillZero (q * 2 ^ 39 + x * 2 ^ 33) (q * 2 ^ 39 + (x + 1) * 2 ^ 33)
  .next (s.upd fun c => (((c.mapAlarm xs).put DMC_MAP_STATUS.busy 0).mapDone xs))

/-- INIT_FILL_EXTENT (R571): the power-up fill of the next extent ends; its waiting requests enter. -/
def execInitFillExtent (s : State) : Res := s.on fun c =>
  if !c.flag DMC_MAP_STATUS.init_busy || c.pwr.mark.isSome then c else
  let n := c.fld DMC_MAP_STATUS.init_done + 1
  let c := c.put DMC_MAP_STATUS.init_done n
  if n < 64 then c.admitAll
  else
    let c := (c.put DMC_MAP_STATUS.init_busy 0).mapDone (List.range 64)
    let c := c.each (List.range 36) fun c k => c.onCtl k fun d => { d with lapAt := c.now }
    c.admitAll

/-- ECC_WRITEBACK (12 R289): the oldest corrected line of controller `k` is written back and read once more; `flips` and
`cflips` are the cells that read wrong again. A queued WRITE to the line makes the write-back unnecessary. -/
def execEccWriteback (k : Fin 36) (flips : Line) (cflips : BitVec 64) (s : State) : Res :=
  match (s.chip.ctl k).fixes with
  | [] => .next s
  | ln :: rest =>
    let p := s.chip.place (64 * ln)
    let s0 := s.upd fun c => c.onCtl k fun d => { d with fixes := rest }
    if (s.chip.bankQueue k p.qnum).any fun r => r.addr = 64 * ln ∧ r.kind = 1 then .next s0
    else match s.decodeLine k ln with
      | .fixed _ =>
        let v := s.fixedLine k ln
        let s1 : State := { s0 with mem := Memory.write s.mem (64 * ln) v 64, chip := s0.chip.setDev ln 0 }
        let s1 := (s1.upd fun c => (c.incSat (DMC_WR_CNT.count k)).incSat (DMC_RD_CNT.count k)).upset ln flips.toNat cflips.toNat
        match s1.decodeLine k ln with
        | .fixed f => .next (s1.upd fun c =>
            let c := (c.countFix k (64 * ln) f.symbols).incSat (ECC_HARD_CNT.count k)
            (c.eccEnter k (64 * ln) f.symbols 2 false).eccErr k 3 (ECC_ERR.hard k))
        | .clean => .next s1
        | .poison => .next (s1.upd fun c => c.afterDecode k (64 * ln) .poison false)
        | .lost => .next (s1.upd fun c => c.afterDecode k (64 * ln) .lost false)
      | .clean => .next s0
      | .poison => .next s0
      | .lost => .next s0

/-- The next slot at or after `u` of a channel that holds data, 2^28 when there is none (12 R295). -/
def Chip.nextData (c : Chip) (q c36 : Nat) : Nat → Nat → Nat
  | 0, u => u
  | n + 1, u =>
    if 2 ^ 28 ≤ u then 2 ^ 28
    else match c.unplace q c36 u with
      | some _ => u
      | none =>
        let blk := checkUnit (c.grain (u / 2 ^ 22)) / 64
        Chip.nextData c q c36 n ((u / blk + 1) * blk)

/-- A patrol lap ends when all four channels have visited their last line (12 R297). -/
def Chip.lapEnd (c : Chip) (k : Nat) : Chip :=
  let d := c.ctl k
  let low := min (min (Tab.get 0 d.pos 0) (Tab.get 0 d.pos 1)) (min (Tab.get 0 d.pos 2) (Tab.get 0 d.pos 3))
  if low < 2 ^ 28 then c.put (PAT_POS.slot k) low
  else
    let t := (c.now - d.lapAt) / (1000 * msMT)
    let m := c.fld (PAT_TARGET.minutes k)
    let c := ((c.put (PAT_LAST_LAP.s k) t).incWrap (PAT_LAP_CNT.count k)).put (PAT_LAST_LINES.lines k) d.lines
    let c := c.doIf (decide (m ≠ 0) && decide (m * 60 * (1000 * msMT) < c.now - d.lapAt))
      (·.errEvt (ECC_ERR.lap_late k) (eccEvent k) 5 [t])
    (c.onCtl k fun d => { d with pos := [], lines := 0, lapAt := c.now }).put (PAT_POS.slot k) 0

/-- PATROL_VISIT (12 R295 to R297): the patrol of controller `k` decodes the next data line of a channel. -/
def execPatrolVisit (k : Fin 36) (ch : Fin 4) (flips : Line) (cflips : BitVec 64) (s : State) : Res :=
  let c := s.chip
  let st := c.fld (DMC_STATUS.state k)
  let u := c.nextData (k / 9) (ch * 9 + k % 9) 8 (Tab.get 0 (c.ctl k).pos ch)
  if c.pwr.mark.isSome then .next s else
  match if u < 2 ^ 28 then c.unplace (k / 9) (ch * 9 + k % 9) u else none with
  | none => .next (s.upd fun c => (c.onCtl k fun d => { d with pos := Tab.set 0 d.pos ch u }).lapEnd k)
  | some a =>
    let p := c.place a
    let busy := !(c.bankQueue k p.qnum).isEmpty || (c.ctl k).ring.any (fun r => r.addr = a) ||
      (c.ctl k).verify.any fun t => t.req.addr = a
    if !c.flag (PAT_CTRL.en k) || !c.quarterRun (k / 9) || !(st = 2 || st = 3) || c.flag DMC_MAP_STATUS.init_busy || busy then .next s
    else
      let lost := c.chFailed k p.ch || c.chFailed p.chkCtl p.chkCh
      let s := if lost then s else s.upset (a / 64) flips.toNat cflips.toNat
      let d := s.decodeLine k (a / 64)
      .next (s.upd fun c =>
        let c := if lost then c.incSat (ECC_UE_CNT.count k) else c.afterDecode k a d true
        let c := c.incSat (DMC_RD_CNT.count k)
        let n := c.nextData (k / 9) (ch * 9 + k % 9) 8 (u + 1)
        (c.onCtl k fun d => { d with pos := Tab.set 0 d.pos ch n, lines := d.lines + 1 }).lapEnd k)

/-- ECC_CLEAR_LOG (12 R292). -/
def Chip.eccClear (c : Chip) (k : Nat) : Chip := c.onCtl k fun d => { d with log := [] }
/-- ECC_CLEAR_LOG (12 R292): a write of ECC_CMD.clear_log. -/
def execEccClearLog (k : Fin 36) (s : State) : Res := s.on (·.eccClear k)

end Sys2Proof.Machine
end

