-- ==== Sys2Proof/Machine/Ranges.lean ====
section
/-! DEFINITION. KID slots, zeroise, rekey and the staged settings of protected ranges (13 R314 to R319). -/

namespace Sys2Proof.Machine

/-- Ranges and rekeys that use a KID slot. -/
def Chip.kidUsers (c : Chip) (slot : Nat) : Nat :=
  ((List.range 16).filter fun n => c.prState n ≠ 0 ∧ c.act (PR_CFG.kid_slot n) = slot).length +
    ((List.range 16).filter fun n => c.prState n = 3 ∧ c.fld (PR_STATE.target n) = slot).length

/-- A KID command that is refused (R314). -/
def Chip.kidRefuse (c : Chip) : Chip := (c.put PR_KID_RESULT.result 2).put PR_ERR.kid_refused 1

/-- PR_KID_CMD.activate (R314). -/
def Chip.kidActivate (c : Chip) (slot kid : Nat) : Chip :=
  if c.fld (PR_KID.state slot) ≠ 0 ∨
      (List.range 16).any fun t => t ≠ slot ∧ c.fld (PR_KID.state t) ≠ 0 ∧ c.fld (PR_KID.kid t) = kid then c.kidRefuse
  else ((c.put (PR_KID.kid slot) kid).put (PR_KID.state slot) 1).put PR_KID_RESULT.result 3

/-- KID_ACTIVATE (R314). -/
def execKidActivate (slot : Fin 16) (kid : BitVec 8) (s : State) : Res := s.on (·.kidActivate slot kid.toNat)

/-- KID_GENERATED (R314): fresh keys stand in the slot. -/
def execKidGenerated (slot : Fin 16) (s : State) : Res := s.on fun c =>
  if c.fld (PR_KID.state slot) = 1 then
    ((c.onDram fun d => { d with keys := d.keys + 1, slotKey := Tab.set 0 d.slotKey slot (d.keys + 1) }).put (PR_KID.state slot) 2).put
      PR_KID_RESULT.result 1
  else c

/-- PR_KID_CMD.retire (R314). -/
def Chip.kidRetire (c : Chip) (slot : Nat) : Chip :=
  if c.kidUsers slot ≠ 0 then c.kidRefuse
  else
    ((c.onDram fun d => { d with slotKey := Tab.set 0 d.slotKey slot 0 }).put (PR_KID.kid slot) 0).put (PR_KID.state slot) 0
      |>.put PR_KID_RESULT.result 1

/-- KID_RETIRE (R314). -/
def execKidRetire (slot : Fin 16) (s : State) : Res := s.on (·.kidRetire slot)

/-- A zeroise of range `n` starts (R315). -/
def Chip.zeroiseStart (c : Chip) (n : Nat) : Chip := (c.prTo n 1).put (PR_WALK.pos n) 0
/-- PR_CMD.zeroise (R315): of a range that is READY or in ALARM. -/
def Chip.zeroise (c : Chip) (n : Nat) : Chip := if c.prState n = 2 ∨ c.prState n = 4 then c.zeroiseStart n else c
/-- ZEROISE (R315). -/
def execZeroise (n : Fin 16) (s : State) : Res := s.on (·.zeroise n)

/-- The layer of range `n` under a KID slot. -/
def Chip.rangeLayer (c : Chip) (n slot bias : Nat) : Layer :=
  ⟨c.prBase n, c.prBase n + c.prSize n, 1, Tab.get 0 c.dram.slotKey slot, c.fld (PR_KID.kid slot), bias⟩

/-- ZEROISE_DONE (R315, R306, stopped by the mark: Table 13.6): every line and the metadata hold zeros, every counter 0, no subtree is poisoned. -/
def execZeroiseDone (n : Fin 16) (s : State) : Res :=
  let c := s.chip
  if c.prState n ≠ 1 ∨ c.pwr.mark ≠ none then .next s else
  let s := s.fillZero (c.prBase n) (c.prBase n + c.prSize n)
  let s := s.fillZero (c.prMeta n) (c.prMeta n + c.prSize n / 2)
  .next (s.upd fun c =>
    let c := c.pushLayer (c.rangeLayer n (c.act (PR_CFG.kid_slot n)) 0)
    let c := c.onPrange n fun p => { closing := p.closing }
    let c := ((c.put (PR_STATE.subtrees n) 0).put (PR_WALK.pos n) (c.prSize n / 4096)).prTo n 2
    c.prEvent n)

/-- PR_CMD.rekey (R316). -/
def Chip.rekey (c : Chip) (n slot : Nat) : Chip :=
  if c.prState n ≠ 2 ∨ c.fld (PR_KID.state slot) ≠ 2 ∨ c.act (PR_CFG.kid_slot n) = slot then c.put PR_ERR.bad_value 1
  else ((c.prTo n 3).put (PR_STATE.target n) slot).put (PR_WALK.pos n) 0

/-- REKEY (R316). -/
def execRekey (n slot : Fin 16) (s : State) : Res := s.on (·.rekey n slot)

/-- The walk of a rekey of range `n` has ended (R316): its lines stand under the target slot with their counters raised by 1, those
of `bad` poisoned. -/
def Chip.rekeyEnd (c : Chip) (n : Nat) (bad : List Nat) : Chip :=
  let slot := c.fld (PR_STATE.target n)
  let bias := match c.layerAt (c.prBase n) with | some l => l.bias | none => 0
  let c := c.each (bad.filter fun l => l < c.prSize n / 64) fun c l =>
    let a := c.prBase n + 64 * l
    ((c.setDev (a / 64) poisonMark).prAlarm n 0 a 0 (recStamp c.now) PR_ERR.tag_fail).incSat (PR_TAG_FAIL_CNT.count n)
  let c := (c.pushLayer (c.rangeLayer n slot (bias + 1))).flushNodes n
  let c := ((c.putAct (PR_CFG.kid_slot n) slot).put (PR_WALK.pos n) (c.prSize n / 4096)).prTo n 2
  c.prEvent n

/-- REKEY_DONE (R316, stopped by the mark: Table 13.6): the walk has read every line under the old slot and written it under the target slot with its counter
raised by 1; `bad` are the lines whose verification failed. -/
def execRekeyDone (n : Fin 16) (bad : List Nat) (s : State) : Res :=
  if s.chip.prState n ≠ 3 ∨ s.chip.pwr.mark ≠ none then .next s else
  let upset := (s.chip.dram.dev.map fun e => 64 * e.1).filter fun a => inPage a (s.chip.prBase n) (s.chip.prSize n)
  let s := s.each upset fun s a => s.recode (s.chip.place a).ctl a
  .next (s.upd fun c => c.rekeyEnd n bad)

/-- PR_CMD_LOG.clear_log (R319). -/
def Chip.prClearLog (c : Chip) : Chip := c.onDram fun d => { d with prLog := [] }
/-- PR_CLEAR_LOG (R319). -/
def execPrClearLog (s : State) : Res := s.on (·.prClearLog)

/-- Every staged field of range `n` (R317). -/
def prFields (n : Nat) : List Fld :=
  [PR_CFG.en n, PR_CFG.size n, PR_CFG.kid_slot n, PR_CFG.dma_in n, PR_CFG.dma_out n, PR_CFG.spec n, PR_BASE_LO.base_lo n,
   PR_BASE_HI.base_hi n, PR_META_LO.meta_lo n, PR_META_HI.meta_hi n, PR_DMA_MASK_LO.mask_lo n, PR_DMA_MASK_HI.mask_hi n]

/-- Table 13.5: staged values of range `n` are bad in a commit of the groups `ns`. -/
def Chip.rangeBad (c : Chip) (ns : List Nat) (n : Nat) : Bool :=
  let eff (m : Nat) (f : Nat → Fld) := if m = n then c.stg (f m) else c.eff ns (176 + m) (f m)
  let base (m : Nat) := eff m PR_BASE_LO.base_lo * 2 ^ 21 + eff m PR_BASE_HI.base_hi * 2 ^ 32
  let size (m : Nat) := 2 ^ 21 * 8 ^ eff m PR_CFG.size
  let meta_ (m : Nat) := eff m PR_META_LO.meta_lo * 2 ^ 20 + eff m PR_META_HI.meta_hi * 2 ^ 32
  let wins (m : Nat) : List (Nat × Nat) := [(base m, size m), (meta_ m, size m / 2)]
  let clash (m : Nat) : Bool := (wins n).any fun a => (wins m).any fun b => overlap a.1 a.2 b.1 b.2
  let en := c.stg (PR_CFG.en n) = 1
  let own := overlap (base n) (size n) (meta_ n) (size n / 2)
  let moved := [PR_BASE_LO.base_lo n, PR_BASE_HI.base_hi n, PR_CFG.size n, PR_META_LO.meta_lo n, PR_META_HI.meta_hi n,
    PR_CFG.kid_slot n].any fun f => c.stg f ≠ c.act f
  decide (c.stg (PR_CFG.size n) = 7) || decide (base n % size n ≠ 0) || decide (meta_ n % (size n / 2) ≠ 0) ||
    decide (2 ^ 41 < base n + size n) || decide (2 ^ 41 < meta_ n + size n / 2) ||
    (en && (own || (List.range 16).any fun m => m ≠ n && decide (eff m PR_CFG.en = 1) && clash m)) ||
    (en && decide (c.fld (PR_KID.state (c.stg (PR_CFG.kid_slot n))) ≠ 2)) ||
    (en && decide (c.act (PR_CFG.en n) = 1) && moved) ||
    ((decide (c.prState n = 1) || decide (c.prState n = 3)) && (prFields n).any fun f => c.stg f ≠ c.act f)

/-- A commit of range `n` with its staged values (R317): enabling starts a zeroise, disabling turns it off once its accepted
requests have completed. -/
def Chip.rangeCommit (c : Chip) (n : Nat) (snap : Tab Nat) : Chip :=
  let was := c.act (PR_CFG.en n) = 1
  let will := Tab.get 0 snap (PR_CFG.en n).key % 2 = 1
  if was ∧ !will then (c.onPrange n fun p => { p with closing := some snap }).settle
  else
    let c := c.activate (176 + n) snap
    (if !was ∧ will then c.zeroiseStart n else c).commitDone (176 + n)

end Sys2Proof.Machine
end

