-- ==== Sys2Proof/Machine/Commit.lean ====
section
/-! DEFINITION. Committing a set of staged groups (03 R83 to R86): the check, the commit instant, the switch of each group. -/

namespace Sys2Proof.Machine

/-- Staged values of group `gp` are bad in a commit of the groups `ns` (R84; Tables 7.3, 8.2, 9.9, 13.5, 11 R277). -/
def Chip.groupBad (c : Chip) (ns : List Nat) (gp : Nat) : Bool :=
  if gp < 64 then c.pinGroupBad gp
  else if gp < 136 then c.streamerBad ns (gp - 64)
  else if gp < 140 then c.failLogBad (gp - 136)
  else if gp < 176 then
    c.anyRunning || (let sp := c.stg (DMC_SP_SEL.sp (gp - 140)); decide (sp = 3) || decide (6 ≤ c.fld (DMC_SP_CFG.rate (gp - 140) sp)))
  else c.rangeBad ns (gp - 176)

/-- LQ_STG_BAD shows a group as bad (R84). -/
def Chip.stgBad (c : Chip) (gp : Nat) : Bool := decide (gp < 192) && c.groupBad (List.range 192) gp

/-- A pin group's staged values become active; its armed flag moves it between IDLE and ARMED (07 R172 row 10). -/
def Chip.switchPins (c : Chip) (g : Nat) (snap : Tab Nat) : Chip :=
  let c := c.activate g snap
  let a := c.act (PGR_ARM.armed g)
  let c := c.put (PGR_STATUS.armed g) a
  if a = 1 ∧ c.gstate g = 1 then c.groupTo g 2 0
  else if a = 0 ∧ c.gstate g = 2 then c.groupTo g 1 0
  else c

/-- A streamer's staged values become active; a change of STR_PROG or STR_PACK fetches the program (08 R189, R191). -/
def Chip.switchStreamer (c : Chip) (n : Nat) (snap : Tab Nat) : Chip :=
  let key (c : Chip) := [STR_PROG_LO.prog_lo n, STR_PROG_HI.prog_hi n, STR_PACK.width n, STR_PACK.ts_init n].map c.act
  let d := c.activate (64 + n) snap
  if key d ≠ key c ∧ d.fld (STR_STATUS.state n) ≠ 3 then d.strLoad n else d

/-- A fail log's staged values become active; a new drain channel starts at FL_ACK_PTR (15, "FAIL descriptors"). -/
def Chip.switchLog (c : Chip) (q : Nat) (snap : Tab Nat) : Chip :=
  let old := c.act (FL_DMA_CH.ch q)
  let c := c.activate (136 + q) snap
  let ch := c.act (FL_DMA_CH.ch q)
  let c := if ch = old then c
    else c.put2 (DMA_DRAIN_LO.drain_lo ch q) (DMA_DRAIN_HI.drain_hi ch q) (c.flAck q)
  c.flJudge q

/-- Group `gp` switches to the values of a commit (R85). A controller defers to the end of its set-point switch (11 R278), a
range turned off to the end of its accepted requests (13 R317). -/
def Chip.switchGroup (c : Chip) (gp : Nat) (snap : Tab Nat) : Chip :=
  if gp < 64 then (c.switchPins gp snap).commitDone gp
  else if gp < 136 then (c.switchStreamer (gp - 64) snap).commitDone gp
  else if gp < 140 then (c.switchLog (gp - 136) snap).commitDone gp
  else if gp < 176 then c.setPointCommit (gp - 140) (Tab.get 0 snap (DMC_SP_SEL.sp (gp - 140)).key)
  else c.rangeCommit (gp - 176) snap

/-- A pin group or streamer that runs a leg waits for a vector boundary (R85). -/
def Chip.waitsBoundary (c : Chip) (gp : Nat) : Bool :=
  if gp < 64 then decide (c.gstate gp = 3) else decide (gp < 136) && decide (c.fld (STR_STATUS.state (gp - 64)) = 3)

/-- A commit of set `n` is turned away (R84, R86): state REFUSED 3 or NOT_READY 4, event 44, counted in the batch. -/
def Chip.commitRefuse (c : Chip) (n state g : Nat) : Chip :=
  let c := (c.onCommits fun l => l.map fun k => { k with last := false }).put LQ_COMMIT_STATUS.state state
  let c := (c.put LQ_COMMIT_STATUS.cset n).put LQ_COMMIT_STATUS.bad_group g
  let c := c.onBatch fun b => { b with refusedC := b.refusedC + 1 }
  (c.doIf (decide (state = 3)) (·.put LQ_ERR.commit_refused 1)).raise 44 0 [n, g]

/-- The commit instant of a set whose groups are good: the staged values as they stand are what each group switches to (R86);
a group still pending in an earlier commit counts there as switched. -/
def Chip.commitGood (c : Chip) (n : Nat) (gs : List Nat) : Chip :=
  let snaps := gs.map fun gp => (gp, c.snapshot gp)
  let c := c.onCommits fun l => l.map fun k => { k with last := false }
  let c := c.each gs fun c gp => c.commitDone gp
  let c := c.onCommits fun l => l ++ [{ cset := n, groups := snaps, last := true }]
  let c := ((c.put LQ_COMMIT_STATUS.state 1).put LQ_COMMIT_STATUS.cset n).put LQ_COMMIT_STATUS.bad_group 0
  c.each snaps fun c e => if c.waitsBoundary e.1 then c else c.switchGroup e.1 e.2

/-- Commit set `n` (R83, R84): an empty set is done at once; an immediate commit below STANDBY is NOT_READY (R86); one bad group
refuses the whole set. -/
def Chip.commit (c : Chip) (n : Nat) (now_ : Bool) : Chip :=
  match c.setGroups n with
  | [] =>
    let c := c.onCommits fun l => l.map fun k => { k with last := false }
    ((c.put LQ_COMMIT_STATUS.state 2).put LQ_COMMIT_STATUS.cset n).raise 45 0 [n]
  | g :: gs =>
    if now_ && !c.tileUp then c.commitRefuse n 4 g
    else match (g :: gs).find? (c.groupBad (g :: gs)) with
      | some b => c.commitRefuse n 3 b
      | none => c.commitGood n (g :: gs)

/-- COMMIT (R84): a COMMIT entry commits its set. -/
def execCommit (s : State) : Res := s.on (·.runEntry 2 fun c e _ => c.commit (bits e.arg 0 4) false)

/-- COMMIT_NOW (R83): the set LQ_CMD.cset names, at once. -/
def execCommitNow (n : Fin 16) (s : State) : Res := s.on (·.commit n true)

/-- GROUP_SWITCH (R85): the first vector boundary of a pin group or streamer with a commit pending. -/
def execGroupSwitch (gp : Fin 136) (s : State) : Res := s.on fun c =>
  match c.pendingSnap gp with
  | some snap => c.switchGroup gp snap
  | none => c

end Sys2Proof.Machine
end

