-- ==== Sys2Proof/Machine/Sweep.lean ====
section
/-! DEFINITION. The Sweeper (21 R460 to R468): frame visits, corrections, reloads, laps with their checks and watchdog. -/

namespace Sys2Proof.Machine

/-- Change the Sweeper. -/
def Chip.onSw (c : Chip) (f : Sweeper → Sweeper) : Chip := { c with sw := f c.sw }
/-- Ones of a number, counted until none is left or the fuel is gone. -/
def countOnes : Nat → Nat → Nat
  | 0, _ => 0
  | k + 1, n => if n = 0 then 0 else n % 2 + countOnes k (n / 2)
/-- Cells of a frame with its check (R460). -/
def frameCells : Nat := 33024
/-- Address of frame `i` of global region `r` (01 R33). -/
def frameAddr (r i : Nat) : Nat := r * 2 ^ 26 + i * 2 ^ 14

/-- A new lap starts (R461, R466). -/
def Chip.lapStart (c : Chip) : Chip :=
  ((c.onSw fun w => { w with pos := [], seen := [], done := [], base := 0, since := c.now, reload := [] }).put
    SW_STATUS.state 1).put SW_STATUS.active 15
/-- Time of the present lap in MT; it stands still while the Sweeper is not SWEEPING. -/
def Chip.lapTime (c : Chip) : Nat := c.sw.base + if c.fld SW_STATUS.state = 1 then c.now - c.sw.since else 0
/-- SW_CUR_LAP (R466). -/
def Chip.curLap (c : Chip) : Nat := satN 32 (c.lapTime / usMT)

/-- A region is in the lap: LOADED and not in the clamp of a slice test (R461, R464). -/
def Chip.swept (c : Chip) (r : Nat) : Bool := decide (c.rgState r = 4) && !c.flag (RG_STATUS.clamped r)
/-- A frame index the Sweeper visits in a region (R461). -/
def Region.sweeps (x : Region) (i : Nat) : Bool :=
  (decide (frameClass i = 0) || decide (frameClass i = 2)) && !x.live.contains i
/-- The next frame of quarter `q`'s lap from position `p`: global region and index. -/
def Chip.nextFrame (c : Chip) (q p : Nat) : Option (Nat × Nat) :=
  (List.range 16).findSome? fun r =>
    let g := 16 * q + r
    if r < p / 4096 ∨ !c.swept g then none
    else
      let lo := if r = p / 4096 then p % 4096 else 0
      ((List.range (4096 - lo)).find? fun k => (c.region g).sweeps (lo + k)).map fun k => (g, lo + k)

/-- SW_FIRST keeps the first finding until SW_CE_CNT is read (Table 21.5). -/
def Chip.swFirst (c : Chip) (r i n kind : Nat) : Chip :=
  if c.flag SW_FIRST_INFO.valid then c
  else (((c.put SW_FIRST_ADDR.addr (frameAddr r i)).put SW_FIRST_INFO.bits n).put SW_FIRST_INFO.kind kind).put SW_FIRST_INFO.valid 1
    |>.put2 SW_FIRST_STAMP_LO.stamp_lo SW_FIRST_STAMP_HI.stamp_hi (recStamp c.now)

/-- A frame is left as read and its region suspect (Table 21.1): the reasons are 1 no source, 2 digest, 3 tag, 4 record,
5 flash. -/
def Chip.swSuspect (c : Chip) (r i reason : Nat) : Chip :=
  let f := if r < 32 then SW_SUSPECT_LO.regions else SW_SUSPECT_HI.regions
  let c := (c.put f (withBit (c.fld f) (r % 32) true)).incSat SW_UNREP_CNT.count
  (c.errEvt SW_ERR.unrepaired 190 0 [frameAddr r i, reason]).swFirst r i 0 3

/-- A frame needs a reload (R463): without a source it is left, else it waits for the reload. -/
def Chip.swReload (c : Chip) (r i : Nat) : Chip :=
  if !c.flag SW_CTRL.reload_en || (Tab.get none (c.region r).locator i : Option (Nat × Nat × Nat)).isNone then c.swSuspect r i 1
  else c.onSw fun w => { w with reload := w.reload ++ [(r, i)] }

/-- One frame is read and decoded (R462, Table 21.1); `upset` are the cells found upset since the last look, `avenueBad` tells
that the corrected AVENUE frame breaks 04 R122. -/
def Chip.swFrame (c : Chip) (r i upset : Nat) (avenueBad : Bool) : Chip :=
  let x := c.region r
  let total := Tab.get 0 x.upsets i ^^^ upset % 2 ^ frameCells
  let n := countOnes frameCells total
  let c := c.setRegion r { x with upsets := Tab.set 0 x.upsets i total }
  if n = 0 then c
  else if 6 < n ∨ (frameClass i = 2 ∧ avenueBad) then c.swReload r i
  else
    let c := c.onRegion r fun x => { x with upsets := Tab.del x.upsets i }
    let c := (c.incSat SW_CE_CNT.count).addSat SW_BIT_CNT.count n
    (c.errEvt SW_ERR.corrected 188 0 [frameAddr r i, n]).swFirst r i n 1

/-- SWEEP_VISIT (R462): the next frame of quarter `q`, in a port slot nothing else claims. -/
def execSweepVisit (q : Fin 4) (upset : Nat) (avenueBad : Bool) (s : State) : Res := s.on fun c =>
  if c.fld SW_STATUS.state ≠ 1 ∨ c.portBusy q ∨ q.val ∈ c.sw.done then c
  else
    match c.nextFrame q (Tab.get 0 c.sw.pos q) with
    | none => (c.onSw fun w => { w with done := q.val :: w.done }).put SW_STATUS.active
        (withBit (c.fld SW_STATUS.active) q false)
    | some (r, i) =>
      let c := c.onSw fun w => { w with pos := Tab.set 0 w.pos q (r % 16 * 4096 + i + 1),
                                        seen := Tab.set 0 w.seen q (Tab.get 0 w.seen q + 1) }
      c.swFrame r i upset avenueBad

/-- SWEEP_RELOAD (R463): the first frame waiting is reloaded from its slot; 0 verified, 1 digest, 2 tag, 3 record, 4 flash. A
region clamped since then keeps its frame (R464). -/
def execSweepReload (result : Fin 5) (s : State) : Res := s.on fun c =>
  match c.sw.reload with
  | [] => c
  | (r, i) :: rest =>
    let c := c.onSw fun w => { w with reload := rest }
    if !c.swept r then c
    else match (Tab.get none (c.region r).locator i : Option (Nat × Nat × Nat)) with
      | none => c.swSuspect r i 1
      | some l =>
        if result.val ≠ 0 then c.swSuspect r i (result.val + 1)
        else
          let c := (c.onRegion r fun x => { x with upsets := Tab.del x.upsets i }).incSat SW_RELOAD_CNT.count
          (c.errEvt SW_ERR.reloaded 189 0 [frameAddr r i, l.1]).swFirst r i 0 2

/-- SWEEP_LAP_END (R465, R466): all quarters have finished. `differs` names a quarter whose visit count or address CRC the check
unit finds different, with the expected and the found count: the lap is discarded. -/
def execSweepLapEnd (differs : Option (Fin 4 × Nat × Nat)) (s : State) : Res := s.on fun c =>
  if c.fld SW_STATUS.state ≠ 1 ∨ (List.range 4).any (fun q => !c.sw.done.contains q) then c
  else match differs with
    | some (q, e, f) => (c.errEvt SW_ERR.seq_fault 192 0 [q, e, f]).lapStart
    | none =>
      let n := (c.sw.seen.map (·.2)).sum
      let c := ((c.put SW_LAST_LAP.us c.curLap).put SW_LAST_FRAMES.frames n).incWrap SW_LAP_CNT.count
      (c.onSw fun w => { w with expired := 0 }).lapStart

/-- SWEEP_LAP_LATE (R466): the lap reaches twice SW_LAP_TARGET. -/
def execSweepLapLate (s : State) : Res := s.on fun c =>
  if c.fld SW_STATUS.state = 1 then c.errEvt SW_ERR.lap_late 191 0 [c.curLap, c.fld SW_LAP_TARGET.ms] else c

/-- SWEEP_WATCHDOG (R467): no lap has ended for four times SW_LAP_TARGET. -/
def execSweepWatchdog (s : State) : Res := s.on fun c =>
  if c.fld SW_STATUS.state = 0 then c
  else
    let n := c.sw.expired + 1
    let c := (c.onSw fun w => { w with expired := n }).errEvt SW_ERR.watchdog 193 0 [n]
    if n < 3 then c.lapStart
    else (((c.put SW_CTRL.en 0).put SW_STATUS.state 0).put SW_STATUS.active 0).onSw fun w => { w with expired := 0 }

/-- SW_CMD.restart_lap (R477). -/
def Chip.swRestart (c : Chip) : Chip := if c.fld SW_STATUS.state = 1 then c.lapStart else c
/-- RESTART_LAP (R477). -/
def execRestartLap (s : State) : Res := s.on (·.swRestart)
/-- SW_CMD.clear_suspect (R463). -/
def Chip.clearSuspect (c : Chip) : Chip := (c.put SW_SUSPECT_LO.regions 0).put SW_SUSPECT_HI.regions 0
/-- CLEAR_SUSPECT (R463). -/
def execClearSuspect (s : State) : Res := s.on (·.clearSuspect)
/-- SWEEPER_COPY_VOTE (R465): a copy of the control state disagrees and is rewritten. -/
def execSweeperCopyVote (copy : Fin 3) (s : State) : Res := s.on fun c =>
  (c.incSat SW_TMR_CNT.count).errEvt SW_ERR.tmr 194 0 [copy.val]

/-- A write of SW_CTRL (R467, Table 21.5): clearing en turns the Sweeper OFF, setting it starts a lap. -/
def Chip.swCtrlWrite (c : Chip) (v : Nat) : Chip :=
  let c := (c.put SW_CTRL.en (bits v 0 1)).put SW_CTRL.reload_en (bits v 1 1)
  if !bit v 0 then (c.put SW_STATUS.state 0).put SW_STATUS.active 0
  else if c.fld SW_STATUS.state = 0 ∧ c.tileUp then c.lapStart else c
/-- STANDBY pauses the Sweeper at its position (R468). -/
def Chip.swPause (c : Chip) : Chip :=
  if c.fld SW_STATUS.state = 1 then (c.onSw fun w => { w with base := c.lapTime }).put SW_STATUS.state 2 else c
/-- A wake from STANDBY resumes it. -/
def Chip.swResume (c : Chip) : Chip :=
  if c.fld SW_STATUS.state = 2 then (c.onSw fun w => { w with since := c.now }).put SW_STATUS.state 1 else c
/-- DORMANT, SEALED and the power-fail mark stop it; its place is lost (R468). -/
def Chip.swStop (c : Chip) : Chip :=
  (((c.onSw fun w => { w with reload := [], done := [], pos := [], seen := [], base := 0 }).put SW_STATUS.state 0).put
    SW_STATUS.active 0)
/-- It starts a new lap when the tile is up and en is set (R468). -/
def Chip.swBegin (c : Chip) : Chip := if c.flag SW_CTRL.en then c.lapStart else c

end Sys2Proof.Machine
end

