-- ==== Sys2Proof/Machine/SelfTest.lean ====
section
/-! DEFINITION. Built-in self-test (21 R469 to R478): slice tests, the full DRAM march, post-package repair of logged rows, soft
repairs and the log. -/

namespace Sys2Proof.Machine

/-- Change the BIST controller. -/
def Chip.onBist (c : Chip) (f : Bist → Bist) : Chip := { c with bist := f c.bist }

/-- A failure is logged (R476): counted as lost while the log is full; the first since fail was cleared raises event 210. -/
def Chip.bistLog (c : Chip) (f : BistFail) (repair : Nat) (slice : Bool) : Chip :=
  let e : BistEntry := ⟨f.unit, f.number, f.addr, f.bit, repair, slice⟩
  let c := if c.bist.log.length < 32 then c.onBist fun b => { b with log := b.log ++ [e] } else c.incSat BIST_LOG_LOST.count
  let h := (c.bist.log.head?).getD e
  c.errEvt BIST_ERR.fail 210 0 [h.unit, h.number, h.addr, h.bit, h.repair]

/-- A soft spare of block `b` for row `row`, else for column `col` (R155, R469, R473): none when no spare is free. -/
def Chip.softRepair (c : Chip) (b row col : Nat) : Option Chip :=
  let r0 := !c.flag (BM_ROWREP.row0_en b)
  let r1 := !c.flag (BM_ROWREP.row1_en b)
  let k0 := !c.flag (BM_COLREP.col0_en b)
  let k1 := !c.flag (BM_COLREP.col1_en b)
  if row < 512 ∧ r0 then some ((c.put (BM_ROWREP.row0 b) row).put (BM_ROWREP.row0_en b) 1)
  else if row < 512 ∧ r1 then some ((c.put (BM_ROWREP.row1 b) row).put (BM_ROWREP.row1_en b) 1)
  else if col < 576 ∧ k0 then some ((c.put (BM_COLREP.col0 b) col).put (BM_COLREP.col0_en b) 1)
  else if col < 576 ∧ k1 then some ((c.put (BM_COLREP.col1 b) col).put (BM_COLREP.col1_en b) 1)
  else none

/-- A failing block memory is repaired or exhausted (R469, R473), and logged. -/
def Chip.bistBlock (c : Chip) (f : BistFail) (slice : Bool) : Chip :=
  match c.softRepair f.number f.addr f.bit with
  | some c => c.bistLog f 1 slice
  | none =>
    let q := f.number / 2560
    let r := f.number % 2560 / 160
    let c := c.put (QB_EXHAUSTED.regions q) (withBit (c.fld (QB_EXHAUSTED.regions q)) r true)
    (c.bistLog f 5 slice).errEvt BIST_ERR.exhausted 211 0 [f.number]

/-- The cluster fails (Table 21.7). -/
def Chip.clusterFails (c : Chip) (j : Nat) : Chip :=
  let f := QB_CLUSTER_FAIL.clusters (j / 128) (j % 128 / 32)
  c.put f (withBit (c.fld f) (j % 32) true)

/-- What a failure leads to (Table 21.2, R473): units as Table 21.4 codes them. -/
def Chip.bistFail (c : Chip) (slice : Bool) (f : BistFail) : Chip :=
  if f.unit = 0 then c.bistBlock f slice
  else if f.unit = 1 ∨ f.unit = 3 then (c.clusterFails f.number).bistLog f 0 slice
  else if f.unit = 4 then
    let g := QB_REGION_FAIL.regions (f.number / 16)
    (c.put g (withBit (c.fld g) (f.number % 16) true)).bistLog f 0 slice
  else if f.unit = 5 then c.bistLog f 2 slice
  else c.bistLog f 0 slice

/-- A target is eligible for a slice test (Table 21.3). -/
def Chip.sliceEligible (c : Chip) (kind i : Nat) : Bool :=
  if kind = 0 then
    decide (i < 64) && decide (c.rgState i = 4) && decide (c.gstate i ≠ 3) && decide (c.gstate i ≠ 2) && !c.portBusy (i / 16)
  else if kind = 1 then decide (i < 512) && decide (c.clState i ≤ 1) && (c.cl i).xfer.isNone
  else decide (i < 64) && decide (c.gstate i ≤ 1)

/-- The isolation of Table 21.3. -/
def Chip.sliceIsolate (c : Chip) (kind i : Nat) : Chip :=
  if kind = 0 then
    let c := ((c.put (RG_STATUS.clamped i) 1).put (RG_STATUS.state i) 2).onRegion i fun x => { x with loading := true }
    (c.abortRow i 2 none).portClose (.region (Fin.ofNat 64 i))
  else if kind = 1 then c.portClose (.cluster (Fin.ofNat 512 i))
  else
    (c.each (List.range 16) fun c k =>
      let n := 16 * i + k
      let c := if c.fld (PCH_STATUS.den n) = 0 then c else c.enable n 0 c.now
      if c.fld (PCH_STATUS.drv n) = 0 then c else c.drive n 0 c.now).showInhibit i
/-- A slice test starts. -/
def Chip.sliceStart (c : Chip) (kind i : Nat) : Chip :=
  let c := c.odAbandon (if kind = 1 then i / 128 else i / 16)
  ((c.onBist fun b => { b with run := some (kind, i) }).put BIST_STATUS.state 2).sliceIsolate kind i

/-- The result of a slice test. -/
def Chip.sliceResult (c : Chip) (kind i result : Nat) : Chip :=
  ((c.put BIST_SLICE_RESULT.result result).put BIST_SLICE_RESULT.kind kind).put BIST_SLICE_RESULT.index i

/-- BIST_CMD.slice (R472). -/
def Chip.bistSlice (c : Chip) : Chip :=
  let kind := c.fld BIST_TARGET.kind
  let i := c.fld BIST_TARGET.index
  if c.fld BIST_STATUS.state = 0 ∧ c.sliceEligible kind i then c.sliceStart kind i
  else (c.sliceResult kind i 3).put BIST_ERR.refused 1
/-- BIST_SLICE (R472). -/
def execBistSlice (s : State) : Res := s.on (·.bistSlice)

/-- Target number `n` of the round robin: regions, clusters, pin groups. -/
def sliceTarget (n : Nat) : Nat × Nat := if n < 64 then (0, n) else if n < 576 then (1, n - 64) else (2, n - 576)
/-- The target is allowed (R472). -/
def Chip.sliceAllowed (c : Chip) (kind i : Nat) : Bool :=
  bit (c.fld (if kind = 0 then BIST_ALLOW_REGION.allow (i / 32) else if kind = 1 then BIST_ALLOW_CLUSTER.allow (i / 32)
    else BIST_ALLOW_GROUP.allow (i / 32))) (i % 32)
/-- BIST_PERIODIC (R472): the next eligible target among those allowed, in round-robin order. -/
def execBistPeriodic (s : State) : Res := s.on fun c =>
  if c.flag BIST_CTRL.periodic ∧ c.fld BIST_STATUS.state = 0 then
    let order := (List.range 640).map fun k => (c.bist.next + k) % 640
    match order.find? fun n => c.sliceAllowed (sliceTarget n).1 (sliceTarget n).2 && c.sliceEligible (sliceTarget n).1 (sliceTarget n).2 with
    | none => c
    | some n => (c.onBist fun b => { b with next := (n + 1) % 640 }).sliceStart (sliceTarget n).1 (sliceTarget n).2
  else c

/-- A block memory as its configuration and the retained frames give it (06 R154). -/
def BmBlock.emptied (x : BmBlock) : BmBlock :=
  { mode := x.mode, prot := x.prot, wa := x.wa, wb := x.wb, lvlLo := x.lvlLo, lvlHi := x.lvlHi, words := x.init, init := x.init,
    filled := !x.init.isEmpty }
/-- The region's scheme is applied again to its blocks (06 R154). -/
def Chip.bmAgain (c : Chip) (r : Nat) : Chip :=
  c.bmInit r (c.flag (BM_RCTL.init_mode r)) ((c.blocks.filter fun e => e.1 / 160 = r).map fun e => (e.1 % 160, e.2.emptied))

/-- After its test a region is released again with its frames unchanged (Table 21.3, R449 steps 1 to 6). -/
def Chip.rerelease (c : Chip) (r : Nat) : Chip :=
  let fill := c.flag (BM_RCTL.init_mode r)
  let live := c.fld (FAB_STATUS.match_live r)
  let blocks := (c.blocks.filter fun e => e.1 / 160 = r).map fun e => (e.1 % 160, e.2.emptied)
  let c := (c.resetRange (rgBase r + 0x804) (rgBase r + 0x1000)).resetRange (bmBase r) (bmBase r + 0x100)
  let c := (c.bmInit r fill blocks).each (List.range 8) fun c i => c.clReset (8 * r + i)
  let c := (c.onRegion r fun x => { x with user := x.init, disabled := [], flagAt := [], frozen := false, loading := false }).put
    (FAB_STATUS.match_live r) live
  let c := (c.put2 (RG_LOAD_STAMP_LO.stamp_lo r) (RG_LOAD_STAMP_HI.stamp_hi r) (recStamp c.now)).incWrap (RG_LOAD_CNT.count r)
  let c := ((c.put (RG_STATUS.clamped r) 0).put (RG_STATUS.state r) 4).portReopen (.region (Fin.ofNat 64 r))
  if c.gstate r = 4 then c.toIdle r else c

/-- What Table 21.3 has a target do afterwards. -/
def Chip.sliceAfter (c : Chip) (kind i : Nat) : Chip :=
  if kind = 0 then c.rerelease i
  else if kind = 1 then (c.clReset i).portReopen (.cluster (Fin.ofNat 512 i))
  else (c.setGroup i { c.group i with measuring := true }).showInhibit i

/-- BIST_SLICE_DONE (R473, R476): the failures found are repaired and logged, the result and event 209 follow. -/
def execBistSliceDone (fails : List BistFail) (s : State) : Res := s.on fun c =>
  match c.bist.run with
  | none => c
  | some (kind, i) =>
    let c := c.each fails fun c f => c.bistFail true f
    let c := if kind = 2 ∧ !fails.isEmpty then
        c.put (QB_GROUP_FAIL.groups (i / 16)) (withBit (c.fld (QB_GROUP_FAIL.groups (i / 16))) (i % 16) true) else c
    let result := if fails.isEmpty then 1 else 2
    let c := ((c.onBist fun b => { b with run := none }).put BIST_STATUS.state 0).sliceAfter kind i
    (c.sliceResult kind i result).raise 209 0 [kind, i, result]

/-- A slice test is abandoned by a power-fail mark, quarter reset or tile reset (R473). -/
def Chip.sliceAbandon (c : Chip) (p : Nat → Nat → Bool) : Chip :=
  match c.bist.run with
  | some (kind, i) =>
    if p kind i then
      let c := (((c.onBist fun b => { b with run := none }).put BIST_STATUS.state 0).showInhibit (if kind = 2 then i else 0)).sliceResult kind i 2
      if kind = 0 then (c.put (RG_STATUS.state i) 0).onRegion i fun x => { x with loaded := false, loading := false, user := [] } else c
    else c
  | none => c

/-- R474: conditions that refuse a full march. -/
def Chip.dramFullBad (c : Chip) : Bool :=
  (List.range 64).any (fun g => c.gstate g = 3 || c.gstate g = 2) || (List.range 16).any (fun n => c.act (PR_CFG.en n) = 1) ||
    (List.range 512).any (fun j => c.flag (CL_STATUS.run_veto j)) || (List.range 4).any (fun q => c.flLevel q ≠ 0) ||
    decide (c.fld BIST_STATUS.state ≠ 0)
/-- BIST_CMD.dram_full (R474). -/
def Chip.dramFull (c : Chip) : Chip :=
  if c.dramFullBad then c.put BIST_ERR.refused 1 else c.put BIST_STATUS.state 3
/-- DRAM_FULL (R474). -/
def execDramFull (s : State) : Res := s.on (·.dramFull)
/-- DRAM_FULL_DONE (R474): DRAM is zero with matching check bytes; failing rows are logged as PPR pending; event 208. -/
def execDramFullDone (rows : List BistFail) (us : Nat) (s : State) : Res :=
  if s.chip.fld BIST_STATUS.state ≠ 3 then .next s
  else
    .next { s with
      mem := [],
      chip :=
        let c := s.chip
        let c := { c with dram := { c.dram with dev := [], ctr := [], solid := [], layers := [] } }
        let c := (c.each rows fun c f => c.bistLog { f with unit := 5 } 2 false).put BIST_STATUS.state 0
        c.raise 208 0 [c.fld BIST_STATUS.powerup_pass, c.bist.log.length, us] }

/-- Set the repair code of log entry `i`. -/
def Chip.bistRepair (c : Chip) (i code : Nat) : Chip := c.onBist fun b =>
  { b with log := b.log.modify i fun e => { e with repair := code } }
/-- Start the repair of the first entry that R280 takes; a refused row stays pending (R470). -/
def Chip.pprNext (c : Chip) : Nat → Chip
  | 0 => c
  | n + 1 =>
    match c.bist.ppr with
    | [] => c
    | i :: rest =>
      match c.bist.log[i]? with
      | none => Chip.pprNext (c.onBist fun b => { b with ppr := rest }) n
      | some e =>
        let k := e.number / 4
        let c' := ((c.put (DMC_PPR_ADDR.ch k) (e.number % 4)).put (DMC_PPR_ADDR.bank k) (e.addr / 262144)).put
          (DMC_PPR_ADDR.row k) (e.addr % 262144)
        let st := c'.fld (DMC_STATUS.state k)
        if c'.anyRunning || !c'.pprAvail k || c'.flag (DMC_PPR_STATUS.busy k) || (decide (st ≠ 2) && decide (st ≠ 3)) then
          Chip.pprNext ((c.onBist fun b => { b with ppr := rest }).put BIST_ERR.refused 1) n
        else c'.pprStart k
/-- BIST_CMD.ppr_apply (R470): one repair at a time for each row pending. -/
def Chip.pprApply (c : Chip) : Chip :=
  if !c.bist.ppr.isEmpty then c
  else
    let l := (List.range c.bist.log.length).filter fun i => ((c.bist.log[i]?).map (·.repair)).getD 0 = 2
    (c.onBist fun b => { b with ppr := l }).pprNext (l.length + 1)
/-- PPR_APPLY (R470). -/
def execPprApply (s : State) : Res := s.on (·.pprApply)

/-- A repair of controller `k` that BIST_CMD.ppr_apply started marks its entry and goes on to the next. -/
def Chip.pprMark (c : Chip) (k : Nat) (ok : Bool) : Chip :=
  match c.bist.ppr with
  | i :: rest =>
    if ((c.bist.log[i]?).map (·.number / 4)) = some k then
      ((c.bistRepair i (if ok then 3 else 4)).onBist fun b => { b with ppr := rest }).pprNext (rest.length + 1)
    else c
  | [] => c
/-- PPR_DONE (11 R280, 12 R298, R470). -/
def execPprDone (k : Fin 36) (ok : Bool) (s : State) : Res :=
  let busy := s.chip.flag (DMC_PPR_STATUS.busy k)
  .next ((s.pprDone k ok).upd fun c => if busy then c.pprMark k ok else c)

/-- BIST_CMD.clear_log (R478). -/
def Chip.bistClear (c : Chip) : Chip := c.onBist fun b => { b with log := [], ppr := [] }
/-- BIST_CLEAR_LOG (R478). -/
def execBistClearLog (s : State) : Res := s.on (·.bistClear)

end Sys2Proof.Machine
end

