-- ==== Sys2Proof/Machine/Odometer.lean ====
section
/-! DEFINITION. Odometer (24): measurement windows, margins and equivalent age from the measured delays, plans, and the voltage
change of a crossing. -/

namespace Sys2Proof.Machine

/-- Change Odometer's own state. -/
def Chip.onOd (c : Chip) (f : Odometer → Odometer) : Chip := { c with od := f c.od }
/-- Event 200 + q with its record (R527). -/
def Chip.odEvent (c : Chip) (q cause : Nat) : Chip :=
  c.raise (200 + q) cause [c.fld (PWR_VCORE.code q), c.fld (OD_PLAN.plan q), c.fld (OD_Q_MARGIN.margin q), c.fld (OD_Q_AGE.hours q)]
/-- An OD_ERR bit of quarter `q` and its event, raised when the bit changes from 0 to 1 (R527). -/
def Chip.odErr (c : Chip) (f : Fld) (q cause : Nat) : Chip :=
  if bit (c.fld f) q then c else (c.put f (withBit (c.fld f) q true)).odEvent q cause

/-- OD_STATUS.pending: quarters whose plan is above their code. -/
def Chip.odShow (c : Chip) : Chip :=
  c.put OD_STATUS.pending (maskOf ((List.range 4).filter fun q => decide (c.fld (PWR_VCORE.code q) < c.fld (OD_PLAN.plan q))))

/-- The window of R517: RUN or IDLE, no pin group RUNNING or ARMED, no load, readback or slice test. -/
def Chip.odWindow (c : Chip) (q : Nat) : Bool :=
  c.tileUp && decide (c.qstate q ≤ 1) && c.flag (QC_STATUS.ready q) && !c.offline q && c.pwr.mark.isNone && !c.portBusy q &&
    (List.range 16).all (fun g => c.gstate (16 * q + g) ≠ 2 && c.gstate (16 * q + g) ≠ 3) &&
    (match c.bist.run with | some (kind, i) => decide ((if kind = 1 then i / 128 else i / 16) ≠ q) | none => true)

/-- OD_INTERVAL in MT. -/
def Chip.odInterval (c : Chip) : Nat := c.fld OD_INTERVAL.s * 1000 * msMT

/-- OD_MEASURE (R517): a due measurement starts in a window. -/
def Chip.odMeasure (c : Chip) (q : Nat) : Chip :=
  let due := c.od.due.contains q || decide (Tab.get 0 c.od.last q + c.odInterval ≤ c.now)
  if c.flag OD_CTRL.en && due && c.odWindow q then
    (c.onOd fun o => { o with due := o.due.filter (· ≠ q) }).put OD_STATUS.measuring (withBit (c.fld OD_STATUS.measuring) q true)
  else c
/-- OD_MEASURE (R517). -/
def execOdMeasure (q : Fin 4) (s : State) : Res := s.on (·.odMeasure q)

/-- MEASURE_NOW (R517): quarter `q`'s measurement is due at once. -/
def Chip.measureNow (c : Chip) (q : Nat) : Chip :=
  c.onOd fun o => { o with due := if o.due.contains q then o.due else o.due ++ [q] }
/-- MEASURE_NOW (R517). -/
def execMeasureNow (q : Fin 4) (s : State) : Res := s.on (·.measureNow q)

/-- OD_OVERDUE (R517): no measurement for twice OD_INTERVAL. -/
def execOdOverdue (q : Fin 4) (s : State) : Res := s.on fun c =>
  if c.flag OD_CTRL.en && decide (Tab.get 0 c.od.last q + 2 * c.odInterval ≤ c.now) then c.odErr OD_ERR.overdue q 6 else c

/-- A fraction with a positive denominator. -/
structure Ratio where
  num : Int
  den : Nat
deriving DecidableEq, Repr

/-- `a ≤ b`. -/
def Ratio.le (a b : Ratio) : Bool := decide (a.num * b.den ≤ b.num * a.den)
/-- Put a fraction into a rising list. -/
def Ratio.insert (a : Ratio) : List Ratio → List Ratio
  | [] => [a]
  | b :: l => if a.le b then a :: b :: l else b :: Ratio.insert a l
/-- Median; of an even count the mean of the two in the middle. -/
def Ratio.median (l : List Ratio) : Ratio :=
  let s := l.foldr Ratio.insert []
  let z : Ratio := ⟨0, 1⟩
  let n := s.length
  let a := s.getD ((n - 1) / 2) z
  let b := s.getD (n / 2) z
  ⟨a.num * b.den + b.num * a.den, 2 * a.den * b.den⟩
/-- `a` differs from `m` by more than 3 % of `m` (R518). -/
def Ratio.apart (a m : Ratio) : Bool :=
  decide (3 * (m.num * a.den) < 100 * ((a.num * m.den - m.num * a.den).natAbs : Int))
/-- The least of a list. -/
def Ratio.least : List Ratio → Option Ratio
  | [] => none
  | a :: l => match Ratio.least l with
    | none => some a
    | some b => some (if a.le b then a else b)

/-- The valid replicas of a region as D / D_f, from its four delays D with their factory delays (R518). -/
def validReplicas (l : List (Nat × Nat)) : List Ratio :=
  let m := Ratio.median (l.map fun e => ⟨(e.1 : Int), 1⟩)
  (l.filter fun e => decide (0 < e.2) && !(Ratio.apart ⟨e.1, 1⟩ m)).map fun e => ⟨e.1, e.2⟩
/-- r_d of a region; none with fewer than two valid replicas. -/
def regionRatio (l : List (Nat × Nat)) : Option Ratio :=
  let v := validReplicas l
  if v.length < 2 then none else some (Ratio.median v)

/-- m = 1.08 - r_d (R519). -/
def marginOf (r : Ratio) : Ratio := ⟨27 * (r.den : Int) - 25 * r.num, 25 * r.den⟩
/-- A margin in units of 0.01 %, rounded toward zero. -/
def marginUnits (m : Ratio) : Int := (m.num * 10000).tdiv m.den
/-- Slack of a domain of period `p` ps: p * m / 1.08, rounded toward zero (R519). -/
def slackOf (p m : Ratio) : Int := (p.num * m.num * 100).tdiv (p.den * m.den * 108)
/-- The ageing ratio a = r_d * (1 + 0.006 * (c - c_f)) (R519). -/
def ageRatio (r : Ratio) (code fact : Nat) : Ratio := ⟨r.num * (1000 + 6 * ((code : Int) - fact)), 1000 * r.den⟩
/-- Equivalent age in whole hours, to the nearest (R520 and its example). -/
def ageHours (a : Ratio) : Nat :=
  let x := (a.num - a.den).toNat
  (2 * 10 ^ 9 * x ^ 4 + a.den ^ 4) / (2 * a.den ^ 4)
/-- The least count of codes, up to `most`, for which the margin in units of 0.01 % plus 0.60 % a code reaches `least` (R521). -/
def planStep (m : Ratio) (least : Nat) (most : Nat) : Nat :=
  match (List.range most).find? fun (k : Nat) =>
      decide ((least : Int) * m.den ≤ m.num * 10000 + 60 * ((k + 1 : Nat) : Int) * m.den) with
  | some k => k + 1
  | none => most

/-- Period of GCK `g` of quarter `q` in ps, none while it is off. -/
def Chip.gckPeriod (c : Chip) (q g : Nat) : Option Ratio :=
  let src := c.fld (QC_GCK_SEL.src q g)
  let d : Nat := 2 ^ c.fld (QC_GCK_SEL.div q g)
  if src = 0 then none
  else if src = 5 then some ⟨(10000 * d : Nat), 1⟩
  else
    let k := c.cpllSetting q (src - 1)
    let t : Nat := 10000 * (k.2.1 + 1) * (k.2.2 + 1) * d
    some ⟨(t : Int), k.1⟩

/-- The margin of a domain (R519): the least over the LOADED regions that use it; a region without a margin gives the quarter's
worst (R518). -/
def Chip.domainMargin (c : Chip) (q g : Nat) (ms : List (Option Ratio)) : Option Ratio :=
  if c.fld (QC_GCK_SEL.src q g) = 0 then none
  else
    let worst := Ratio.least (ms.filterMap id)
    let use := (List.range 16).filter fun r => decide (c.rgState (16 * q + r) = 4) && bit (c.fld (RG_GCK_MASK.gck (16 * q + r))) g
    Ratio.least (use.filterMap fun r => match ms.getD r none with | some m => some m | none => worst)

/-- Planning after a measurement (R521, R523), from the quarter's domain margins. -/
def Chip.odPlan (c : Chip) (q : Nat) (dm : List Ratio) : Chip :=
  let code := c.fld (PWR_VCORE.code q)
  let min := c.fld OD_MARGIN_MIN.min
  let low : Option Ratio := (Ratio.least dm).bind fun m => if m.num * 10000 < (min : Int) * m.den then some m else none
  let (c, spent) := match low with
    | none => (c, false)
    | some m =>
      let want := code + planStep m min (c.fld OD_STEP_MAX.codes)
      let c := c.odErr OD_ERR.low_margin q 1
      let p := Nat.min want 24
      let c := if c.fld (OD_PLAN.plan q) < p then (c.put (OD_PLAN.plan q) p).odEvent q 2 else c
      (c, decide (24 < want))
  let c := if spent || decide (code = 24) then c.odErr OD_ERR.exhausted q 4 else c
  let c := if dm.any fun m => decide (m.num ≤ 0) then c.odErr OD_ERR.negative q 5 else c
  c.odShow

/-- A measurement of quarter `q` ends (R518 to R520): `reps` the delay and factory delay of each path replica, four to a region;
`rings` the eight ring frequencies in kHz; `temp` the die temperature; `dlm` the drifts of the delay lines. -/
def Chip.odDone (c : Chip) (q : Nat) (reps : List (Nat × Nat)) (rings : List Nat) (temp : Int) (dlm : List Int) : Chip :=
  if !bit (c.fld OD_STATUS.measuring) q then c else
  let c := c.put OD_STATUS.measuring (withBit (c.fld OD_STATUS.measuring) q false)
  let med := Ratio.median (rings.map fun (f : Nat) => ⟨(f : Int), 1⟩)
  let off (i : Nat) : Bool := Ratio.apart ⟨rings.getD i 0, 1⟩ med
  let c := c.each (List.range 8) fun c i => (c.put (OD_RO_FREQ.khz q i) (rings.getD i 0)).putB (OD_RO_FREQ.discarded q i) (off i)
  let four (r : Nat) := (reps.drop (4 * r)).take 4
  let lost := (List.range 16).any fun r => decide ((validReplicas (four r)).length < (four r).length)
  let ratios := (List.range 16).map fun r => regionRatio (four r)
  let ms := ratios.map fun x => x.map marginOf
  let c := c.each (List.range 16) fun c r =>
    match ms.getD r none with
    | some m => (c.putS (OD_RMARGIN.margin q r) (marginUnits m)).put (OD_RMARGIN.valid q r) 1
    | none => (c.put (OD_RMARGIN.margin q r) 0).put (OD_RMARGIN.valid q r) 0
  let c := match Ratio.least (ms.filterMap id) with
    | some m => c.putS (OD_Q_MARGIN.margin q) (marginUnits m)
    | none => c.put (OD_Q_MARGIN.margin q) 0
  let code := c.fld (PWR_VCORE.code q)
  let ages := (ratios.filterMap id).map fun r => ageRatio r code (c.fld (OD_PLAN.fact q))
  let c := c.put (OD_Q_AGE.hours q) (ages.foldl (fun m a => Nat.max m (satN 32 (ageHours a))) 0)
  let c := c.put2 (OD_Q_STAMP_LO.stamp_lo q) (OD_Q_STAMP_HI.stamp_hi q) (recStamp c.now)
  let c := c.putS (OD_Q_TEMP.temp q) temp
  let dom (g : Nat) := c.domainMargin q g ms
  let c := c.each (List.range 16) fun c g =>
    let c := c.putS (OD_DLM.drift q g) (dlm.getD g 0)
    match c.domainMargin q g ms, c.gckPeriod q g with
    | some m, some p => (c.putS (OD_GMARGIN.ps q g) (slackOf p m)).put (OD_GMARGIN.valid q g) 1
    | _, _ => (c.put (OD_GMARGIN.ps q g) 0).put (OD_GMARGIN.valid q g) 0
  let c := c.onOd fun o => { o with last := Tab.set 0 o.last q c.now }
  let c := if lost || (List.range 8).any off then c.odErr OD_ERR.sensor q 7 else c
  c.odPlan q ((List.range 16).filterMap dom)

/-- OD_MEASURE_DONE (R519). -/
def execOdMeasureDone (q : Fin 4) (reps : List (Nat × Nat)) (rings : List Nat) (temp : Int) (dlm : List Int) (s : State) : Res :=
  s.on (·.odDone q reps rings temp dlm)

/-- Firmware stores a quarter's code and equivalent age (R520). -/
def Chip.odStore (c : Chip) (q : Nat) : Chip :=
  let v := (c.fld (PWR_VCORE.code q), c.fld (OD_Q_AGE.hours q))
  c.onOd fun o => { o with stored := Tab.set none o.stored q (some v) }
/-- OD_STORE (R520): the 24 h store of every quarter. -/
def execOdStore (s : State) : Res := s.on fun c => c.each (List.range 4) (·.odStore ·)

/-- The voltage changes of a crossing's step 7 (R522): a measurement in progress is abandoned; returns the quarters changed. -/
def Chip.odApply (c : Chip) : Chip × List Nat :=
  let qs := (List.range 4).filter fun q =>
    decide (c.fld (PWR_VCORE.code q) < c.fld (OD_PLAN.plan q)) && !bit (c.fld OD_CTRL.lock) q && !c.offline q
  let c := c.each qs fun c q =>
    (((c.odAbandon q).put (PWR_VCORE.code q) (c.fld (OD_PLAN.plan q))).odEvent q 3).odStore q
  (c.odShow, qs)

/-- SEALED and cold start (R521, R525): every margin reads valid 0; the rail and the plan start at the stored code, or at c_f;
the first measurement is due at the first window. -/
def Chip.odStart (c : Chip) : Chip :=
  let c := c.each (List.range 4) fun c q =>
    let code := match Tab.get none c.od.stored q with | some v => v.1 | none => c.fld (OD_PLAN.fact q)
    let c := (c.put (PWR_VCORE.code q) code).put (OD_PLAN.plan q) code
    let c := c.put (OD_Q_MARGIN.margin q) 0
    c.each (List.range 16) fun c r =>
      (((c.put (OD_RMARGIN.margin q r) 0).put (OD_RMARGIN.valid q r) 0).put (OD_GMARGIN.ps q r) 0).put (OD_GMARGIN.valid q r) 0
  (c.onOd fun o => { o with due := List.range 4 }).odShow

end Sys2Proof.Machine
end

