-- ==== Sys2Proof/Machine/Crossing.lean ====
section
/-! DEFINITION. Crossings (03 R87 to R91): the steps of Table 3.7, the batch summary of Table 3.8, and the strobes and edges still
scheduled when the legs of a quarter end together. -/

namespace Sys2Proof.Machine

/-- The strobes a group still has scheduled are taken, with the levels given for them in order; a strobe without any takes free
levels. -/
def Chip.takeStrobes (c : Chip) (g : Nat) (ls : List Levels) : Chip :=
  let mine := ls.filter fun l => l.group = g
  let n := (c.group g).strobes.length
  c.each (List.range n) fun c i =>
    match mine[i]? with
    | some l => c.compareStrobe g l.cmph l.cmpl l.rctl l.win
    | none =>
      let f := Config.freeLevels c.free
      { c with free := c.free + 1 }.compareStrobe g (bits f 0 16) (bits f 16 16) (bits f 32 8) []

/-- Every edge a group still has scheduled is placed; reflex actions still held lapse (07 R170). -/
def Chip.placeEdges (c : Chip) (g : Nat) : Chip :=
  let c := c.each (List.range 16) fun c k =>
    ((c.group g).chan k).sched.foldl (fun c _ => c.driveEdge (16 * g + k)) c
  c.setGroup g { c.group g with chans := (c.group g).chans.map fun e => (e.1, { e.2 with held := none }) }

/-- Any edge or strobe of the group is still scheduled, or a leg runs. -/
def Chip.groupBusy (c : Chip) (g : Nat) : Bool :=
  let p := c.group g
  p.leg.isSome || !p.strobes.isEmpty || p.chans.any fun e => !e.2.sched.isEmpty || e.2.held.isSome

/-- Steps 2 and 3 of a crossing for one group: its last strobes and edges, its leg cut at the boundary, its idle levels; a hold that
a crossing ends returns to IDLE (07 R172 rows 12 and 13). -/
def Chip.crossGroup (c : Chip) (ls : List Levels) (g : Nat) : Chip :=
  let c := if c.groupBusy g then (((c.takeStrobes g ls).placeEdges g).finishLeg g true).placeEdges g else c
  if c.gstate g = 4 ∧ [1, 4, 5, 6, 7].contains (c.fld (PGR_STATUS.hold_cause g)) then c.toIdle g else c

/-- The batch summary (R88 Table 3.8) of the batch that ends, for a crossing started at `x`. -/
def Chip.summary (c : Chip) (x : Nat) : List Nat :=
  let b := c.lq.batch
  let batch := c.fld LQ_BATCH.batch
  let open_ := if batch = 0 ∧ b.openStamp < c.mp.lastStep then c.mp.lastStep else b.openStamp
  let q4 (f : Nat → Fld) (n : Nat) := (List.range 4).flatMap fun q => bytesLE n (c.fld (f q))
  let level := ((List.range 4).map c.flLevel).sum
  let flags := ofBool b.outOfTol + 2 * ofBool b.stepped + 4 * ofBool b.absorbed + 8 * ofBool b.unaligned +
    16 * c.fld ID_QUARTERS.offline
  let body := bytesLE 4 batch ++ bytesLE 2 (c.fld HY_SELF.tile) ++ bytesLE 2 (c.fld MP_EPOCH.epoch) ++ bytesLE 16 open_ ++
    bytesLE 16 x ++ bytesLE 16 c.now ++ bytesLE 4 b.legs ++ bytesLE 4 b.legsCut ++ bytesLE 4 b.executed ++ bytesLE 4 b.late ++
    bytesLE 4 b.rejected ++ bytesLE 4 b.refusedC ++ q4 FL_REC_CNT.count 4 ++ q4 FL_OVF_CNT.count 2 ++
    bytesLE 4 (((List.range 4).map fun q => c.fld (FL_TAINT_CNT.count q)).sum) ++ bytesLE 4 flags ++
    bytesLE 8 (maskOf c.marks) ++ bytesLE 4 ((level + 1023) / 1024)
  body ++ bytesLE 4 (crc32c body)

/-- Step 5 (R88): the summary is held in LQ_LAST_SUM and written to its slot; `resp` answers the write. -/
def Chip.sumWrite (c : Chip) (x : Nat) (resp : Resp) : Chip :=
  let s := c.summary x
  let c := c.each (List.range 32) fun c w => c.put (LQ_LAST_SUM.sum w) (numLE ((s.drop (4 * w)).take 4))
  let batch := c.fld LQ_BATCH.batch
  let n := c.fld LQ_SUM_COUNT.count
  if n = 0 then (c.put LQ_ERR.no_summary 1).raise 47 0 [batch, 0, 0]
  else
    let a := c.fld2 LQ_SUM_BASE_LO.base_lo LQ_SUM_BASE_HI.base_hi + batch % n * 128
    let c := c.emit (.dramWrite .hub a s)
    (c.doIf (decide (resp ≠ .ok)) (·.put LQ_ERR.sum_write 1)).raise 47 0 [batch, a, respCode resp]

/-- Step 6 (R90 Table 3.9): the per-batch state is cleared. -/
def Chip.crossClear (c : Chip) : Chip :=
  let c := c.each (List.range 4) (·.flClear ·)
  let c := c.each (List.range 72) fun c n => if c.fld (STR_STATUS.state n) = 0 then c else c.strLoad n
  let c := c.each (List.range 64) fun c g =>
    let c := (c.apgEmpty g).put (FAB_REFLEX_FLAGS.flags g) 0
    let c := c.setArmed g 0
    if c.gstate g = 2 then c.groupTo g 1 0 else c
  { c with marks := [], lq := { c.lq with batch := {} } }

/-- The measurement a voltage change or a wake takes of a group (07 R178, R180, R182), where the command brings it. -/
def Chip.calGroup (c : Chip) (cals : List GroupCal) (g : Nat) : Chip :=
  match cals.find? fun x => x.group = g with
  | some x => (c.setGroup g { c.group g with temp := x.temp, measuring := false, heldCal := none }).applyCal g x.temp x.trims
  | none => c.setGroup g { c.group g with measuring := true }

/-- Step 7's voltage changes (24 R522): the groups of each quarter changed take one measurement and apply it (07 R182). -/
def Chip.crossVolts (c : Chip) (cals : List GroupCal) : Chip :=
  let (c, qs) := c.odApply
  c.each (qs.flatMap fun q => (List.range 16).map fun g => 16 * q + g) (·.calGroup cals ·)

/-- Step 8 (R89): held entries are released in queue order and judged; event 50 when there are any. -/
def Chip.heldRelease (c : Chip) : Chip :=
  let held := if c.flag LQ_CTRL.en then c.lq.entries.filter fun e =>
      c.domainsRun e.action e.arg && (match e.instant with | some i => decide (i ≤ c.now) | none => false)
    else []
  let free (e : LqEntry) : LqEntry := if held.contains e then { e with rel := some c.now } else e
  let c := { c with lq := { c.lq with entries := c.lq.entries.map free } }
  let sorted := held.foldr (fun e l => (l.filter fun x => x.before e) ++ e :: l.filter fun x => !x.before e) []
  let (c, n) := sorted.foldl (fun (acc : Chip × Nat) e =>
    let e := free e
    let late := c.now - e.t
    if c.fld LQ_LATE_TOL.tol < late then (acc.1.rejectLate e late, acc.2 + 1)
    else if !c.inTol && c.flag LQ_CTRL.reject_untol then (acc.1.rejectUntol e, acc.2 + 1)
    else acc) (c, 0)
  if held.isEmpty then c else c.raise 50 0 [held.length, n]

/-- A crossing started at `x` ends (Table 3.7 step 8): the batch number increments, the new batch opens at this instant. -/
def Chip.crossEnd (c : Chip) (x : Nat) : Chip :=
  let c := ((c.put LQ_STATUS.xstate 0).incWrap LQ_BATCH.batch).put LQ_XING_TIME.time ((c.now - x) / nsMT)
  let c := { c with lq := { c.lq with crossing := none } }
  let c := c.onBatch fun b => { b with openStamp := c.now, outOfTol := !c.inTol }
  c.heldRelease

/-- Steps 1 to 7 of a crossing started at `x` (Table 3.7). Step 7 samples plans and locks, and applies Milepost's pending step. -/
def Chip.crossBegin (c : Chip) (x : Nat) (ls : List Levels) (cals : List GroupCal) (resp : Resp) : Chip :=
  let c := (c.put LQ_STATUS.xstate 1).raiseAt 46 0 x [c.fld LQ_BATCH.batch]
  let cut (q : Nat) := maskOf ((List.range 16).filter fun g => (c.group (16 * q + g)).leg.isSome)
  let cuts := (List.range 4).map fun q => (q, cut q)
  let c := c.each (List.range 64) (·.crossGroup ls ·)
  let c := c.each (cuts.filter fun e => e.2 ≠ 0) fun c e => c.raise 48 0 [e.1, e.2]
  let c := c.each (List.range 4) fun c q => if c.offline q then c else c.flCrossing q
  let c := (c.put LQ_STATUS.xstate 2).sumWrite x resp
  let c := (c.put LQ_STATUS.xstate 3).crossClear
  let c := ((c.put LQ_STATUS.xstate 4).crossVolts cals).applyPending
  { c with lq := { c.lq with crossing := some x } }

/-- The crossing in progress ends unless an absorption holds its step 7 (R53); crossings waiting follow, at most `n` (R87). -/
def Chip.crossOn (c : Chip) (cals : List GroupCal) (resp : Resp) : Nat → Chip
  | 0 => c
  | n + 1 =>
    match c.lq.crossing with
    | none => c
    | some x =>
      if c.mp.absorb.isSome then c
      else
        let c := c.crossEnd x
        if c.lq.waiting = 0 then c
        else
          let c := { c with lq := { c.lq with waiting := c.lq.waiting - 1 } }
          Chip.crossOn (c.crossBegin c.now [] cals resp) cals resp n

/-- A crossing whose execution instant is `x` (R87). -/
def Chip.cross (c : Chip) (x : Nat) (ls : List Levels) (cals : List GroupCal) (resp : Resp) : Chip :=
  (c.crossBegin x ls cals resp).crossOn cals resp (c.lq.waiting + 1)

/-- CROSSING (R87). -/
def execCrossing (ls : List Levels) (cals : List GroupCal) (resp : Resp) (s : State) : Res :=
  s.on (·.runEntry 7 fun c _ i => c.cross i ls cals resp)

/-- LQ_CMD.crossing_now (R87): a crossing at once, or one more after those running or waiting. -/
def Chip.crossingNow (c : Chip) (ls : List Levels) (cals : List GroupCal) (resp : Resp) : Chip :=
  if !c.tileUp || c.pwr.mark.isSome then c
  else if c.lq.crossing.isSome then { c with lq := { c.lq with waiting := c.lq.waiting + 1 } }
  else c.cross c.now ls cals resp
/-- CROSSING_NOW (R87). -/
def execCrossingNow (ls : List Levels) (cals : List GroupCal) (resp : Resp) (s : State) : Res := s.on (·.crossingNow ls cals resp)

/-- ABSORB_COMPLETE (02 R53): the counter has lost the absorption's size; event 34, and the crossing that waits for it ends. -/
def execAbsorbComplete (cals : List GroupCal) (resp : Resp) (s : State) : Res := s.on fun c =>
  match c.mp.absorb with
  | some a => if a.left = 0 then (c.endAbsorb a).crossOn cals resp (c.lq.waiting + 1) else c
  | none => c

/-- The power-fail mark stops a crossing (R91): no further one starts. -/
def Chip.crossStop (c : Chip) : Chip :=
  { c with lq := { c.lq with crossing := none, waiting := 0 } }.put LQ_STATUS.xstate 0

end Sys2Proof.Machine
end

