-- ==== Sys2Proof/Machine/Dma.lean ====
section
/-! DEFINITION. The DMA engine (15 R352 to R363): choice of the next descriptor, units of work, tile and host requests and their
answers, reshuffling, draining fail data, commands, and T2-compatible mode. -/

namespace Sys2Proof.Machine

/-- Symbol width w' of a descriptor in bits (Table 15.3). -/
def Desc.symW (d : Desc) : Nat := 2 ^ (d.params % 4)
/-- Streams S. -/
def Desc.streams (d : Desc) : Nat := 2 ^ bits d.params 4 3
/-- Grain g in bytes. -/
def Desc.grain (d : Desc) : Nat := 2 ^ (bits d.params 8 4 + 6)
/-- Stride in bytes. -/
def Desc.stride (d : Desc) : Nat := bits d.params 32 32

/-- The source is tile DRAM. -/
def Desc.srcTile (d : Desc) : Bool := d.op = 2 || d.op = 3 || d.op = 4
/-- The destination is tile DRAM. -/
def Desc.dstTile (d : Desc) : Bool := d.op = 1 || d.op = 3

/-- End of the host addresses a side covers: contiguous, or in the planes or streams of a shuffle (Table 15.8). -/
def Desc.hostEnd (d : Desc) : Nat :=
  let many (a k : Nat) := a + (k - 1) * d.stride + d.len / k
  if d.op = 1 then
    (if d.shuffle = 1 then many d.src 16 else if d.shuffle = 3 then many d.src d.streams else d.src + d.len)
  else if d.op = 2 ∨ d.op = 4 then
    (if d.shuffle = 2 then many d.dst 16 else if d.shuffle = 4 then many d.dst d.streams else d.dst + d.len)
  else 0

/-- R355, R356, Table 15.8: the descriptor breaks a rule. -/
def Desc.bad (d : Desc) : Bool :=
  let sh := d.shuffle
  let tiles := (if d.srcTile then [d.src] else []) ++ (if d.dstTile then [d.dst] else [])
  decide (5 ≤ d.op) || decide (5 ≤ sh) || (decide (sh ≠ 0) && (d.op = 0 || d.op = 4)) ||
    (decide (sh = 1 ∨ sh = 2) && (decide (d.params % 4 = 3) || decide (d.len % 64 ≠ 0) || decide (d.stride % 4 ≠ 0) ||
      decide (d.stride < d.len / 16) || tiles.any fun a => a % 64 ≠ 0)) ||
    (decide (sh = 3 ∨ sh = 4) && (decide (bits d.params 4 3 = 0) || decide (3 < bits d.params 4 3) || decide (10 < bits d.params 8 4) ||
      decide (d.len % (d.streams * d.grain) ≠ 0) || decide (d.stride < d.len / d.streams))) ||
    decide (2 ^ 64 < d.hostEnd) || (d.op = 4 && decide (d.len < 32))

/-- First byte of unit `u`, counted in the transfer: an unshuffled transfer is cut at the line boundaries of its tile side, a
shuffled one every 64 bytes. -/
def DmaRun.offset (x : DmaRun) (u : Nat) : Nat :=
  let a := if x.desc.op = 1 then x.desc.dst else if x.desc.op = 4 then x.pos else x.desc.src
  if x.desc.shuffle ≠ 0 ∨ u = 0 then 64 * u else 64 * u - a % 64
/-- Bytes of unit `u`. -/
def DmaRun.size (x : DmaRun) (u : Nat) : Nat := min (x.offset (u + 1)) x.total - x.offset u

/-- Where 64 bytes of planes lie from byte 4u of each (TRANSPOSE and UNTRANSPOSE). -/
def Desc.planes (d : Desc) (a u : Nat) : List (Nat × Nat) := (List.range 16).map fun k => (a + k * d.stride + 4 * u, 4)
/-- Where 64 bytes of interleaved streams lie. -/
def Desc.stream (d : Desc) (a u : Nat) : List (Nat × Nat) :=
  let i := 64 * u / d.grain
  [(a + i % d.streams * d.stride + i / d.streams * d.grain + 64 * u % d.grain, 64)]

/-- Source bytes of unit `u` (Table 15.8, R360): addresses and lengths. -/
def Chip.srcPieces (c : Chip) (x : DmaRun) (u : Nat) : List (Nat × Nat) :=
  let d := x.desc
  if d.op = 4 then
    let q := d.src % 4
    let base := c.act (FL_BUF_BASE_LO.base_lo q) + 2 ^ 32 * c.act (FL_BUF_BASE_HI.base_hi q)
    [(base + (x.pos + x.offset u) % 2 ^ c.act (FL_BUF_SIZE.log2 q), x.size u)]
  else if d.shuffle = 1 then d.planes d.src u
  else if d.shuffle = 3 then d.stream d.src u
  else [(d.src + x.offset u, x.size u)]
/-- Destination bytes of unit `u`. -/
def DmaRun.dstPieces (x : DmaRun) (u : Nat) : List (Nat × Nat) :=
  let d := x.desc
  if d.shuffle = 2 then d.planes d.dst u else if d.shuffle = 4 then d.stream d.dst u else [(d.dst + x.offset u, x.size u)]

/-- 32 / w' symbols of each of 16 planes placed in vectors (Table 15.8 TRANSPOSE), as numbers of 512 bits. -/
def transpose (w planes : Nat) : Nat :=
  ((List.range (32 / w)).flatMap fun v => (List.range 16).map fun k =>
    bits planes (32 * k + v * w) w * 2 ^ (v * 16 * w + k * w)).foldl (· + ·) 0
/-- The reverse (UNTRANSPOSE). -/
def untranspose (w vecs : Nat) : Nat :=
  ((List.range (32 / w)).flatMap fun v => (List.range 16).map fun k =>
    bits vecs (v * 16 * w + k * w) w * 2 ^ (32 * k + v * w)).foldl (· + ·) 0
/-- The bytes of a unit as they are delivered. -/
def Desc.reshuffle (d : Desc) (bs : List Nat) : List Nat :=
  if d.shuffle = 1 then bytesLE 64 (transpose d.symW (numLE bs))
  else if d.shuffle = 2 then bytesLE 64 (untranspose d.symW (numLE bs)) else bs

/-- Ask for the source bytes of the present unit. -/
def Chip.dmaRead (c : Chip) (n : Nat) (x : DmaRun) : Chip × DmaRun :=
  (c.srcPieces x x.unit).foldl (fun (p : Chip × DmaRun) (a : Nat × Nat) =>
    if x.desc.srcTile then
      (linesOf a.1 a.2).foldl (fun (p : Chip × DmaRun) l =>
        let lo := max a.1 l
        (p.1.emit (.dramRead (.dma n) l 64),
          { p.2 with wait := p.2.wait ++ [.read l (lo - l) (min (a.1 + a.2) (l + 64) - lo)] })) p
    else (p.1.hostSend (.hostRead a.1 a.2), { p.2 with wait := p.2.wait ++ [.host a.2] })) (c, x)

/-- Deliver the bytes of the present unit. -/
def Chip.dmaWrite (c : Chip) (n : Nat) (x : DmaRun) : Chip × DmaRun :=
  let bs := x.desc.reshuffle x.got
  let seg (o : Nat) (a : Nat × Nat) := (bs.drop o).take a.2
  let cut := (x.dstPieces x.unit).foldl (fun (p : Nat × List (Nat × List Nat)) a => (p.1 + a.2, p.2 ++ [(a.1, seg p.1 a)])) (0, [])
  cut.2.foldl (fun (p : Chip × DmaRun) (w : Nat × List Nat) =>
    if x.desc.dstTile then
      (linesOf w.1 w.2.length).foldl (fun (p : Chip × DmaRun) l =>
        let lo := max w.1 l
        let part := (w.2.drop (lo - w.1)).take (l + 64 - lo)
        (p.1.emit (if x.ep then .dramPoison (.dma n) lo part else .dramWrite (.dma n) lo part),
          { p.2 with wait := p.2.wait ++ [.write l] })) p
    else (p.1.hostSend (.hostWrite w.1 w.2), p.2)) (c, { x with got := [] })

/-- The descriptor ends with a status. -/
def Chip.runEnd (c : Chip) (x : DmaRun) (code : Nat) : DmaRun := { x with status := some code, stamp := recStamp c.now, wait := [] }

/-- A unit is delivered: the next one starts, or the descriptor ends (R354, R355). -/
def Chip.unitDone (c : Chip) (n : Nat) (x : DmaRun) : Chip × DmaRun :=
  let k := x.size x.unit
  let c := c.addSat (DMA_BYTES_CNT.count n) k
  let x := { x with bytes := x.bytes + k, unit := x.unit + 1 }
  if x.ep then (c, c.runEnd x 8)
  else if x.offset x.unit < x.total then c.dmaRead n x else (c, c.runEnd x 1)

/-- The status a tile response gives a descriptor (Table 15.6). -/
def dmaCode : Resp → Nat
  | .ok => 1
  | .poison => 3
  | .timeout => 4
  | .denied => 5
  | .decode => 6
  | .closed => 7

/-- The failing tile line of a channel (R355), held until DMA_ERR.halted is clear. -/
def Chip.dmaFault (c : Chip) (n line : Nat) (resp : Resp) : Chip :=
  if c.flag (DMA_FAULT_HI.valid n) then c
  else ((c.put2 (DMA_FAULT_LO.addr_lo n) (DMA_FAULT_HI.addr_hi n) line).put (DMA_FAULT_HI.resp n) (respCode resp)).put
    (DMA_FAULT_HI.valid n) 1

/-- The oldest request of a run is answered (R355). -/
def Chip.runAnswer (c : Chip) (n : Nat) (x : DmaRun) (ans : DmaAns) : Chip × DmaRun :=
  match x.status, x.wait, ans with
  | none, .read l skip k :: rest, .tile resp data =>
    if resp = .ok then
      let x := { x with got := x.got ++ ((lineBytes data.toNat).drop skip).take k, wait := rest }
      if rest.isEmpty then
        let (c, x) := c.dmaWrite n x
        if x.wait.isEmpty then c.unitDone n x else (c, x)
      else (c, x)
    else (c.dmaFault n l resp, c.runEnd x (dmaCode resp))
  | none, .write l :: rest, .tile resp _ =>
    if resp = .ok then
      let x := { x with wait := rest }
      if rest.isEmpty then c.unitDone n x else (c, x)
    else (c.dmaFault n l resp, c.runEnd x (dmaCode resp))
  | none, .host k :: rest, .host ok ep data =>
    if ok then
      let x := { x with got := x.got ++ bytesLE k data, wait := rest, ep := x.ep || ep }
      if rest.isEmpty then
        let (c, x) := c.dmaWrite n x
        if x.wait.isEmpty then c.unitDone n x else (c, x)
      else (c, x)
    else (c.put HIF_ERR.host_cpl 1, c.runEnd x 8)
  | _, _, _ => (c, x)

/-- Drain pointer of a channel for a quarter (R360). -/
def Chip.drainPtr (c : Chip) (n q : Nat) : Nat := c.fld2 (DMA_DRAIN_LO.drain_lo n q) (DMA_DRAIN_HI.drain_hi n q)
/-- Set it; once everything written is delivered, its age starts anew. -/
def Chip.setDrain (c : Chip) (n q v : Nat) : Chip :=
  let c := c.put2 (DMA_DRAIN_LO.drain_lo n q) (DMA_DRAIN_HI.drain_hi n q) v
  if c.flWr q ≤ v then c.onDma n fun y => { y with aged := y.aged.filter (· ≠ q) } else c

/-- Error bits, event and halt of a channel whose descriptor ended with neither OK nor EMPTY (R355); a FAIL descriptor's drain
pointer stands where delivery stopped. -/
def Chip.afterEnd (c : Chip) (n slot : Nat) (x : DmaRun) : Chip :=
  match x.status with
  | none => c
  | some code =>
    if code = 1 ∨ code = 2 then c
    else
      let q := x.desc.src % 4
      let c := if x.desc.op = 4 ∧ x.total ≠ 0 then c.setDrain n q (x.pos + x.bytes) else c
      let c := c.onDma n fun y => { y with failQ := if x.desc.op = 4 then some q else none }
      let c := c.dmaHalt n slot x.entry code
      let c := c.doIf (decide (code = 9)) (·.put (DMA_ERR.bad_desc n) 1)
      let c := c.doIf (decide (code = 8)) (·.put (DMA_ERR.host_err n) 1)
      c.errEvt (DMA_ERR.halted n) (dmaEvent n) 1
        [n, 4 * n + slot, x.entry, code, c.fld2 (DMA_FAULT_LO.addr_lo n) (DMA_FAULT_HI.addr_hi n), c.fld (DMA_FAULT_HI.resp n)]

/-- A ring of the channel has a descriptor that has not ended. -/
def Chip.dmaBusy (c : Chip) (n : Nat) : Bool :=
  (List.range 4).any fun i => (c.ring (4 * n + i)).runs.any fun x => x.status.isNone

/-- Channel state after something ended (R357): ACTIVE, PACING or IDLE; OFF when en was cleared and nothing executes. -/
def Chip.dmaShow (c : Chip) (n : Nat) : Chip :=
  let st := c.fld (DMA_STATUS.state n)
  if st = 0 ∨ st = 3 ∨ st = 5 then c
  else if c.dmaBusy n then c.put (DMA_STATUS.state n) 2
  else if (c.dma n).stopping then (c.onDma n fun y => { y with stopping := false }).put (DMA_STATUS.state n) 0
  else c.put (DMA_STATUS.state n) (if (c.dma n).waits.isEmpty then 1 else 4)

/-- A T2 transfer ends (R363): end of count, code, interrupt vector. -/
def Chip.t2End (c : Chip) (n : Nat) (x : DmaRun) : Chip :=
  match x.status with
  | none => c.onDma n fun y => { y with t2 := some x }
  | some code =>
    let c := c.onDma n fun y => { y with t2 := none }
    let c := ((c.put (DMA_T2_STATUS.eoc n) 1).put (DMA_T2_STATUS.code n) code).askVector (c.fld (DMA_T2_VEC.vector n))
    if (c.dma n).stopping then (c.onDma n fun y => { y with stopping := false }).put (DMA_STATUS.state n) 0
    else c.put (DMA_STATUS.state n) 1

/-- DMA_DATA_RESPONSE (R355): the oldest request of a descriptor is answered: descriptor `i` of ring `slot` of channel `n`, or
its T2 transfer (slot 4). -/
def Chip.dmaData (c : Chip) (n slot i : Nat) (ans : DmaAns) : Chip :=
  if slot = 4 then
    match (c.dma n).t2 with
    | none => c
    | some x =>
      let (c, x) := c.runAnswer n x ans
      c.t2End n x
  else
    let r := 4 * n + slot
    match (c.ring r).runs[i]? with
    | none => c
    | some x =>
      let (c, y) := c.runAnswer n x ans
      let c := c.onRing r fun g => { g with runs := g.runs.set i y }
      (if x.status.isNone then c.afterEnd n slot y else c).dmaShow n

/-- DMA_DATA_RESPONSE (R355). -/
def execDmaDataResponse (n : Fin 64) (slot : Fin 5) (i : Nat) (ans : DmaAns) (s : State) : Res := s.on (·.dmaData n slot i ans)

/-- COMPLETION_TIMEOUT (R355): the oldest request of a descriptor is a host read that gets no completion in time. -/
def execCompletionTimeout (n : Fin 64) (slot : Fin 5) (i : Nat) (s : State) : Res := s.on (·.dmaData n slot i (.host false false 0))

/-- A ring of a channel has a descriptor that may start: fetched, and for a fence every earlier one written back (R354). -/
def Chip.ringHead (c : Chip) (r : Nat) : Option (Nat × Desc) :=
  if c.ringOn r && decide (c.fld (RING_CFG.kind r) = 0) then
    match (c.ring r).ready with
    | [] => none
    | e :: _ => if bit e.2.word 9 && !(c.ring r).runs.isEmpty then none else some e
  else none

/-- The ring a channel serves next (R358): round-robin by descriptor, passing over those that wait for a drain; for a FAIL
command those come last. -/
def Chip.nextRing (c : Chip) (n : Nat) (fail : Bool) : Option Nat :=
  let order := (List.range 4).map fun i => 4 * n + ((c.dma n).rr + 1 + i) % 4
  let has := order.filter fun r => (c.ringHead r).isSome
  let free := has.filter fun r => !(c.dma n).waits.contains r
  let wait := has.filter fun r => (c.dma n).waits.contains r
  match free, wait with
  | r :: _, [] => some r
  | r :: _, w :: _ => if fail && (match c.ringHead r with | some e => e.2.op ≠ 4 | none => true) then some w else some r
  | [], w :: _ => if fail then some w else none
  | [], [] => none

/-- A run of a descriptor that has not begun. -/
def Chip.newRun (c : Chip) (r n : Nat) (d : Desc) (pos total : Nat) : DmaRun :=
  { entry := n, addr := c.entryAddr r n, desc := d, unit := 0, got := [], wait := [], ep := false, bytes := 0, pos := pos,
    total := total, status := none, stamp := 0 }

/-- The head of a ring starts and its run is put behind the ring's others; the channel follows a run that ended at once. -/
def Chip.addRun (c : Chip) (n r : Nat) (x : DmaRun) : Chip :=
  let c := c.onDma n fun y => { y with rr := r % 4, waits := y.waits.erase r }
  let c := c.onRing r fun g => { g with ready := g.ready.drop 1, runs := g.runs ++ [x] }
  let c := if x.status.isNone then c.put (DMA_STATUS.ring n) (r % 4) else c
  (c.afterEnd n (r % 4) x).dmaShow n

/-- A channel may start a descriptor. -/
def Chip.dmaReady (c : Chip) (n : Nat) : Bool :=
  let st := c.fld (DMA_STATUS.state n)
  c.flag (DMA_CTRL.en n) && !c.flag (DMA_CTRL.t2 n) && (st = 1 || st = 2 || st = 4) && c.pwr.mark.isNone

/-- Start a checked transfer. -/
def Chip.moveStart (c : Chip) (n r : Nat) (x : DmaRun) : Chip :=
  let (c, x) := c.dmaRead n x
  c.addRun n r x

/-- R360: the pacing rule for a FAIL descriptor at the head of its ring. -/
def Chip.failStart (c : Chip) (n r e : Nat) (d : Desc) : Chip :=
  let q := d.src % 4
  let pos := c.drainPtr n q
  let l := c.flWr q - pos
  let go := (c.dma n).draining.contains q || decide (c.fld (DMA_PACE.hi_kib n) * 1024 ≤ l) || (c.log q).forced ||
    (decide (0 < l) && (c.dma n).aged.contains q)
  if go then
    let k := min d.len l / 32 * 32
    let c := c.onLog q fun x => { x with forced := false }
    let stop := decide (l - k < c.fld (DMA_PACE.lo_kib n) * 1024)
    let c := c.onDma n fun y => { y with draining := if stop then y.draining.filter (· ≠ q) else
                                           if y.draining.contains q then y.draining else y.draining ++ [q] }
    let c := c.setDrain n q (pos + k)
    let x := c.newRun r e d pos k
    if k = 0 then c.addRun n r (c.runEnd x 1) else c.moveStart n r x
  else
    (c.onDma n fun y => { y with waits := if y.waits.contains r then y.waits else y.waits ++ [r] }).dmaShow n

/-- The next descriptor of a channel starts, where it is one the command names (R354 to R356). -/
def Chip.dmaStart (c : Chip) (n : Nat) (ops : Nat → Bool) (fail : Bool) : Chip :=
  if !c.dmaReady n then c else
  match c.nextRing n fail with
  | none => c
  | some r =>
    match c.ringHead r with
    | none => c
    | some (e, d) =>
      if !ops d.op then c
      else if d.len = 0 then c.addRun n r (c.runEnd (c.newRun r e d 0 0) 2)
      else if d.bad || (d.op = 4 && decide (c.act (FL_DMA_CH.ch (d.src % 4)) ≠ n)) then
        c.addRun n r (c.runEnd (c.newRun r e d 0 0) 9)
      else if d.op = 0 then c.addRun n r (c.runEnd (c.newRun r e d 0 0) 1)
      else if d.op = 4 then c.failStart n r e d
      else c.moveStart n r (c.newRun r e d 0 d.len)

/-- DESC_NOP (R356). -/
def execDescNop (n : Fin 64) (s : State) : Res := s.on (·.dmaStart n (· = 0) false)
/-- H2T (R354). -/
def execH2t (n : Fin 64) (s : State) : Res := s.on (·.dmaStart n (· = 1) false)
/-- T2H (R354). -/
def execT2h (n : Fin 64) (s : State) : Res := s.on (·.dmaStart n (· = 2) false)
/-- T2T (R354). -/
def execT2t (n : Fin 64) (s : State) : Res := s.on (·.dmaStart n (· = 3) false)
/-- FAIL (R360). -/
def execFail (n : Fin 64) (s : State) : Res := s.on (·.dmaStart n (· = 4) true)
/-- DESC_RESERVED_OP (R355). -/
def execDescReservedOp (n : Fin 64) (s : State) : Res := s.on (·.dmaStart n (5 ≤ ·) false)

/-- DRAIN_WAIT (R360): fail data not yet delivered has waited DMA_PACE_WAIT. -/
def execDrainWait (n : Fin 64) (q : Fin 4) (s : State) : Res := s.on fun c =>
  let add (l : List Nat) : List Nat := if l.contains q.val then l else l ++ [q.val]
  if c.drainPtr n q < c.flWr q then c.onDma n fun y => { y with draining := add y.draining, aged := add y.aged } else c

/-- Descriptors of ring `r` that have not ended end ABORTED with their bytes delivered; a waiting FAIL head with none (R357,
R360). -/
def Chip.abortRing (c : Chip) (n r : Nat) : Chip :=
  let waits := (c.dma n).waits.contains r
  let stopRun (c : Chip) (x : DmaRun) : Chip :=
    if x.status.isNone ∧ x.desc.op = 4 ∧ x.total ≠ 0 then c.setDrain n (x.desc.src % 4) (x.pos + x.bytes) else c
  let c := c.each (c.ring r).runs.reverse stopRun
  let c := c.onRing r fun g => { g with runs := g.runs.map fun x => if x.status.isNone then c.runEnd x 10 else x }
  if waits then
    match c.ringHead r with
    | some (e, d) =>
      let c := c.onDma n fun y => { y with waits := y.waits.erase r }
      c.onRing r fun g => { g with ready := g.ready.drop 1, runs := g.runs ++ [c.runEnd (c.newRun r e d (c.drainPtr n (d.src % 4)) 0) 10] }
    | none => c
  else c

/-- Every executing or waiting descriptor of a channel is ended ABORTED, and the channel halts at the first (R355, R357). -/
def Chip.dmaAbortAll (c : Chip) (n : Nat) : Chip :=
  let hit := (List.range 4).filter fun i =>
    (c.ring (4 * n + i)).runs.any (fun x => x.status.isNone) || (c.dma n).waits.contains (4 * n + i)
  let c := c.each hit fun c i => c.abortRing n (4 * n + i)
  match hit with
  | [] => c
  | i :: _ =>
    match (c.ring (4 * n + i)).runs.find? fun x => x.status = some 10 with
    | some x => c.afterEnd n i { x with total := 0 }
    | none => c

/-- DMA_CMD.abort (R357). -/
def Chip.dmaAbort (c : Chip) (n : Nat) : Chip :=
  let st := c.fld (DMA_STATUS.state n)
  if st = 2 ∨ st = 4 then c.dmaAbortAll n
  else if st = 5 then
    match (c.dma n).t2 with
    | some x => c.t2End n (c.runEnd x 10)
    | none => c
  else c.put (DMA_ERR.bad_value n) 1

/-- DMA_ABORT (R357). -/
def execDmaAbort (n : Fin 64) (s : State) : Res := s.on (·.dmaAbort n)

/-- DMA_CMD.restart (R357). -/
def Chip.dmaRestart (c : Chip) (n : Nat) : Chip :=
  if c.fld (DMA_STATUS.state n) = 3 then ((c.onDma n fun y => { y with failQ := none }).put (DMA_STATUS.state n) 1).dmaShow n
  else c.put (DMA_ERR.bad_value n) 1

/-- DMA_RESTART (R357). -/
def execDmaRestart (n : Fin 64) (s : State) : Res := s.on (·.dmaRestart n)

/-- DMA_CMD.skip (R357). -/
def Chip.dmaSkip (c : Chip) (n : Nat) : Chip :=
  match c.fld (DMA_STATUS.state n), (c.dma n).failQ with
  | 3, some q => c.setDrain n q ((c.drainPtr n q / 64 + 1) * 64)
  | _, _ => c.put (DMA_ERR.bad_value n) 1

/-- DMA_SKIP (R357). -/
def execDmaSkip (n : Fin 64) (s : State) : Res := s.on (·.dmaSkip n)

/-- The transfer DMA_T2 registers name (R363). -/
def Chip.t2Desc (c : Chip) (n : Nat) : Desc :=
  ⟨c.fld2 (DMA_T2_SRC_LO.lo n) (DMA_T2_SRC_HI.hi n), c.fld2 (DMA_T2_DST_LO.lo n) (DMA_T2_DST_HI.hi n),
   c.fld (DMA_T2_COUNT.count n), c.fld (DMA_T2_OP.op n), c.fld2 (DMA_T2_PARAM_LO.lo n) (DMA_T2_PARAM_HI.hi n), 0, true⟩

/-- DMA_CMD.t2_start (R363). -/
def Chip.t2Start (c : Chip) (n : Nat) : Chip :=
  if !c.flag (DMA_CTRL.t2 n) || decide (c.fld (DMA_STATUS.state n) ≠ 1) then c.put (DMA_ERR.bad_value n) 1
  else
    let d := c.t2Desc n
    let x := c.newRun (4 * n) 0 d 0 d.len
    let c := c.put (DMA_STATUS.state n) 5
    if d.len = 0 then c.t2End n (c.runEnd x 2)
    else if d.bad ∨ d.op = 4 then c.t2End n (c.runEnd x 9)
    else if d.op = 0 then c.t2End n (c.runEnd x 1)
    else
      let (c, x) := c.dmaRead n x
      c.t2End n x

/-- T2_START (R363). -/
def execT2Start (n : Fin 64) (s : State) : Res := s.on (·.t2Start n)

/-- A write of DMA_CTRL (R357, R363). -/
def Chip.dmaCtrl (c : Chip) (n v : Nat) : Chip :=
  let st := c.fld (DMA_STATUS.state n)
  let was := c.flag (DMA_CTRL.en n)
  let t2 := bit v 1
  let c := if t2 = c.flag (DMA_CTRL.t2 n) then c
    else if st = 0 ∨ st = 1 then c.putB (DMA_CTRL.t2 n) t2 else c.put (DMA_ERR.bad_value n) 1
  let c := ((c.put (DMA_CTRL.weight n) (v / 4)).putB (DMA_CTRL.ro n) (bit v 4)).putB (DMA_CTRL.en n) (bit v 0)
  if bit v 0 && !was then
    let c := c.onDma n fun y => { y with stopping := false }
    if st = 0 then (c.put (DMA_STATUS.state n) 1).dmaShow n else c
  else if !bit v 0 && was then
    if st = 2 ∨ st = 5 then c.onDma n fun y => { y with stopping := true }
    else if st = 4 then (c.dmaAbortAll n).put (DMA_STATUS.state n) 0
    else c.put (DMA_STATUS.state n) 0
  else c

/-- DMA_CTRL_WRITE (R357). -/
def execDmaCtrlWrite (n : Fin 64) (v : Word) (s : State) : Res := s.on (·.dmaCtrl n v.toNat)

/-- A channel is ACTIVE or T2_BUSY: Signpost keeps the tile in RUN (R365). -/
def Chip.runVeto (c : Chip) : Bool := (List.range 64).any fun n => c.fld (DMA_STATUS.state n) = 2 || c.fld (DMA_STATUS.state n) = 5

/-- R366: at the power-fail mark executing descriptors end ABORTED. -/
def Chip.dmaPowerFail (c : Chip) : Chip := c.each (List.range 64) fun c n =>
  let st := c.fld (DMA_STATUS.state n)
  if st = 2 ∨ st = 4 then c.dmaAbortAll n else c

/-- R364, R378: a reset of the host interface, with its kind. -/
def Chip.hifReset (c : Chip) (kind : Nat) : Chip :=
  let c := c.each (List.range 256) fun c r => if c.ringOn r then c.put (RING_CFG.log2_size r) 0 else c
  let c := c.each (List.range 64) fun c n =>
    let c := (c.put (DMA_CTRL.en n) 0).put (DMA_STATUS.state n) 0
    c.each (List.range 4) fun c q => c.setDrain n q (c.flAck q)
  let c := { c with rings := [], dmas := [], host := {} }
  let c := (c.put HIF_WIN_BASE.base 0).resetRange 0x00037F00 0x00040000
  let c := ((c.put HIF_STATUS.bme 0).put HIF_STATUS.d3hot 0).put HIF_STATUS.dormant_veto 1
  (c.incSat HIF_RESET_CNT.count).raise 112 3 [kind]

end Sys2Proof.Machine
end

