-- ==== Sys2Proof/Machine/CausewayBus.lean ====
section
/-! DEFINITION. The Causeway port (18): pushes, contention, sending, the checks on received frames, quarantine, beacons, keys. -/

namespace Sys2Proof.Machine

/-- Change the port. -/
def Chip.onCw (c : Chip) (f : Causeway → Causeway) : Chip := { c with cw := f c.cw }
/-- The port runs: enabled, with the hub core powered (R419). -/
def Chip.cwOn (c : Chip) : Bool := c.flag CW_CTRL.en && c.tileUp
/-- Show the frames held. -/
def Chip.cwShow (c : Chip) : Chip := c.put CW_STATUS.txq c.cw.queue.length
/-- Put a frame in the queue with the next sequence number. -/
def Chip.cwQueue (c : Chip) (ftype prio copies : Nat) (payload : List Nat) : Chip :=
  (c.onCw fun w => { w with seq := (w.seq + 1) % 65536,
                            queue := w.queue ++ [⟨ftype, prio, w.seq, payload, copies, false⟩] }).cwShow

/-- Lead a pushed ACTION must have, 8 µs (Table 18.3). -/
def cwLead : Nat := 8192000
/-- Margin of R411 above the guard, 2.5 µs. -/
def cwSendMargin : Nat := 2560000

/-- The 24 note bytes. -/
def Chip.noteBytes (c : Chip) : List Nat := (List.range 6).flatMap fun i => bytesLE 4 (c.fld (CW_TX_NOTE.bytes i))

/-- A write of CW_TX_PUSH (R410, Table 18.3): the first condition that holds decides. -/
def Chip.cwPush (c : Chip) (v : Nat) : Chip :=
  let prio := bits v 0 2
  let ftype := bits v 4 2
  let len := bits v 8 5
  let t := c.fld3 CW_TX_T_LO.t_lo CW_TX_T_HI.t_hi CW_TX_T_TOP.t_top
  let scope := c.fld CW_TX_ACTION.scope
  let result (c : Chip) (r : Nat) : Chip := c.put CW_TX_RESULT.result r
  if ftype = 0 ∧ t < c.now + cwLead then result (c.put CW_ERR.bad_push 1) 4
  else if (ftype = 0 ∧ (scope = 0 ∨ 8 ≤ c.fld CW_TX_ACTION.type)) ∨ (ftype = 2 ∧ 24 < len) ∨ ftype = 1 ∨ ftype = 3 then
    result (c.put CW_ERR.bad_push 1) 3
  else if 8 ≤ c.cw.queue.length then result c 2
  else if c.flag CW_STATUS.quarantine ∧ ¬(ftype = 0 ∧ prio = 3) then result c 5
  else
    let payload := if ftype = 0 then
        bytesLE 9 t ++ [c.fld CW_TX_ACTION.type] ++ bytesLE 4 (c.fld CW_TX_ARG.arg) ++ [scope] ++
          bytesLE 2 (c.fld CW_TX_ACTION.target)
      else c.noteBytes.take len
    result (c.cwQueue ftype prio (if ftype = 0 then c.fld CW_CTRL.repeat else 1) payload) 1

/-- CW_PUSH (R410). -/
def execCwPush (v : Word) (s : State) : Res := s.on (·.cwPush v.toNat)

/-- The frame that goes next: the highest priority, in push order (R410). -/
def Causeway.next (w : Causeway) : Option CwFrame :=
  w.queue.find? fun f => w.queue.all fun g => g.prio ≤ f.prio
/-- The held frame with a sequence number. -/
def Causeway.frame (w : Causeway) (seq : Option Nat) : Option CwFrame := w.queue.find? fun f => seq = some f.seq
/-- Replace, or with none remove, the frame with a sequence number. -/
def Chip.cwSet (c : Chip) (seq : Nat) (f : Option CwFrame) : Chip :=
  (c.onCw fun w => { w with queue := w.queue.filterMap fun x => if x.seq = seq then f else some x }).cwShow

/-- CW_BUS_IDLE (R407): a contention window opens; `draw` is the random choice among the four slots of the priority. -/
def execCwBusIdle (draw : Fin 4) (s : State) : Res := s.on fun c =>
  if c.cwOn && !c.flag CW_STATUS.silent && c.cw.sending.isNone then
    c.onCw fun w => { w with slot := w.next.map fun f => (4 * (3 - f.prio) + draw.val, f.seq) }
  else c

/-- Launch time of an ACTION payload. -/
def cwTime (p : List Nat) : Nat := numLE (p.take 9)
/-- The header of a frame (Table 18.1). -/
def Chip.cwHeader (c : Chip) (f : CwFrame) (len : Nat) : List Nat :=
  [f.prio + 4 * c.fld CW_KEY.tx_gen + 16 * f.ftype, len] ++ bytesLE 2 (c.fld HY_SELF.tile) ++
    bytesLE 2 (c.fld MP_EPOCH.epoch) ++ bytesLE 2 f.seq
/-- A frame as it goes on the bus, sync and start symbols left out (R405, R406). -/
def Chip.cwBytes (c : Chip) (f : CwFrame) : List Nat :=
  let p := if f.ftype = 1 then bytesLE 9 c.now ++ [ofBool c.inTol + 2 * c.fld MP_STATUS.state] else f.payload
  let body := c.cwHeader f p.length ++ p
  let gen := c.fld CW_KEY.tx_gen
  let iv := bytesLE 2 (c.fld CW_SEGMENT.segment) ++ bytesLE 2 (c.fld HY_SELF.tile) ++ bytesLE 2 (c.fld MP_EPOCH.epoch) ++
    bytesLE 2 f.seq ++ [gen, 0, 0, 0]
  body ++ bytesLE 2 (crc16 body) ++ bytesLE 4 (Config.causewayTag (if gen = 0 then c.cw.key0 else c.cw.key1) iv body)

/-- CW_SLOT (R407, R411): the chosen slot arrives. With another start symbol sensed before it the frame waits for the next
window; an ACTION too close to its launch time drops its remaining copies. -/
def execCwSlot (other : Bool) (s : State) : Res := s.on fun c =>
  match c.cw.frame (c.cw.slot.map (·.2)) with
  | some f =>
    let c := c.onCw fun w => { w with slot := none }
    if !c.cwOn || c.flag CW_STATUS.silent || other then c
    else if f.ftype = 0 ∧ cwTime f.payload < c.now + c.fld LQ_GUARD.guard + cwSendMargin then
      let c := c.cwSet f.seq none
      if f.sent then c
      else c.errEvt CW_ERR.tx_late 176 0 [cwTime f.payload, f.payload.getD 9 0, f.seq]
    else (c.onCw fun w => { w with sending := some f.seq }).emit (.frame (c.cwBytes f))
  | none => c

/-- CW_COLLISION (R408). -/
def execCwCollision (s : State) : Res := s.on fun c =>
  if c.cw.sending.isSome then (c.onCw fun w => { w with sending := none, slot := none }).incSat CW_COLL_CNT.count else c

/-- An ACTION enters the launch queue as a LOCAL entry (R415). -/
def Chip.cwAction (c : Chip) (p : List Nat) : Chip :=
  let t := cwTime p
  let action := p.getD 9 0
  let arg := numLE ((p.drop 10).take 4)
  if badAction action arg || c.namesOffline action arg || decide (1024 ≤ c.lq.entries.length) then
    (c.lqInsert t action arg 0 none).1
  else
    let (c, id) := c.takeId
    (c.lqInsert t action arg id none).1
/-- The scope of an ACTION payload matches this tile (R415, Table 3.4). -/
def Chip.cwScope (c : Chip) (p : List Nat) : Bool := c.scopeMatches (p.getD 14 0) (numLE ((p.drop 15).take 2))

/-- CW_FRAME_SENT (R408, R411, R412): a copy has gone to its end symbol; the first copy of an ACTION naming the sender queues
its own entry. -/
def execCwFrameSent (s : State) : Res := s.on fun c =>
  match c.cw.frame c.cw.sending with
  | none => c.onCw fun w => { w with sending := none }
  | some f =>
    let c := (c.onCw fun w => { w with sending := none }).cwSet f.seq
      (if f.copies ≤ 1 then none else some { f with copies := f.copies - 1, sent := true })
    if f.ftype = 0 ∧ !f.sent ∧ c.cwScope f.payload then c.cwAction f.payload else c

/-- CW_JABBER (R409): the driver was active for `mt` MT, more than 3 µs. -/
def execCwJabber (mt : Nat) (s : State) : Res := s.on fun c =>
  ((c.onCw fun w => { w with sending := none, slot := none }).put CW_STATUS.silent 1).errEvt CW_ERR.jabber 182 1 [mt]
/-- CW_BUS_STUCK (R409). -/
def execCwBusStuck (mt : Nat) (s : State) : Res := s.on fun c =>
  if c.cwOn then (c.incSat CW_BUSY_CNT.count).raise 182 2 [mt] else c
/-- CW_CMD.tx_reset (R409). -/
def Chip.cwTxReset (c : Chip) : Chip := c.put CW_STATUS.silent 0
/-- TX_RESET (R409). -/
def execTxReset (s : State) : Res := s.on (·.cwTxReset)

/-- A frame is dropped as a stranger by a check of Table 18.4 (R413, R416). -/
def Chip.stranger (c : Chip) (x : RxFrame) (check : Nat) : Chip :=
  ((c.incSat CW_STRANGER_CNT.count).onCw fun w => { w with strange := w.strange + 1 }).errEvt CW_ERR.stranger 178 0
    [x.sender, x.epoch, check]
/-- The member entry of a frame's sender and epoch. -/
def Chip.cwMember (c : Chip) (x : RxFrame) : Option Nat :=
  (List.range 64).find? fun m => c.flag (CW_MEMBER.valid m) && decide (c.fld (CW_MEMBER.tile m) = x.sender) &&
    decide (c.fld (CW_MEMBER_EPOCH.epoch m) = x.epoch)

/-- Table 18.4: the checks in order; an accepted frame updates its entry's sequence and goes on to `act`. -/
def Chip.cwReceive (c : Chip) (x : RxFrame) (ftype : Nat) (formed : Bool) (act : Chip → Chip) : Chip :=
  if !c.cwOn || c.cw.sending.isSome then c
  else if !x.good then c.incSat CW_CRC_CNT.count
  else
    match c.cwMember x with
    | none => c.stranger x 2
    | some m =>
      let last := c.fld (CW_MEMBER_EPOCH.seq m)
      let d := (x.seq + 65536 - last) % 65536
      let seen := c.flag (CW_MEMBER.seq_valid m)
      if !x.tagOk || !bit (c.fld CW_KEY.loaded) (ofBool x.gen) then c.stranger x 3
      else if seen && decide (d = 0) then c.incSat CW_DUP_CNT.count
      else if seen && decide (32768 < d) then c.stranger x 5
      else if !formed then c.errEvt CW_ERR.malformed 177 0 [x.sender, ftype, x.payload.length]
      else act (((c.put (CW_MEMBER_EPOCH.seq m) x.seq).put (CW_MEMBER.seq_valid m) 1).incSat CW_RX_CNT.count)

/-- A frame QUARANTINE drops (R416). -/
def Chip.cwQdrop (c : Chip) : Chip := c.incSat CW_QDROP_CNT.count

/-- An ACTION payload agrees with Table 18.2. -/
def actionFormed (p : List Nat) : Bool :=
  decide (p.length = 17) && decide (p.getD 9 0 < 8) && decide (1 ≤ p.getD 14 0) && decide (p.getD 14 0 ≤ 3)

/-- ACTION_FRAME (R413 to R416). -/
def execActionFrame (x : RxFrame) (s : State) : Res := s.on fun c =>
  c.cwReceive x 0 (actionFormed x.payload) fun c =>
    if c.flag CW_STATUS.quarantine ∧ x.payload.getD 9 0 ≠ 3 ∧ x.payload.getD 9 0 ≠ 4 then c.cwQdrop
    else if c.cwScope x.payload then c.cwAction x.payload else c

/-- BEACON_FRAME (R413, R416, R417): `rx` is the stamp of the start symbol's arrival. -/
def execBeaconFrame (x : RxFrame) (rx : Nat) (s : State) : Res := s.on fun c =>
  c.cwReceive x 1 (decide (x.payload.length = 10)) fun c =>
    if c.flag CW_STATUS.quarantine then c.cwQdrop
    else if x.payload.getD 9 0 % 2 = 0 then c
    else
      let off : Int := (rx : Int) - numLE (x.payload.take 9) - c.fldS CW_BEACON_DELAY.delay
      let c := c.putS CW_BEACON_OFF.off off
      if c.fld CW_BEACON_LIMIT.limit < off.natAbs then
        c.errEvt CW_ERR.beacon 180 0 [x.sender, c.fld CW_BEACON_OFF.off]
      else c

/-- NOTE_FRAME (R413, R415, R416). -/
def execNoteFrame (x : RxFrame) (s : State) : Res := s.on fun c =>
  c.cwReceive x 2 (decide (x.payload.length ≤ 24)) fun c =>
    if c.flag CW_STATUS.quarantine then c.cwQdrop
    else c.raise 181 0 ([x.sender, x.payload.length] ++ x.payload ++ List.replicate (24 - x.payload.length) 0)

/-- CW_RESERVED_FRAME (R413): a frame of type 3 to 15, or one whose coding is bad. -/
def execCwReservedFrame (x : RxFrame) (ftype : Fin 16) (s : State) : Res := s.on (·.cwReceive x ftype false id)

/-- CW_BEACON_TIMER (R417): a beacon source queues a BEACON of priority 0. -/
def execCwBeaconTimer (s : State) : Res := s.on fun c =>
  if c.cwOn && c.flag CW_CTRL.beacon_src && decide (c.cw.queue.length < 8) then c.cwQueue 1 0 1 [] else c

/-- QUARANTINE ends (R416). -/
def Chip.cwExit (c : Chip) : Chip :=
  if c.flag CW_STATUS.quarantine then
    ((c.put CW_STATUS.quarantine 0).onCw fun w => { w with calm := 0 }).raise 179 2 [c.cw.lastWin]
  else c
/-- STRANGER_WINDOW (R416): a 1 ms window ends. -/
def execStrangerWindow (s : State) : Res := s.on fun c =>
  let n := c.cw.strange
  let tooMany := decide (c.fld CW_Q_LIMIT.limit ≤ n)
  let c := c.onCw fun w => { w with strange := 0, lastWin := n, calm := if tooMany then 0 else w.calm + 1 }
  if !c.flag CW_STATUS.quarantine then
    if tooMany && c.cwOn then (c.put CW_STATUS.quarantine 1).raise 179 1 [n] else c
  else if !tooMany && decide (c.fld CW_Q_HOLD.ms ≤ c.cw.calm) then c.cwExit else c
/-- Q_EXIT (R416). -/
def execQExit (s : State) : Res := s.on (·.cwExit)

/-- A write of a word of member entry `m` clears its seq_valid and its sequence (R414, Table 18.6). -/
def Chip.cwMemberWrite (c : Chip) (m word v : Nat) : Chip :=
  let c := if word = 0 then (c.put (CW_MEMBER.tile m) (bits v 0 12)).put (CW_MEMBER.valid m) (bits v 31 1)
    else c.put (CW_MEMBER_EPOCH.epoch m) (bits v 0 16)
  (c.put (CW_MEMBER.seq_valid m) 0).put (CW_MEMBER_EPOCH.seq m) 0
/-- CW_MEMBER_WRITE (R414). -/
def execCwMemberWrite (m : Fin 64) (word : Fin 2) (v : Word) (s : State) : Res := s.on (·.cwMemberWrite m word v.toNat)

/-- Firmware writes the member entries and loads the key of segment data (R413, R414, R418). -/
def Chip.cwLoad (c : Chip) (d : SegData) : Chip :=
  let c := c.put CW_SEGMENT.segment d.segment
  let c := (c.onCw fun w => if d.gen then { w with key1 := some d.key } else { w with key0 := some d.key }).put CW_KEY.loaded
    (withBit (c.fld CW_KEY.loaded) (ofBool d.gen) true)
  c.each (d.members.take 64).zipIdx fun c e =>
    (c.cwMemberWrite e.2 0 (e.1.1 % 4096 + 2 ^ 31)).cwMemberWrite e.2 1 e.1.2

/-- R419: an enabled port without sleep_ok vetoes DORMANT and SEALED. -/
def Chip.cwVeto (c : Chip) : Bool := c.flag CW_CTRL.en && !c.flag CW_CTRL.sleep_ok
/-- R419: queue, membership, keys and counters at a tile reset; the sequence counter keeps running (R414). -/
def Chip.cwReset (c : Chip) : Chip :=
  (c.resetRange CW_CTRL.en.addr (CW_CTRL.en.addr + 0x1000)).onCw fun w => { seq := w.seq }
/-- R419: at the power-fail mark a frame on the bus finishes and the rest of the queue is discarded. -/
def Chip.cwMark (c : Chip) : Chip :=
  (c.onCw fun w => { w with slot := none, queue := (w.frame w.sending).toList.map fun f => { f with copies := 1 } }).cwShow

end Sys2Proof.Machine
end

