-- ==== Sys2Proof/Machine/Hierarchy.lean ====
section
/-! DEFINITION. The manager-worker hierarchy (17 R394 to R402): HELLO, enrolment with its quote, refusals, the table, loss and
failover. A path lists trunk numbers, the manager's own first. -/

namespace Sys2Proof.Machine

/-- Change the hierarchy. -/
def Chip.onHy (c : Chip) (f : Hier → Hier) : Chip := { c with hy := f c.hy }
/-- The table entry of tile number `n`. -/
def Chip.hyEntry (c : Chip) (n : Nat) : HyEntry := Tab.get {} c.hy.tab n
/-- HY_MEMBERS shows the entries ENROLLED, the manager's own among them (R402). -/
def Chip.hyShow (c : Chip) : Chip :=
  let own (n : Nat) : Bool := c.isManager && decide (n = c.fld HY_SELF.tile)
  c.put HY_MEMBERS.count ((c.hy.tab.filter fun x => x.2.state = 2 && !own x.1).length + ofBool c.isManager)
/-- Replace the entry of tile number `n`. -/
def Chip.setEntry (c : Chip) (n : Nat) (e : HyEntry) : Chip := (c.onHy fun h => { h with tab := Tab.set {} h.tab n e }).hyShow
/-- The number reserved for a serial, or given to it. -/
def Chip.hyNumber (c : Chip) (serial : Nat) : Option Nat :=
  (c.hy.tab.find? fun e => decide (e.2.state ≠ 0) && decide (e.2.serial = serial)).map (·.1)
/-- The lowest FREE number (R395). -/
def Chip.hyFree (c : Chip) : Option Nat :=
  (List.range 4095).find? fun n => n ≠ c.fld HY_SELF.tile && decide ((c.hyEntry n).state = 0) &&
    c.hy.pending.all fun p => p.number ≠ n

/-- Refuse a request that came in on port `u` (Table 17.4); on the manager with event 168. -/
def Chip.refuse (c : Chip) (u serial code : Nat) (path : List Nat) : Chip :=
  let c := c.sendReliable u .enrolRefuse [serial, code]
  if c.isManager then
    (c.doIf (code = 6) (·.put HY_ERR.table_full 1)).raise 168 2 ([serial, code] ++ path)
  else c

/-- The QUOTE_REQ of a request the manager accepts for number `n` (Table 17.3 step 3). -/
def Chip.askQuote (c : Chip) (p : Enrol) (mask : Nat) : Chip :=
  (c.onHy fun h => { h with pending := h.pending.filter (fun x => x.serial ≠ p.serial) ++ [p] }).sendReliable p.port .quoteReq
    [p.serial, p.nonce, mask]

/-- A proper prefix of a path is the enrolled path of the same serial: the request comes from its own subtree (Table 17.4 row 4,
R397). -/
def Chip.pathLoops (c : Chip) (serial : Nat) (path : List Nat) : Bool :=
  c.hy.tab.any fun e => decide (e.2.serial = serial) && decide (e.2.state = 2) && decide (e.2.path.length < path.length) &&
    decide (path.take e.2.path.length = e.2.path)

/-- The manager decides a request (R395, R397, Table 17.4). -/
def Chip.decideEnrol (c : Chip) (p : Enrol) (mask : Nat) : Chip :=
  let no (code : Nat) : Chip := c.refuse p.port p.serial code p.path
  if c.pathLoops p.serial p.path then no 4
  else
    match c.hyNumber p.serial with
    | some n =>
      let e := c.hyEntry n
      let same := decide (e.state = 2) && decide (e.epoch = p.epoch)
      if p.alt then if same then c.askQuote { p with number := n } mask else no 1
      else if same && decide (e.alt = some p.path) then
        (c.setEntry n { e with path := p.path, alt := some e.path }).raise 168 4 [n, c.fld (TRK_PEER.tile p.port), p.path.length]
      else if same && decide (e.path ≠ p.path) then no 3
      else c.askQuote { p with number := n } mask
    | none =>
      if p.alt || !c.flag HY_CTRL.auto_number then no 1
      else match c.hyFree with
        | some n => c.askQuote { p with number := n } mask
        | none => no 6

/-- A request reaches this tile on port `u`: refused at once, decided by the manager, passed up with this tile's trunk number,
or kept until this tile is enrolled itself (R395). -/
def Chip.enrolReq (c : Chip) (u : Nat) (p : Enrol) (mask : Nat) : Chip :=
  let path := u :: p.path
  if c.fld (TRK_CTRL.role u) ≠ 2 then c.refuse u p.serial 7 path
  else if 5 < (if c.isManager then 0 else c.fld MP_STATUS.hops) + path.length then c.refuse u p.serial 2 path
  else if (p.path.isEmpty && (c.port u).peerMgr) || p.serial = c.serial then c.refuse u p.serial 4 path
  else if c.isManager then c.decideEnrol { p with path := path, port := u } mask
  else
    let c := c.onHy fun h => { h with routes := (p.serial, u) :: h.routes.filter fun e => e.1 ≠ p.serial }
    if c.flag HY_STATUS.enrolled then
      c.sendUp .enrolReq ([p.serial, p.epoch] ++ path ++ [ofBool p.alt])
    else c.onHy fun h => { h with early := h.early ++ [{ p with port := u }] }

/-- ENROL_REQ (R395): on the manager `nonce` and `mask` are what its QUOTE_REQ asks with. -/
def execEnrolReq (u : Fin 8) (seq ack serial epoch : Nat) (path : List Nat) (alt : Bool) (nonce mask : Nat) (s : State) : Res :=
  s.on fun c => c.receive u seq ack (·.enrolReq u ⟨serial, epoch, path, alt, u, 0, nonce⟩ mask)

/-- This tile's own request on port `u` (Table 17.3 step 2, R397). -/
def Chip.sendEnrol (c : Chip) (u : Nat) (alt : Bool) : Chip :=
  c.sendReliable u .enrolReq [c.serial, c.fld MP_EPOCH.epoch, ofBool alt]

/-- A HELLO is taken (Table 17.3 step 1, R398; 19 R434 for a new epoch). -/
def Chip.hello (c : Chip) (u serial epoch tile hops role : Nat) : Chip :=
  let old := (c.fld2 (TRK_PEER_SERIAL_LO.lo u) (TRK_PEER_SERIAL_HI.hi u), c.fld (TRK_PEER.epoch u))
  let other := !c.flag (TRK_PEER.valid u) || decide (old ≠ (serial, epoch))
  let c := (((c.put (TRK_PEER.tile u) tile).put (TRK_PEER.hops u) hops).put (TRK_PEER.valid u) 1).put (TRK_PEER.epoch u) epoch
  let c := (c.put2 (TRK_PEER_SERIAL_LO.lo u) (TRK_PEER_SERIAL_HI.hi u) serial).onPort u fun p =>
    { p with peerMgr := decide (role = 4), lostSent := false }
  let c := c.doIf other (·.wsEpochTrunk u)
  let c := c.doIf (other && decide (c.fld (TRK_CTRL.role u) = 2)) (·.put (TRK_STATUS.enrolled u) 0)
  let back := (c.hyNumber serial).filter fun n => (c.hyEntry n).state = 3 ∧ (c.hyEntry n).epoch = epoch
  let c := match back with
    | some n => if c.isManager ∧ c.fld (TRK_CTRL.role u) = 2 then
        (c.setEntry n { c.hyEntry n with state := 2 }).put (TRK_STATUS.enrolled u) 1 else c
    | none => c
  if c.isManager then c
  else if c.fld (TRK_CTRL.role u) = 1 ∧ !c.flag HY_STATUS.enrolled then c.sendEnrol u false
  else if c.fld (TRK_CTRL.role u) = 3 ∧ c.flag HY_STATUS.enrolled ∧ !c.flag (TRK_STATUS.alt_ready u) then c.sendEnrol u true
  else c

/-- HELLO (R395). -/
def execHello (u : Fin 8) (seq ack serial epoch tile hops role : Nat) (s : State) : Res :=
  s.on fun c => c.receive u seq ack (·.hello u serial epoch tile hops role)

/-- The port that leads down to a serial: its own neighbour, or where its request came from. -/
def Chip.routeTo (c : Chip) (serial : Nat) : Option Nat := c.hy.routes.lookup serial

/-- The member's own grant (Table 17.3 steps 6 and 7, R396, R397): an alternate becomes ready; otherwise the number, the
segment data, the upstream with its asymmetry, and discipline over the trunk; then HELLO and waiting requests of its own
members. -/
def Chip.granted (c : Chip) (u tile hops : Nat) (d : SegData) (cable : Option (Int × Int)) : Chip :=
  if c.fld (TRK_CTRL.role u) = 3 then (c.put (TRK_STATUS.alt_ready u) 1).put HY_STATUS.alt u
  else
    let c := (((c.put HY_SELF.tile tile).put HY_SELF.valid 1).put HY_STATUS.enrolled 1).put HY_STATUS.up u
    let c := (c.cwLoad d).writeAsym u cable
    let c := (c.put (TRK_PEER.hops u) (hops - 1)).setUpstream u 1
    let c := c.mpCtrlWrite (2 * 2 ^ MP_CTRL.source.lo + 2 ^ MP_CTRL.en.lo + c.fld MP_CTRL.slew_limit * 2 ^ MP_CTRL.slew_limit.lo)
    let c := c.each ((List.range 8).filter fun w => c.fld (TRK_CTRL.role w) = 2 ∧ c.portActive w) fun c w => c.sendHello w
    let l := c.hy.early
    let c := c.each l fun c p => c.sendUp .enrolReq ([p.serial, p.epoch] ++ (p.port :: p.path) ++ [ofBool p.alt])
    let c := c.onHy fun h => { h with early := [] }
    c.each ((List.range 8).filter fun w => c.fld (TRK_CTRL.role w) = 3 ∧ c.portActive w) fun c w => c.sendEnrol w true

/-- The fields of an ENROL_GRANT. -/
def grantFields (serial tile hops : Nat) (d : SegData) : List Nat :=
  [serial, tile, hops, d.segment, ofBool d.gen, d.key] ++ d.members.flatMap fun m => [m.1, m.2]

/-- ENROL_GRANT (R395): taken by the member it names, passed down by a relay. -/
def execEnrolGrant (u : Fin 8) (seq ack serial tile hops : Nat) (d : SegData) (cable : Option (Int × Int)) (s : State) : Res :=
  s.on fun c => c.receive u seq ack fun c =>
    if serial = c.serial then c.granted u tile hops d cable
    else match c.routeTo serial with
      | some w =>
        let c := c.sendReliable w .enrolGrant (grantFields serial tile hops d)
        if c.fld2 (TRK_PEER_SERIAL_LO.lo w) (TRK_PEER_SERIAL_HI.hi w) = serial then c.put (TRK_STATUS.enrolled w) 1 else c
      | none => c

/-- ENROL_REFUSE (Table 17.4): the member stays unenrolled and reports the reason; a relay passes it down. -/
def execEnrolRefuse (u : Fin 8) (seq ack serial code : Nat) (s : State) : Res := s.on fun c => c.receive u seq ack fun c =>
  if serial = c.serial then
    ((c.put HY_ERR.refused 1).put HY_STATUS.refuse code).errEvt (TRK_ERR.enrol_refused u) (trkEvent u) 6 [code]
  else match c.routeTo serial with
    | some w => c.sendReliable w .enrolRefuse [serial, code]
    | none => c

/-- A list cut into pieces of 240 bytes, each with whether it is the last. -/
def fragments : Nat → List Nat → List (Bool × List Nat)
  | 0, _ => []
  | n + 1, l => if l.length ≤ 240 then [(true, l)] else (false, l.take 240) :: fragments n (l.drop 240)

/-- QUOTE_REQ (22 R489): the member signs a quote and returns it in fragments, the first of an epoch with the device
certificate; a relay passes the request down. -/
def execQuoteReq (u : Fin 8) (seq ack serial nonce mask : Nat) (s : State) : Res := s.on fun c => c.receive u seq ack fun c =>
  if serial = c.serial then
    let (c, q) := c.quote (mask % 65536) nonce
    let first := decide (c.hy.quoted ≠ some (c.fld MP_EPOCH.epoch))
    let bytes := q ++ if first then Config.deviceCert else []
    let c := c.onHy fun h => { h with quoted := some (c.fld MP_EPOCH.epoch) }
    c.each (fragments (bytes.length + 1) bytes) fun c f => c.sendReliable u .quote ([serial, ofBool f.1] ++ f.2)
  else match c.routeTo serial with
    | some w => c.sendReliable w .quoteReq [serial, nonce, mask]
    | none => c

/-- The manager enrols the member of a verified quote (Table 17.3 step 5). -/
def Chip.enrol (c : Chip) (p : Enrol) (d : SegData) : Chip :=
  let c := c.onHy fun h => { h with pending := h.pending.filter fun x => x.serial ≠ p.serial }
  let e := c.hyEntry p.number
  let c := if p.alt then c.setEntry p.number { e with alt := some p.path }
    else (c.setEntry p.number ⟨p.serial, true, 2, p.epoch, p.path, none⟩).raise 168 1
      [p.number, p.serial, p.epoch, p.path.length]
  let c := if c.cw.key0.isNone && c.cw.key1.isNone then c.cwLoad d else c
  let c := c.sendReliable p.port .enrolGrant (grantFields p.serial p.number p.path.length d)
  if p.path.length = 1 then c.put (TRK_STATUS.enrolled p.port) 1 else c

/-- QUOTE (22 R490, R395): passed up; on the manager firmware verifies it once its last fragment has come (`verified`) and
enrols the member with segment data `d`, or refuses it. A quote no enrolment waits for goes to firmware. -/
def execQuote (u : Fin 8) (seq ack serial : Nat) (last : Bool) (bytes : List Nat) (verified : Bool) (d : SegData) (s : State) : Res :=
  s.on fun c => c.receive u seq ack fun c =>
    if !c.isManager then c.sendUp .quote ([serial, ofBool last] ++ bytes)
    else match c.hy.pending.find? fun p => p.serial = serial with
      | none => c.emit (.firmware 2 ([serial, ofBool last] ++ bytes))
      | some p =>
        if !last then c
        else if verified then c.enrol p d
        else (c.onHy fun h => { h with pending := h.pending.filter fun x => x.serial ≠ serial }).refuse p.port serial 5 p.path

/-- QUOTE_TIMEOUT (R395): 200 ms after its QUOTE_REQ a request still waits for its quote. -/
def execQuoteTimeout (serial : Nat) (s : State) : Res := s.on fun c =>
  match c.hy.pending.find? fun p => p.serial = serial with
  | some p => (c.onHy fun h => { h with pending := h.pending.filter fun x => x.serial ≠ serial }).refuse p.port serial 5 p.path
  | none => c

/-- The manager marks an entry LOST (R398). -/
def Chip.markLost (c : Chip) (tile serial : Nat) : Chip :=
  match c.hyNumber serial with
  | some n => if (c.hyEntry n).state = 2 then
      (c.setEntry n { c.hyEntry n with state := 3 }).raise 168 3 [tile, serial] else c
  | none => c
/-- LOST goes up, and is marked on the manager (R398). -/
def Chip.lost (c : Chip) (tile serial : Nat) : Chip :=
  if c.isManager then c.markLost tile serial else c.sendUp .lost [tile, serial]
/-- LOST (R398). -/
def execLost (u : Fin 8) (seq ack tile serial : Nat) (s : State) : Res := s.on fun c => c.receive u seq ack (·.lost tile serial)
/-- DOWN_PORT_LOST (R398): a DOWN link has been out of ACTIVE for 1 s and its peer has not announced SLEEP. -/
def execDownPortLost (u : Fin 8) (s : State) : Res := s.on fun c =>
  if c.fld (TRK_CTRL.role u) = 2 ∧ c.flag (TRK_STATUS.enrolled u) ∧ !c.portActive u ∧ c.trkState u ≠ 7 ∧ !(c.port u).lostSent then
    (c.onPort u fun p => { p with lostSent := true }).lost (c.fld (TRK_PEER.tile u))
      (c.fld2 (TRK_PEER_SERIAL_LO.lo u) (TRK_PEER_SERIAL_HI.hi u))
  else c

/-- POWERFAIL goes up, and raises event 168 on the manager (R389, R403). -/
def Chip.powerfailUp (c : Chip) (tile mark : Nat) : Chip :=
  if c.isManager then c.raise 168 5 [tile, mark] else c.sendUp .powerfail [tile, mark]
/-- POWERFAIL (R389). -/
def execPowerfail (u : Fin 8) (seq ack tile mark : Nat) (s : State) : Res :=
  s.on fun c => c.receive u seq ack (·.powerfailUp tile mark)

/-- CONTROL (R389): handed to firmware; where the manager's control traffic carries Causeway segment data, firmware writes the
member entries and loads the key (18 R413, R414, R418). -/
def execControl (u : Fin 8) (seq ack : Nat) (payload : List Nat) (seg : Option SegData) (s : State) : Res :=
  s.on fun c => c.receive u seq ack fun c =>
    let c := c.emit (.firmware 1 (u.val :: payload))
    match seg with
    | some d => c.cwLoad d
    | none => c

/-- FAILOVER (R397): the UP port has not been ACTIVE for failover_ms and the alternate is ready. The manager learns of the new
path from the member's request over it. -/
def execFailover (cable : Option (Int × Int)) (s : State) : Res := s.on fun c =>
  let up := c.fld HY_STATUS.up
  let alt := c.fld HY_STATUS.alt
  if !c.isManager ∧ c.flag HY_STATUS.enrolled ∧ !c.portActive up ∧ c.flag (TRK_STATUS.alt_ready alt) ∧
      c.fld HY_CTRL.failover_ms ≠ 0 then
    let c := ((c.put HY_STATUS.up alt).put HY_STATUS.alt up).put HY_STATUS.failed_over 1
    let c := ((c.put (TRK_STATUS.alt_ready alt) 0).writeAsym alt cable).setUpstream alt 1
    c.sendEnrol alt false
  else c

/-- A write to the table window (R402): 0 and 1 the serial's words, applied together by the second (00 R15), 2 HY_TAB_STATE;
discarded on a member and where it would reserve a serial reserved elsewhere. -/
def Chip.hyTabWrite (c : Chip) (word v : Nat) : Chip :=
  let n := c.fld HY_TAB_SEL.tile
  let e := c.hyEntry n
  let x : HyEntry :=
    if word = 1 then { e with serial := c.heldWord HY_TAB_SERIAL_LO.lo.addr 0 + v % 2 ^ 32 * 2 ^ 32 }
    else { e with reserve := bit v 0,
                  state := if bit v 0 then (if e.state = 0 then 1 else e.state) else if e.state = 2 then 2 else 0 }
  let twice := x.reserve && c.hy.tab.any fun o => o.1 ≠ n && o.2.reserve && decide (o.2.serial = x.serial)
  if !c.isManager then c.put HY_ERR.bad_value 1
  else if word = 0 then c.hold HY_TAB_SERIAL_LO.lo.addr v
  else if twice then c.put HY_ERR.bad_value 1
  else c.setEntry n x
/-- HY_TAB_WRITE (R402). -/
def execHyTabWrite (word : Fin 3) (v : Word) (s : State) : Res := s.on (·.hyTabWrite word v.toNat)

/-- What a read of the window's words shows (R402): the manager's own entry is ENROLLED with its own serial. -/
def Chip.hyShown (c : Chip) : HyEntry :=
  let n := c.fld HY_TAB_SEL.tile
  if c.isManager && n = c.fld HY_SELF.tile then ⟨c.serial, false, 2, c.fld MP_EPOCH.epoch, [], none⟩ else c.hyEntry n

/-- A write of HY_CTRL (R394): HY_SELF is valid on a manager. -/
def Chip.hyCtrlWrite (c : Chip) (v : Nat) : Chip :=
  let c := ((c.put HY_CTRL.manager (bits v 0 1)).put HY_CTRL.auto_number (bits v 1 1)).put HY_CTRL.failover_ms (bits v 8 8)
  (c.putB HY_SELF.valid (c.isManager || c.flag HY_STATUS.enrolled)).hyShow

end Sys2Proof.Machine
end

