-- ==== Sys2Proof/Machine/Resets.lean ====
section
/-! DEFINITION. The resets of Table 5.2 but the cold start (05 R137, R138, 15 R364, 27 R569), and the boot chain (22 R487). -/

namespace Sys2Proof.Machine

/-- Staged and active values of a group take their reset values. -/
def Chip.stageReset (c : Chip) (gp : Nat) : Chip :=
  { c with active := c.active.filter fun e => !groupHas gp (e.1 / 8), staged := c.staged.filter fun e => !groupHas gp (e.1 / 8) }

/-- The pin groups, or with 18 the streamers, or with 128 the clusters of a quarter. -/
def unitsOf (q n : Nat) : List Nat := (List.range n).map fun i => n * q + i

/-- Streamers and APG queues of a quarter (Table 8.11). -/
def Chip.resetStreams (c : Chip) (q : Nat) : Chip :=
  let c := c.each (unitsOf q 18) fun c n => ((c.strReset n).resetRange (strBase n) (strBase n + 0x400)).stageReset (64 + n)
  c.each (unitsOf q 16) fun c g => c.apgEmpty g

/-- GCK and CPLL settings of a quarter at their reset values, the CPLLs stopped. -/
def Chip.resetClocks (c : Chip) (q : Nat) : Chip :=
  let c := c.resetRange (qBase q + 0x10) (qBase q + 0x80)
  let c := c.onQuarter q fun k => { k with cplls := [] }
  ((c.put (QC_STATUS.locked q) 0).put (QC_STATUS.cfg_pending q) 0).put (QC_STATUS.gck_stopped q) 0

/-- A DRAM controller leaves off for a reset or a low-power state: requests from now on wait, caches written back. A repair runs on. -/
def Chip.ctlPark (c : Chip) (k st : Nat) : Chip :=
  let c := if c.fld (DMC_STATUS.state k) = 7 then c else c.put (DMC_STATUS.state k) st
  ((c.onCtl k fun d => { d with entry := none, train := none, rows := [] }).put (DMC_STATUS.ch_training k) 0).flushChecks k

/-- Controllers of a quarter. -/
def ctlsOf (q : Nat) : List Nat := (List.range 9).map fun i => 9 * q + i

/-- The tile's part of a quarter reset (R137, R138): legs cut, fail data written out, streamers, clusters, clocks and user
registers reset, loads and tests abandoned, ports closing. -/
def Chip.quarterDown (c : Chip) (q : Nat) : Chip :=
  let c := (c.put (QC_STATUS.ready q) 0).onQuarter q fun k => { k with resetting := true }
  let c := c.each (unitsOf q 16) fun c g => c.abortRow g 5 none
  let c := (c.flQuarterReset q).resetStreams q
  let c := c.each (unitsOf q 128) fun c j => c.clReset j
  let c := c.each (unitsOf q 16) fun c r => c.onRegion r fun x => { x with user := x.init }
  let c := (c.resetClocks q).cfgAbort q 18
  let c := c.sliceAbandon fun kind i => decide (i / (if kind = 1 then 128 else 16) = q)
  ((c.odAbandon q).csrForget (qBase q) (qBase (q + 1))).portClose (.quarter (Fin.ofNat 4 q))

/-- QC_CMD.quarter_reset (R138): ignored while one is in progress. The DRAM controllers finish what they have queued, write back
their caches and put every package into self-refresh. -/
def State.quarterReset (s : State) (q : Nat) : State :=
  if (s.chip.quarter q).resetting then s
  else
    let s := s.upd (·.quarterDown q)
    (s.each (ctlsOf q) fun s k => (s.upd (·.ctlPark k 4)).drainCtl k).upd fun c =>
      (c.each (ctlsOf q) fun c k => (c.flushChecks k).put (DMC_STATUS.ch_failed k) 0).flushAllNodes
/-- QUARTER_RESET (R138). -/
def execQuarterReset (q : Fin 4) (s : State) : Res := .next (s.quarterReset q.val)

/-- The wake of a domain in progress ends. -/
def Chip.wakeOver (c : Chip) (dom : Nat) : Chip := { c with pwr := { c.pwr with waking := c.pwr.waking.filter (· ≠ dom) } }
/-- Signpost's state of quarter `q`, and the tile state that follows it (23 R497). -/
def Chip.setQState (c : Chip) (q v : Nat) : Chip :=
  let w := c.fld PWR_STATUS.qstate
  let c := c.put PWR_STATUS.qstate (w - bits w (2 * q) 2 * 2 ^ (2 * q) + v * 2 ^ (2 * q))
  if c.tileUp then c.put PWR_STATUS.state (min (min (c.qstate 0) (c.qstate 1)) (min (c.qstate 2) (c.qstate 3))) else c

/-- Steps 8 and 9 of Table 5.3 for a quarter (R138): stored training loaded, mirrors reloaded, ports open, waiting requests and launches
go on. -/
def Chip.releaseQuarter (c : Chip) (q : Nat) : Chip :=
  let c := (c.put (QC_STATUS.ready q) 1).onQuarter q fun k => { k with resetting := false }
  let c := (c.setQState q 0).wakeOver q
  let c := (c.cplls q).portReopen (.quarter (Fin.ofNat 4 q))
  (c.each (ctlsOf q) fun c k => if c.fld (DMC_STATUS.state k) = 7 then c else c.ctlActive k).lqRefresh

/-- QUARTER_RELEASE (R138): not while a repair runs on a controller of the quarter; in RECOVERY the quarters stay in reset (22 R487). -/
def Chip.quarterRelease (c : Chip) (q : Nat) : Chip :=
  if (c.quarter q).resetting && !c.inRecovery && c.tileUp && !c.offline q && (ctlsOf q).all fun k => c.fld (DMC_STATUS.state k) ≠ 7
  then c.releaseQuarter q else c

/-- One copy of the firmware after another (22 Table 22.3): the header is measured once its checks pass, the body once its digest
agrees; `failed` is the last failed check. -/
def Chip.bootTry (c : Chip) (config : Nat) : List BootTry → Nat → Nat → Chip
  | [], _, failed => (c.put SEC_STATUS.boot 4).raise 17 0 [4, failed]
  | t :: rest, i, failed =>
    if t.check.val = 1 then Chip.bootTry c config rest (i + 1) 1
    else if t.check.val = 2 then Chip.bootTry (c.put SEC_ERR.rollback 1) config rest (i + 1) 2
    else if t.check.val = 3 then Chip.bootTry (c.extend 1 t.header 0 0) config rest (i + 1) 3
    else
      let c := ((c.extend 1 t.header 0 0).extend 2 t.body 0 0).put SEC_STATUS.boot (i + 1)
      (c.doIf (decide (0 < i)) (·.raise 17 0 [i + 1, failed])).extend 3 config 1 0
/-- The boot chain (22 R480, R487): with a failed fuse check straight to RECOVERY. -/
def Chip.bootChain (c : Chip) (b : Boot) : Chip :=
  let c := c.extend 0 b.rom 0 0
  if b.fuses then c.bootTry b.config (b.tries.take 3) 0 0 else (c.put SEC_STATUS.boot 4).raise 17 0 [4, 0]

/-- The security engine at a tile reset (22 R484, R491): measurements, their log and the debug level; fuses, the battery-backed store
and counts since cold start stay. -/
def Chip.secReset (c : Chip) : Chip :=
  let keep := [SEC_STATUS.bstore, SEC_STATUS.fuse_key, SEC_STATUS.debug_disable, SEC_SVN.svn, SEC_TAMPER.flags, SEC_VBAT.mv,
    SEC_QUOTE_CNT.count].map fun f => (f, c.fld f)
  let c := (c.resetRange 0x000B0000 0x000B1000).each keep fun c x => c.put x.1 x.2
  c.onSec fun x => { x with log := [], chal := false, fails := 0, sram := [] }

/-- The host interface, its channels and rings at a tile reset: every register, and the effects of R364 (27 R569). -/
def Chip.hostTileReset (c : Chip) : Chip :=
  let n := c.fld HIF_RESET_CNT.count
  let c := (c.resetRange 0x00040000 0x00054000).put HIF_RESET_CNT.count n
  c.hifReset 4

/-- Trunk ports at a tile reset: full training with settings and coefficients kept (Table 17.6). -/
def Chip.trunksReset (c : Chip) : Chip := c.each (List.range 8) fun c u =>
  let c := c.onPort u fun p => { storedFor := p.storedFor, roleNext := p.roleNext, peer := p.peer }
  if c.fld (TRK_STATUS.state u) = 0 then c else c.trkDetect u

/-- Protected ranges at a tile reset (Table 13.6): nodes written back, a zeroise abandoned and its range in ALARM. -/
def Chip.rangesReset (c : Chip) : Chip :=
  c.flushAllNodes.each (List.range 16) fun c n => if c.prState n = 1 then c.prTo n 4 else c

/-- What a tile reset does to the hub core (R137). -/
def Chip.hubReset (c : Chip) (b : Boot) : Chip :=
  let c := { c with lq := { c.lq with entries := [], commits := [] }, csr := {} }
  let c := (c.crossStop.sliceAbandon fun _ _ => true).secReset
  let c := { c.resetRange 0x00060000 0x00062000 with ways := [] }
  let c := (c.cwReset.cfgTileReset.resetRange SW_CTRL.en.addr (SW_CTRL.en.addr + 0x1000)).onSw fun _ => {}
  let c := ((c.hostTileReset.trunksReset).rangesReset).dbgTileReset
  let c := (c.bootChain b).swBegin
  c.doIf ((List.range 32).any fun d => c.flag (DTR_CTL.en d)) (·.detourExtend)

/-- TILE_RESET (R137): ignored while the mark is in force and while the tile sleeps. -/
def State.tileReset (s : State) (b : Boot) : State :=
  if s.chip.pwr.mark.isSome || !s.chip.tileUp then s
  else
    let s := s.each (List.range 4) fun s q => if s.chip.offline q then s else s.quarterReset q
    s.upd (·.hubReset b)
/-- TILE_RESET (R137). -/
def execTileReset (b : Boot) (s : State) : Res := .next (s.tileReset b)
/-- GC_TILE_RESET (27 R569): a write of GC_CMD. -/
def State.gcCmdWrite (s : State) (v : Nat) (b : Boot) : State :=
  if bits v 16 16 = 0xA5C3 then (if bit v 0 then s.tileReset b else s) else s.upd (·.put GC_ERR.bad_value 1)
/-- GC_TILE_RESET (27 R569). -/
def execGcTileReset (v : Word) (b : Boot) (s : State) : Res := .next (s.gcCmdWrite v.toNat b)

/-- PCIE_RESET (15 R364, 19 Table 19.1): the host interface, and the host's reset epoch. -/
def execPcieReset (kind : Fin 4) (s : State) : Res := s.on fun c => (c.hifReset kind.val).wsEpoch 0 0

end Sys2Proof.Machine
end

