-- ==== Sys2Proof/Machine/PowerStates.lean ====
section
/-! DEFINITION. Power states (23 R497, Tables 23.2 and 23.4): entry to and wake from DORMANT, entry to SEALED, and what the quarters do
in IDLE and STANDBY. -/

namespace Sys2Proof.Machine

/-- Change the power block's state. -/
def Chip.onPwr (c : Chip) (f : Power → Power) : Chip := { c with pwr := f c.pwr }
/-- The tile state is another than `old` (R515 event 0, cause STATE). -/
def Chip.stateEvent (c : Chip) (old : Nat) : Chip :=
  let new := c.fld PWR_STATUS.state
  if new = old then c else c.raise 0 1 [old, new, c.fld PWR_STATUS.qstate, c.fld PWR_STATUS.wake_cause]
/-- Quarter `q` takes a state, its CPLLs with it (05 R136). -/
def Chip.quarterState (c : Chip) (q v : Nat) : Chip :=
  let old := c.fld PWR_STATUS.state
  ((((c.setQState q v).cplls q).stateEvent old).doIf (decide (v = 0)) (·.wakeOver q)).lqRefresh

/-- What rails do to the pins when a quarter core rail is off (07 R159): INHIBIT asserted, DEN off. -/
def Chip.pinsOff (c : Chip) : Chip :=
  let c := c.each (List.range 64) (·.showInhibit ·)
  c.each (List.range 1024) fun c n => if c.fld (PCH_STATUS.den n) = 0 then c else c.enable n 0 c.now

/-- The user state of a region is lost (04 Table 4.9, 06 R154): registers take their initial values, flags clear, block memories are as
at release. -/
def Chip.userLost (c : Chip) (r : Nat) : Chip :=
  if !(c.region r).loaded then c
  else ((c.bmAgain r).onRegion r fun x => { x with user := x.init, flagAt := [] }).put (FAB_REFLEX_FLAGS.flags r) 0

/-- Rails of Table 23.1 that stay on: the others fall. -/
def Chip.railsFall (c : Chip) (stay : Nat) : Chip := c.put PWR_RAIL_STATUS.good (c.fld PWR_RAIL_STATUS.good &&& stay)
/-- Every rail returns but the core rails of offline quarters. -/
def Chip.railsRise (c : Chip) : Chip := c.put PWR_RAIL_STATUS.good (0x7FF - c.fld ID_QUARTERS.offline * 64)

/-- Every local port a sleeping tile closes is CLOSED (Table 23.4 step 1). -/
def Chip.portsShut (c : Chip) : Chip :=
  let c := c.each [0, 1, 2, 3] fun c q => (c.portClose (.quarter (Fin.ofNat 4 q))).portClosed (.quarter (Fin.ofNat 4 q))
  (c.portClose .hub).portClosed .hub

/-- Units stop for DORMANT and SEALED: cores, Sweeper, trunks, link, router; Milepost in HOLDOVER. -/
def Chip.hubDown (c : Chip) : Chip :=
  let c := (c.portsShut.wdgSync.haltLost 2).swStop
  (((c.trunksSleep.mpState 3).put HIF_STATUS.link_up 0).evSleep).onPwr fun p => { p with entering := none, waking := p.waking.filter (· = 4) }

/-- The tile is DORMANT (Table 23.4 step 4): user state, cluster state, lookahead buffers and APG queues are lost. -/
def Chip.dormantEnter (c : Chip) : Chip :=
  let old := c.fld PWR_STATUS.state
  let c := c.hubDown.each (List.range 512) (·.clDormant ·)
  let c := c.each (List.range 64) fun c r => c.userLost r
  let c := c.each (List.range 72) fun c n => c.onStr n fun x => { x with stack := [], lines := [], fetching := [], left := 0 }
  let c := c.each (List.range 64) fun c g => c.apgEmpty g
  let c := c.each (List.range 36) fun c k => (c.onCtl k fun d => { d with entry := none, rows := [], cache := [] }).put (DMC_STATUS.state k) 5
  (((((c.put PWR_STATUS.state 3).railsFall 0x40F).each [0, 1, 2, 3] fun c q => c.cplls q).pinsOff).stateEvent old).lqRefresh

/-- An enabled group after DORMANT (07 R178): IDLE, ARMED while its flag is set; a hold that only a release ends stays. -/
def Chip.groupAwake (c : Chip) (g : Nat) : Chip :=
  let h := c.fld (PGR_STATUS.hold_cause g)
  if c.gstate g ≠ 4 ∨ h = 2 ∨ h = 3 then c else c.toIdle g

/-- The wake from DORMANT ends (R497): ports open, DRAM out of deep sleep, links train, PRIMED streamers refetch, each enabled group
takes its measurement and returns to IDLE with its flag, the router writes what waited. -/
def Chip.dormantWake (c : Chip) (cals : List GroupCal) : Chip :=
  let c := ((c.put PWR_STATUS.state 0).put PWR_STATUS.qstate 0).railsRise
  let here := (List.range 4).filter fun q => !c.offline q
  let c := (c.each here fun c q => c.portReopen (.quarter (Fin.ofNat 4 q))).portReopen .hub
  let c := c.each (here.flatMap ctlsOf) (·.ctlActive ·)
  let c := c.each (List.range 72) fun c n => if c.fld (STR_STATUS.state n) = 2 then c.strLoad n else c
  let c := c.each (List.range 64) fun c g => if c.flag (PGR_CTRL.enable g) then (c.calGroup cals g).groupAwake g else c
  let c := (c.each (List.range 64) (·.showInhibit ·)).each here (·.cplls ·)
  let c := (((c.trunksWake false).evWake).swBegin).wdgReload
  ((c.stateEvent 3).onPwr fun p => { p with waking := [] }).lqRefresh

/-- Register addresses of the blocks SEALED keeps (R497): identity, Milepost, launch queue, event router, trunk settings and hierarchy,
power. -/
def keptSealed (a : Nat) : Bool :=
  decide (a < 0x20) || (decide (0x10000 ≤ a) && decide (a < 0x37F00)) || (decide (0x70000 ≤ a) && decide (a < 0x79000)) ||
    (decide (0xD0000 ≤ a) && decide (a < 0xE0000))

/-- Fields outside those blocks that a fuse, the battery-backed store, a measurement or the system partition keeps (22 R480, R483, 20
R456, 24 R520). -/
def keptFields : List Fld := [SEC_STATUS.bstore, SEC_STATUS.fuse_key, SEC_STATUS.debug_disable, SEC_SVN.svn, SEC_TAMPER.flags,
  SEC_VBAT.mv, CFG_BOOT.slot, CFG_BOOT.en, OD_PLAN.fact 0, OD_PLAN.fact 1, OD_PLAN.fact 2, OD_PLAN.fact 3]

/-- What the tile keeps when everything but the always-on domain loses power: spare rows of the devices, the keys of fuses and battery,
codes in the store flash, the launch queue, the hierarchy, the router. -/
def Chip.sealedCore (c : Chip) : Chip :=
  let kept := keptFields.map fun f => (f, c.fld f)
  let x : Chip :=
    { regs := c.regs.filter fun e => keptSealed (e.1 / 8)
      out := c.out, inflight := c.inflight, mp := c.mp, free := c.free, hy := c.hy, router := c.router, pwr := c.pwr
      lq := { c.lq with crossing := none, waiting := 0, commits := [] }
      trk := c.trk.map fun e => (e.1, { roleNext := e.2.roleNext, peer := e.2.peer })
      sec := { fuseKey := c.sec.fuseKey, batKey := c.sec.batKey, due := c.sec.due }
      od := { stored := c.od.stored }
      dram := { ctls := c.dram.ctls.map fun e => (e.1, { spares := e.2.spares }) } }
  x.each kept fun c e => c.put e.1 e.2

/-- The tile is SEALED (R497, R504 step 7): all but the always-on domain loses power. -/
def State.sealedEnter (s : State) : State :=
  let old := s.chip.fld PWR_STATUS.state
  let c := if old = 3 then s.chip else s.chip.hubDown
  let c := (((c.put PWR_STATUS.state 4).railsFall 3).pinsOff).sealedCore
  { s with chip := ((c.put PWR_STATUS.qstate 0).stateEvent old).lqRefresh, mem := [] }

end Sys2Proof.Machine
end

