-- ==== Sys2Proof/Machine/Vault.lean ====
section
/-! DEFINITION. The power-fail mark, the seal and the vault (23 R502 to R511). -/

namespace Sys2Proof.Machine

/-- What a group does at the mark (Table 23.5 step 2, 07 R172 row 3): a leg ends at its vector, with its strobes compared and its edges
placed, and the group is held ABORTED. -/
def Chip.markGroup (c : Chip) (ls : List Levels) (g : Nat) : Chip :=
  let c := if c.groupBusy g then ((((c.endLegReq g 4).takeStrobes g ls).placeEdges g).legEnd g).placeEdges g else c
  c.abortRow g 1 none

/-- PWR_MARK holds this instant. -/
def Chip.stampMark (c : Chip) : Chip := c.put3 PWR_MARK_LO.mark_lo PWR_MARK_HI.mark_hi PWR_MARK_TOP.mark_top c.now

/-- What stops at the mark in every state (R503): cores, DMA, loads, tests, Sweeper, measurements, the open crossing, a restore. -/
def Chip.markStops (c : Chip) : Chip :=
  let c := (c.dmaPowerFail.cfgStop 19).sliceAbandon fun _ _ => true
  let c := ((c.put BIST_STATUS.state 0).swStop).each (List.range 4) (·.odAbandon ·)
  let c := c.crossStop.cwMark
  let c := if c.pwr.restore.isSome then (c.put PWR_RESTORE_RESULT.result 3).put PWR_ERR.restore_failed 1 else c
  (c.reverseEntry.dropEntries fun _ => true).onPwr fun p => { p with restore := none, waking := [] }

/-- The quarters' part of the seal (Table 23.5 steps 2 and 3): sleeping quarters are woken, groups aborted, fail logs sealed. -/
def Chip.markQuarters (c : Chip) (ls : List Levels) (mark : Nat) (levels : List Nat) (crossing : Bool) : Chip :=
  let here := (List.range 4).filter fun q => !c.offline q
  let low := here.filter fun q => c.qstate q ≠ 0
  let c := c.each low fun c q => (c.quarterState q 0).each (ctlsOf q) fun c k =>
    if c.fld (DMC_STATUS.state k) = 4 then c.put (DMC_STATUS.state k) 2 else c
  let c := c.each (here.flatMap fun q => unitsOf q 16) (·.markGroup ls ·)
  c.each here fun c q => c.flSeal q mark (levels.getD q 0) crossing

/-- A tile that is DORMANT at the mark (Table 23.7): quarters stay off, each span ends at the retained write pointer. -/
def Chip.markDormant (c : Chip) : Chip := c.each (List.range 4) fun c q =>
  c.put2 (FL_SEAL_PTR_LO.seal_lo q) (FL_SEAL_PTR_HI.seal_hi q) (c.flWr q)

/-- The power-fail mark (R502, R503, Table 23.5 steps 1 to 3, Table 23.7): a second one has no effect, SEALED only stamps it. `missing`
names quarters whose data cannot be read. -/
def Chip.powerMark (c : Chip) (cause missing : Nat) (ls : List Levels) : Chip :=
  if c.pwr.sealing.isSome then c
  else if c.fld PWR_STATUS.state = 4 then c.stampMark
  else
    let m := c.now
    let asleep := decide (c.fld PWR_STATUS.state = 3)
    let crossing := c.lq.crossing.isSome
    let x : Seal := ⟨cause, m, decide (c.fld PWR_STATUS.state ≠ 0), crossing, (List.range 4).map c.flLevel, c.mpStatusWord,
      c.fld MP_OFFSET.offset, c.fld MP_HOLD_EST.est, missing ||| c.fld ID_QUARTERS.offline, false⟩
    let c := (c.wdgSync.haltLost 3).stampMark.put PWR_STATUS.sealing 1
    let c := (c.onPwr fun p => { p with mark := some m, sealing := some x }).raise 2 1 [cause, c.pwr.next.getD 0, 0, 0]
    let c := c.markStops
    let c := if asleep then c.markDormant else (c.markQuarters ls m x.levels crossing).powerfailUp (c.fld HY_SELF.tile) m
    ((c.each (List.range 36) (·.ctlMark ·)).each (List.range 36) (·.flushChecks ·)).flushAllNodes

/-- INPUT_LOSS (R502): input out of range for the debounce time. -/
def execInputLoss (ls : List Levels) (s : State) : Res := s.on fun c =>
  ((c.put PWR_STATUS.input_ok 0).onPwr fun p => { p with faults := p.faults ||| 3 }).powerMark 1 0 ls
/-- BUS_UNDERVOLTAGE (R502): the 48 V bus below 40 V. -/
def execBusUndervoltage (mv : BitVec 16) (ls : List Levels) (s : State) : Res := s.on fun c =>
  if mv.toNat < 40000 then (c.put PWR_BUS.mv mv.toNat).powerMark 2 0 ls else c.put PWR_BUS.mv mv.toNat
/-- OCXO_LOSS (R502, 02 R68). -/
def execOcxoLoss (ls : List Levels) (s : State) : Res := s.on (·.powerMark 3 0 ls)
/-- PWR_CMD.seal_now (R505). -/
def Chip.sealNow (c : Chip) (ls : List Levels) : Chip := c.powerMark 4 0 ls
/-- SEAL_NOW (R505). -/
def execSealNow (ls : List Levels) (s : State) : Res := s.on (·.sealNow ls)

/-- INPUT_RIDE_THROUGH (R502): input back within the debounce time, after `us` microseconds. -/
def execInputRideThrough (us : Nat) (s : State) : Res := s.on fun c => c.errEvt PWR_ERR.input_warn 1 1 [us, c.fld PWR_VIN.vin]
/-- INPUT_RETURN (R506): input is good again, `us` microseconds after its loss; a seal in progress goes on. -/
def execInputReturn (us : Nat) (s : State) : Res := s.on fun c =>
  if c.flag PWR_STATUS.input_ok then c
  else
    let c := (c.put PWR_STATUS.input_ok 1).raise 1 2 [us, c.fld PWR_VIN.vin]
    c.onPwr fun p => { p with sealing := p.sealing.map fun x => { x with returned := true } }

/-- A line as a reader of tile DRAM gets it; none where it reads poisoned (Table 12.2). -/
def State.readLine (s : State) (ln : Nat) : Option Nat :=
  let c := s.chip
  let p := c.place (64 * ln)
  let d := s.decodeLine p.ctl ln
  if !d.good || c.chFailed p.ctl p.ch || c.chFailed p.chkCtl p.chkCh then none
  else some (if (c.rangeOf (64 * ln)).isSome then s.fixedLine p.ctl ln else s.fixedLine p.ctl ln ^^^ c.pattern ln)

/-- Byte `x` of the fail-log stream of quarter `q` in the DRAM (09 R215). -/
def Chip.spanAddr (c : Chip) (q x : Nat) : Nat :=
  c.act (FL_BUF_BASE_LO.base_lo q) + 2 ^ 32 * c.act (FL_BUF_BASE_HI.base_hi q) + x % 2 ^ c.act (FL_BUF_SIZE.log2 q)
/-- FL_SEAL_PTR of a quarter. -/
def Chip.flSealPtr (c : Chip) (q : Nat) : Nat := c.fld2 (FL_SEAL_PTR_LO.seal_lo q) (FL_SEAL_PTR_HI.seal_hi q)
/-- Lines of a quarter's span. -/
def Chip.spanLines (c : Chip) (q : Nat) : Nat := (c.flSealPtr q - c.flAck q + 63) / 64
/-- Line `i` of a quarter's span; none where a byte of it was poisoned when read (R507). -/
def State.spanLine (s : State) (q i : Nat) : Option Nat :=
  let c := s.chip
  let pos (j : Nat) : Nat := c.flAck q + 64 * i + j
  let at_ (j : Nat) : Option Nat := if c.flSealPtr q ≤ pos j then some 0 else
    (s.readLine (c.spanAddr q (pos j) / 64)).map fun l => bits l (8 * (c.spanAddr q (pos j) % 64)) 8
  if (List.range 64).any fun j => (at_ j).isNone then none else some (lineOf fun j => (at_ j).getD 0)

/-- The entries of the ECC logs in the seal record (Table 23.6). -/
def Chip.eccRecord (c : Chip) (k : Nat) : List Nat :=
  (List.range 16).flatMap fun i => match (c.ctl k).log[i]? with
    | some e => bytesLE 6 e.addr ++ [e.channel % 256, e.kind + 4 * ofBool e.patrol + 8 * e.symbols] ++ bytesLE 7 e.stamp ++ [0]
    | none => bytesLE 16 0

/-- The seal record (Table 23.6): `n` the seal number, `poisoned` the poisoned lines of each quarter's span, `events` stored. -/
def Chip.vaultRecord (c : Chip) (x : Seal) (n events : Nat) (poisoned : Nat → Nat) : List Nat :=
  let head := bytesLE 4 0x4C414553 ++ bytesLE 2 1 ++ bytesLE 2 x.cause ++ bytesLE 8 c.serial ++ bytesLE 2 (c.fld HY_SELF.tile) ++
    bytesLE 2 (c.fld MP_EPOCH.epoch) ++ bytesLE 4 n ++ bytesLE 16 x.at_ ++ bytesLE 4 x.mpStatus ++ bytesLE 4 x.offset ++
    bytesLE 4 x.hold ++ bytesLE 4 (c.fld LQ_BATCH.batch) ++
    bytesLE 4 (ofBool x.crossing + 2 * ofBool x.below + 16 * x.missing) ++ bytesLE 4 0
  let summary := (List.range 32).flatMap fun w => bytesLE 4 (c.fld (LQ_LAST_SUM.sum w))
  let quarter (q : Nat) := bytesLE 8 (c.flAck q) ++ bytesLE 8 (c.flSealPtr q) ++ bytesLE 4 (x.levels.getD q 0) ++
    bytesLE 4 (c.log q).postCnt ++ bytesLE 8 (c.log q).postLast ++ bytesLE 4 (poisoned q) ++
    bytesLE 8 (c.drainPtr (c.fld (FL_DMA_CH.ch q)) q) ++ bytesLE 20 0
  let body := head ++ summary ++ (List.range 4).flatMap quarter ++
    ((List.range 24).flatMap fun w => bytesLE 4 (c.fld (EV_LATCH.latch w))) ++ bytesLE 4 events ++ bytesLE 28 0 ++
    ((List.range 36).flatMap fun k => bytesLE 4 (c.fld (ECC_UE_CNT.count k))) ++ bytesLE 48 0 ++
    ((List.range 16).flatMap c.mrBytes) ++ ((List.range 36).flatMap c.eccRecord) ++ bytesLE 5628 0
  body ++ bytesLE 4 (crc32c body)

/-- Extension and payload of an event record (Table 16.3): a NOTE's as R415 places them, else extension 0 and the payload's values, none
being all zeros. -/
def EvRec.tail (e : EvRec) : List Nat :=
  match e.payload with
  | [] => bytesLE 28 0
  | x :: xs => if e.num = 181 then bytesLE 2 x ++ bytesLE 2 (xs.headD 0) ++ (xs.drop 1).take 24 else
      bytesLE 4 0 ++ bytesLE 24 (Config.eventPayload e.num e.payload)
/-- The 64 bytes of an event record (Table 16.3). -/
def EvRec.record (e : EvRec) : List Nat :=
  let body := bytesLE 16 e.stamp ++ bytesLE 2 e.num ++ bytesLE 2 e.tile ++ bytesLE 2 e.epoch ++ [e.cause, e.flags] ++ bytesLE 4 e.seq ++
    e.tail ++ bytesLE 4 0
  body ++ bytesLE 4 (crc32c body)

/-- The slot a seal fills (R507, Table 23.5 steps 4 and 5). -/
def State.vaultSlot (s : State) (x : Seal) (n : Nat) : VSlot :=
  let c := s.chip
  let here := (List.range 4).filter fun q => !bit x.missing q
  let span (q : Nat) : List (Nat × Option Nat) := (List.range (c.spanLines q)).map fun i => (i, s.spanLine q i)
  let bad (q : Nat) : List Nat := if here.contains q then ((span q).filter fun e => e.2.isNone).map (·.1) else []
  let base (q : Nat) : Nat := (0x100000 + q * 0x800000) / 64
  let evs := ((c.router.queue ++ c.router.standby).map (·.2)).take 320
  let record := c.vaultRecord x n evs.length fun q => (bad q).length
  let put (t : Tab Nat) (i v : Nat) : Tab Nat := Tab.set 0 t i v
  let t := (List.range 256).foldl (fun t i => put t i (numLE ((record.drop (64 * i)).take 64))) []
  let t := evs.zipIdx.foldl (fun t e => put t (256 + e.2) (numLE e.1.record)) t
  let t := here.foldl (fun t q => (span q).foldl (fun t e => put t (base q + e.1) (e.2.getD 0)) t) t
  let t := here.foldl (fun t q => (bad q).foldl (fun t i =>
    let w := (0xC000 + q * 0x4000) / 64 + i / 512
    put t w (Tab.get 0 t w ||| 2 ^ (i % 512))) t) t
  ⟨n, x.cause, 1, t, here.flatMap fun q => (bad q).map (base q + ·)⟩

/-- The complete slot with the highest number among those that `p` picks. -/
def Chip.latestSlot (c : Chip) (p : VSlot → Bool) : Option (Nat × VSlot) :=
  c.pwr.slots.foldl (fun best e => match e.2, best with
    | some v, none => if p v then some (e.1, v) else none
    | some v, some b => if p v ∧ b.2.n ≤ v.n then some (e.1, v) else some b
    | none, b => b) none
/-- PWR_SEAL_INFO and PWR_STATUS.unreleased follow the vault. -/
def Chip.vaultShow (c : Chip) : Chip :=
  let c := c.putB PWR_STATUS.unreleased (c.latestSlot fun v => decide (v.state = 1)).isSome
  match c.latestSlot fun v => decide (v.state ≠ 0) with
  | some (i, v) => ((c.put PWR_SEAL_INFO.cause v.cause).put PWR_SEAL_INFO.slot i).put PWR_SEAL_INFO.valid 1
  | none => ((c.put PWR_SEAL_INFO.cause 0).put PWR_SEAL_INFO.slot 0).put PWR_SEAL_INFO.valid 0
/-- Fill or change a slot. -/
def Chip.setSlot (c : Chip) (i : Nat) (v : Option VSlot) : Chip :=
  (c.onPwr fun p => { p with slots := Tab.set none p.slots i v }).vaultShow

/-- Steps 4 to 6 of a seal (R504): the slot is written and its record checked; without an erased slot or a good record it stays
incomplete. -/
def State.sealEnd (s : State) (x : Seal) (ok : Bool) : State :=
  let n := s.chip.fld PWR_SEAL_CNT.count
  let v := s.vaultSlot x n
  let total := ((List.range 4).map fun q => if bit x.missing q then 0 else s.chip.flSealPtr q - s.chip.flAck q).sum
  s.upd fun c =>
    let i := c.pwr.next.getD 0
    let c := (c.put PWR_STATUS.sealing 0).put PWR_STATUS.vault_ready 0
    let us := microsBetween x.at_ c.now
    let c := if c.pwr.next.isNone then c
      else if ok then
        ((((c.setSlot i (some v)).incWrap PWR_SEAL_CNT.count).put PWR_SEAL_TIME.us us)).raise 2 2 [x.cause, i, total, us]
      else (c.setSlot i (some { v with state := 0 })).raise 6 3 [i]
    c.onPwr fun p => { p with mark := none, sealing := none, next := none }

/-- The tile after a seal it outlives (R506): a tile reset, which ends the fail logs' SEALED flow. -/
def State.sealedLive (s : State) (b : Boot) : State :=
  let s := s.upd fun c => if c.fld PWR_STATUS.state = 3 then c.dormantWake [] else c
  let s := s.upd fun c => c.each (List.range 4) fun c q =>
    (c.put (FL_STATUS.flow q) 0).onLog q fun l => { l with postCnt := 0, postLast := 0 }
  (s.tileReset b).upd (·.put PWR_STATUS.sealed_live 1)

/-- SEAL_COMPLETE (R504 to R506): after an input seal whose input has returned, a tile reset; else SEALED. -/
def State.sealComplete (s : State) (ok : Bool) (b : Boot) : State :=
  match s.chip.pwr.sealing with
  | none => s
  | some x =>
    let s := (s.upd fun c => c.each (List.range 4) (·.flSealForce ·)).sealEnd x ok
    if (x.cause = 1 ∨ x.cause = 2) ∧ x.returned then s.sealedLive b
    else s.sealedEnter
/-- SEAL_COMPLETE (R504). -/
def execSealComplete (ok : Bool) (b : Boot) (s : State) : Res := .next (s.sealComplete ok b)

/-- The slot due for seal `n` (R507): from n mod 128 on the first that is free or released; with none, the oldest is overwritten. -/
def Chip.slotDue (c : Chip) : Nat × Bool :=
  let held (i : Nat) : Bool := match Tab.get none c.pwr.slots i with | some v => decide (v.state = 1) | none => false
  let order := (List.range 128).map fun k => (c.fld PWR_SEAL_CNT.count + k) % 128
  match order.find? fun i => !held i with
  | some i => (i, false)
  | none =>
    let old := c.pwr.slots.foldl (fun best e => match e.2, best with
      | some v, none => some (e.1, v.n)
      | some v, some (b : Nat × Nat) => if v.n < b.2 then some (e.1, v.n) else some b
      | none, b => b) none
    ((old.map (·.1)).getD 0, true)

/-- VAULT_ERASE_DONE (R507): firmware has erased the next slot, or no spare block remains. -/
def execVaultEraseDone (spare : Bool) (s : State) : Res := s.on fun c =>
  if c.pwr.next.isSome then c
  else
    let d := c.slotDue
    if !spare then c.raise 6 1 [d.1]
    else
      let c := (c.doIf d.2 (·.put PWR_ERR.vault 1)).setSlot d.1 none
      (c.onPwr fun p => { p with next := some d.1 }).put PWR_STATUS.vault_ready 1

/-- PWR_RESTORE_BASE. -/
def Chip.restoreBase (c : Chip) : Nat := c.fld PWR_RESTORE_BASE_LO.base_lo * 2 ^ 20 + c.fld PWR_RESTORE_BASE_HI.base_hi * 2 ^ 32
/-- The 64 MiB at the base overlap a metadata area (13 R303). -/
def Chip.restoreOverlaps (c : Chip) : Bool := (List.range 16).any fun n =>
  decide (c.prState n ≠ 0) && overlap c.restoreBase (2 ^ 26) (c.prMeta n) (c.prSize n / 2)
/-- PWR_CMD.restore (R510). -/
def Chip.restoreStart (c : Chip) : Chip :=
  if c.pwr.restore.isSome then c
  else match c.latestSlot fun v => decide (v.state = 1) with
    | none => c.put PWR_RESTORE_RESULT.result 2
    | some (i, _) =>
      if c.restoreOverlaps then c.put PWR_RESTORE_RESULT.result 2
      else ((c.onPwr fun p => { p with restore := some i }).put PWR_RESTORE_RESULT.result 0).put PWR_RESTORE_RESULT.poisoned 0
/-- RESTORE (R510). -/
def execRestore (s : State) : Res := s.on (·.restoreStart)

/-- A restored line is written, poisoned where it was (R510, 12 R291). -/
def State.restoreLine (s : State) (ln v : Nat) (bad : Bool) : State :=
  let s := match s.chip.rangeOf (64 * ln) with
    | some n => (s.putSecret ln v).upd (·.leafDirty n ((64 * ln - s.chip.prBase n) / 64))
    | none => s.putPlain ln v
  if !bad then s
  else s.upd fun c =>
    let k := (c.place (64 * ln)).ctl
    ((c.setDev ln poisonMark).eccEnter k (64 * ln) 0 1 false).eccErr k 2 (ECC_ERR.poison_write k)

/-- A restore ends (R510): the slot's 64 MiB stand at the base; `pages` are those whose tag failed. -/
def State.restoreDone (s : State) (pages : List Nat) : State :=
  match s.chip.pwr.restore with
  | none => s
  | some i =>
    let v : VSlot := ((Tab.get none s.chip.pwr.slots i : Option VSlot)).getD ⟨0, 0, 0, [], []⟩
    let base := s.chip.restoreBase / 64
    let s := s.each (List.range 0x100000) fun s l =>
      s.restoreLine (base + l) (Tab.get 0 v.lines l) (v.poison.contains l || pages.contains (l / 64))
    s.upd fun c =>
      let c := c.onPwr fun p => { p with restore := none, restored := some i }
      ((c.put PWR_RESTORE_RESULT.result 1).put PWR_RESTORE_RESULT.poisoned pages.length).raise 6 2 [i]
/-- RESTORE_DONE (R510). -/
def execRestoreDone (pages : List (Fin 16384)) (s : State) : Res := .next (s.restoreDone (pages.map (·.val)))

/-- PWR_CMD.release (R510): the restored slot is released. -/
def Chip.vaultRelease (c : Chip) : Chip :=
  match c.pwr.restored with
  | none => c
  | some i => match (Tab.get none c.pwr.slots i : Option VSlot) with
    | none => c
    | some v => (c.setSlot i (some { v with state := if v.state = 1 then 2 else v.state })).onPwr fun p => { p with restored := none }
/-- VAULT_RELEASE (R510). -/
def execVaultRelease (s : State) : Res := s.on (·.vaultRelease)

end Sys2Proof.Machine
end

