-- ==== Sys2Proof/Machine/Signpost.lean ====
section
/-! DEFINITION. Signpost, wakes, rails, thermal limits and the PMBus (23 R494 to R501, R505, R512, R513). The end of a wake stands
in ColdStart.lean, because a wake from SEALED runs its steps. -/

namespace Sys2Proof.Machine

/-- A DRAM controller holds its quarter in RUN (Table 23.3 row 4). -/
def Chip.ctlVeto (c : Chip) (k : Nat) : Bool := [1, 6, 7].contains (c.fld (DMC_STATUS.state k))
/-- Map apply or the initial fill holds every quarter (row 4). -/
def Chip.dramVeto (c : Chip) : Bool := c.flag DMC_MAP_STATUS.busy || c.flag DMC_MAP_STATUS.init_busy
/-- Rows 1 to 4 of Table 23.3 for quarter `q`. -/
def Chip.quarterHold (c : Chip) (q row : Nat) : Bool :=
  if row = 1 then c.quarterRunning q
  else if row = 2 then (unitsOf q 18).any fun n => c.fld (STR_STATUS.state n) = 1 || c.fld (STR_STATUS.state n) = 3
  else if row = 3 then (unitsOf q 128).any fun j => c.flag (CL_STATUS.run_veto j)
  else row = 4 && (c.dramVeto || (ctlsOf q).any c.ctlVeto)

/-- R60: the projection of MP_HOLD_EST to the next queued launch, in 10^-6 MT: from the present estimate, in LOCKED from the last accepted
offset; 0 on a manager. -/
def Chip.holdProjection (c : Chip) (d : Nat) : Nat :=
  if c.isManager then 0
  else (if c.fld MP_STATUS.state = 2 then c.mp.theta.natAbs * 1000000 else c.mp.holdAcc) + c.fld MP_HOLD_PPT.ppt * d / 1000000
/-- Row 13: the projection exceeds MP_ALIGN_LIMIT, or the 2 ms of retraining and one exchange do not fit before the launch. -/
def Chip.mpVeto (c : Chip) : Bool :=
  match c.earliest with
  | none => false
  | some e =>
    let d := e.t - c.now
    decide (c.fld MP_ALIGN_LIMIT.limit * 1000000 < c.holdProjection d) || (!c.isManager && decide (d < 3 * msMT))

/-- Row `row` of Table 23.3 holds now. -/
def Chip.vetoRow (c : Chip) (row : Nat) : Bool :=
  if row ≤ 4 then (List.range 4).any fun q => !c.offline q && c.quarterHold q row
  else if row = 5 then c.flag CFG_STATUS.run_veto
  else if row = 6 then (List.range 16).any fun n => c.prState n = 1 || c.prState n = 3
  else if row = 7 then decide (c.fld BIST_STATUS.state ≠ 0)
  else if row = 8 then c.runVeto
  else if row = 9 then (List.range 64).any c.denVeto
  else if row = 10 then !c.flag HIF_STATUS.d3hot
  else if row = 11 then c.trunkVeto
  else if row = 12 then c.cwVeto
  else if row = 13 then c.mpVeto
  else if row = 14 then (List.range 4).any fun q => decide (c.flLevel q ≠ 0)
  else row = 15 && !c.flag PWR_STATUS.vault_ready
/-- PWR_VETO (R499): bit n - 1 for row n. -/
def Chip.vetoRows (c : Chip) : Nat := maskOf ((List.range 15).filter fun i => c.vetoRow (i + 1))

/-- Wake time of a state (Table 23.2), MT. -/
def wakeTime (s : Nat) : Nat :=
  if s = 1 then 1536000 else if s = 2 then 81920000 else if s = 3 then 6144000000 else if s = 4 then 1500 * msMT else 0
/-- Dwell of a state, MT. -/
def Chip.dwell (c : Chip) (s : Nat) : Nat :=
  if s = 2 then c.fld PWR_DWELL_STBY.us * usMT
  else if s = 3 then c.fld PWR_DWELL_DORM.ms * msMT
  else if s = 4 then c.fld PWR_DWELL_SEAL.s * (1000 * msMT) else 0
/-- R498: time left for a state before the next launch, unbounded while the queue is empty. -/
def Chip.fitsState (c : Chip) (s : Nat) : Bool :=
  match c.earliest with
  | none => true
  | some e =>
    let need := wakeTime s + c.fld LQ_GUARD.guard + c.fld PWR_MARGIN.us * usMT
    decide (c.now + need + c.dwell s ≤ e.t)

/-- quiet(q) of R498. -/
def Chip.quiet (c : Chip) (q : Nat) : Bool :=
  !c.quarterRunning q && decide (Tab.get 0 c.pwr.busyAt q + c.fld PWR_IDLE_NS.ns * nsMT ≤ c.now)
/-- No row holds quarter `q` in RUN. -/
def Chip.quarterFree (c : Chip) (q : Nat) : Bool :=
  !([1, 2, 3, 4].any (c.quarterHold q)) && !([5, 6, 7, 8].any c.vetoRow)
/-- Deepest state quarter `q` may take, PWR_CTRL.qmax. -/
def Chip.qmax (c : Chip) (q : Nat) : Nat := bits (c.fld PWR_CTRL.qmax) (2 * q) 2
/-- R498: the state Signpost picks for quarter `q`. -/
def Chip.pickQuarter (c : Chip) (q : Nat) : Nat :=
  if !c.quarterFree q || !c.quiet q then 0
  else if 2 ≤ c.qmax q ∧ c.fitsState 2 then 2
  else if 1 ≤ c.qmax q ∧ c.fitsState 1 then 1 else 0
/-- R498: the tile state it picks. -/
def Chip.pickTile (c : Chip) : Option Nat :=
  let calm := (List.range 4).all fun q => c.offline q || (c.quarterFree q && c.quiet q && decide (2 ≤ c.qmax q))
  let may (s : Nat) : Bool := decide (s ≤ c.fld PWR_CTRL.max_state) && calm && c.fitsState s &&
    !([9, 10, 11, 12, 13].any c.vetoRow) && (s = 3 || !([14, 15].any c.vetoRow))
  [4, 3].find? may

/-- An entry of controllers `ks` to low-power state `st` is ready: each is in it or has its entry command issued (11 R274). -/
def Chip.lpReady (c : Chip) (ks : List Nat) (st : Nat) : Bool :=
  ks.all fun k => decide (c.fld (DMC_STATUS.state k) = st) || decide ((c.ctl k).entry = some (st, true))
/-- A request cancelled the entry of one of them. -/
def Chip.lpRefused (c : Chip) (ks : List Nat) : Bool := ks.any fun k => (c.ctl k).refuse
/-- The refusal is taken: the entries of `ks` are dropped. -/
def Chip.lpClear (c : Chip) (ks : List Nat) : Chip :=
  (c.each ks fun c k => c.onCtl k fun d => { d with refuse := false }).dropEntries fun k => ks.contains k
/-- The next phase of an entry (Table 11.5): it begins once nothing is queued, caches written back; then its command is issued. -/
def Chip.lpAdvance (c : Chip) (ks : List Nat) (st : Nat) : Chip :=
  let idle (k : Nat) : Bool := decide (c.fld (DMC_STATUS.state k) = st)
  if ks.all fun k => idle k || decide ((c.ctl k).entry = some (st, false)) then
    c.each ks fun c k => if idle k then c else c.onCtl k fun d => { d with entry := some (st, true) }
  else (c.each ks fun c k =>
    if idle k || !c.ctlIdle k || ((c.ctl k).entry.map (·.1)) = some st then c
    else (c.flushChecks k).onCtl k fun d => { d with entry := some (st, false) }).doIf (decide (st ≠ 3)) (·.flushAllNodes)
/-- The controllers are in it. -/
def Chip.lpDone (c : Chip) (ks : List Nat) (st : Nat) : Chip :=
  c.each ks fun c k => (c.onCtl k fun d => { d with entry := none, rows := [] }).put (DMC_STATUS.state k) st

/-- A hold or qmax forbids the state quarter `q` sleeps in (R498, R499). -/
def Chip.barred (c : Chip) (q : Nat) : Bool :=
  decide (c.qstate q ≠ 0) && (!c.quarterFree q || decide (c.qmax q < c.qstate q))
/-- Signpost's judgement of quarter `q` (R498): a deeper state in the phases of its DRAM entry, which a refusal puts off for
PWR_IDLE_NS; a state that is forbidden ends by a wake, one that no longer fits the time left by the timed wake. -/
def Chip.judgeQuarter (c : Chip) (q : Nat) : Chip :=
  if c.offline q || (c.quarter q).resetting || c.pwr.waking.contains q then c
  else
    let want := c.pickQuarter q
    let st := if want = 2 then 4 else 3
    let ks := ctlsOf q
    if c.barred q then c.startWake q 1
    else if want ≤ c.qstate q then c.dropEntries fun k => k / 9 = q
    else if c.lpRefused ks then (c.lpClear ks).stir q
    else if c.lpReady ks st then (c.lpDone ks st).quarterState q want
    else c.lpAdvance ks st

/-- The fail log of quarter `q` has written and harvested everything (Table 23.4 step 2). -/
def Chip.logIdle (c : Chip) (q : Nat) : Bool :=
  let l := c.log q
  l.intake.isEmpty && l.dirty.isEmpty && l.ors.isEmpty && l.records.isEmpty && l.harvests.isEmpty

/-- One step of the entry to a tile state (Table 23.4): ports close and fail data is written out; then DRAM enters deep sleep; then the
rails fall. -/
def State.enterTile (s : State) (want : Nat) : State :=
  let c := s.chip
  let here := (List.range 4).filter fun q => !c.offline q
  let ks := here.flatMap ctlsOf
  if c.pwr.entering ≠ some want then
    s.upd fun c =>
      let c := c.reverseEntry
      let c := (c.each here fun c q => c.portClose (.quarter (Fin.ofNat 4 q))).portClose .hub
      let c := c.each here fun c q => (c.flEmitAll q 16384).flDue q fun _ => true
      ((c.each ks (·.flushChecks ·)).flushAllNodes).onPwr fun p => { p with entering := some want }
  else if c.lpRefused ks then s.upd fun c => (c.lpClear ks).reverseEntry.each here (·.stir ·)
  else if !here.all c.logIdle then s
  else if !c.lpReady ks 5 then s.upd (·.lpAdvance ks 5)
  else if want = 3 then s.upd (·.dormantEnter)
  else s.sealedEnter

/-- SIGNPOST_JUDGE (R498). -/
def State.judge (s : State) : State :=
  let c := s.chip
  if !c.flag PWR_CTRL.signpost_en || !c.tileUp || c.pwr.mark.isSome || c.pwr.waking.contains 4 then s
  else match c.pickTile with
    | some want => s.enterTile want
    | none => s.upd fun c => c.reverseEntry.each (List.range 4) (·.judgeQuarter ·)
/-- SIGNPOST_JUDGE (R498). -/
def execSignpostJudge (s : State) : Res := .next s.judge

/-- SIGNPOST_WAKE (R498): the timed wake of every sleeping domain whose wake must start now; one that is waking goes on. -/
def Chip.signpostWake (c : Chip) : Chip :=
  match c.earliest with
  | none => c
  | some e =>
    let due (st : Nat) : Bool := decide (e.t ≤ c.now + wakeTime st + c.fld PWR_MARGIN.us * usMT)
    if !c.flag PWR_CTRL.signpost_en then c
    else if !c.tileUp then (if due (c.fld PWR_STATUS.state) && !c.pwr.waking.contains 4 then c.startWake 4 1 else c)
    else c.each (List.range 4) fun c q => if c.qstate q ≠ 0 ∧ due (c.qstate q) ∧ !c.pwr.waking.contains q then c.startWake q 1 else c
/-- SIGNPOST_WAKE (R498). -/
def execSignpostWake (s : State) : Res := s.on (·.signpostWake)

/-- PWR_CMD.wake_now (R500): domains in IDLE or STANDBY. -/
def Chip.wakeNow (c : Chip) : Chip := if c.tileUp then c.each (List.range 4) (·.startWake · 7) else c
/-- WAKE_NOW (R500). -/
def execWakeNow (s : State) : Res := s.on (·.wakeNow)
/-- HOST_LINK_TRAINING (R500): in DORMANT and SEALED. -/
def execHostLinkTraining (s : State) : Res := s.on fun c => if c.tileUp then c else c.startWake 4 5

/-- R501: a wake of a domain ends after the time of a queued launch of it. -/
def Chip.lateWake (c : Chip) (dom : Nat) : Chip :=
  if c.lq.entries.any fun e => decide (e.t < c.now) && (dom = 4 || (c.targets e.action e.arg).contains dom) then
    (c.incSat PWR_LATE_CNT.count).errEvt PWR_ERR.late_wake 0 2
      [c.fld PWR_STATUS.state, c.fld PWR_STATUS.state, c.fld PWR_STATUS.qstate, c.fld PWR_STATUS.wake_cause]
  else c
/-- The wake of a quarter from IDLE or STANDBY ends (Table 23.2): its DRAM leaves self-refresh, its CPLLs start, its entries are ready. -/
def Chip.quarterWake (c : Chip) (q : Nat) : Chip :=
  if c.tileUp && c.pwr.waking.contains q then
    let c := c.each (ctlsOf q) fun c k => if c.fld (DMC_STATUS.state k) = 4 then c.ctlActive k else c
    (c.quarterState q 0).lateWake q
  else c

/-- A quarter whose core rail has failed loses what it held, and waiting requests to it are answered TIMEOUT (R496, 11 R262). -/
def Chip.quarterLost (c : Chip) (q : Nat) : Chip :=
  let c := c.put ID_QUARTERS.offline (withBit (c.fld ID_QUARTERS.offline) q true)
  let c := (c.put (QC_STATUS.ready q) 0).each (unitsOf q 16) (·.toSafe ·)
  let c := (c.resetStreams q).each (unitsOf q 128) (·.clReset ·)
  let c := ((c.resetClocks q).cfgAbort q 2).sliceAbandon fun kind i => decide (i / (if kind = 1 then 128 else 16) = q)
  let c := c.each (ctlsOf q) fun c k =>
    let d := c.ctl k
    let all := d.queues.flatMap (·.2) ++ d.gate ++ d.ring ++ d.verify.map (·.req)
    (c.each all fun c r => c.respond k r .timeout 0).onCtl k fun d => { d with queues := [], gate := [], ring := [], verify := [], entry := none }
  (c.odAbandon q).portClose (.quarter (Fin.ofNat 4 q))

/-- RAIL_FAULT (R496): rails in the order of Table 23.1. A core rail takes its quarter offline; VNET, VHUB and VDRAM seal the tile. -/
def Chip.railFault (c : Chip) (rail : Nat) (ls : List Levels) : Chip :=
  let c := c.put PWR_RAIL_STATUS.good (withBit (c.fld PWR_RAIL_STATUS.good) rail false)
  let c := c.errEvt PWR_ERR.rail_fault 5 0 [rail]
  if 6 ≤ rail ∧ rail ≤ 9 then (if c.offline (rail - 6) then c else (c.quarterLost (rail - 6)).raise 11 1 [rail - 6])
  else if rail = 4 ∨ rail = 5 ∨ rail = 10 then
    (c.onPwr fun p => { p with shut := p.shut ++ [3] }).powerMark 6 (if rail = 10 then 15 else 0) ls
  else c
/-- RAIL_FAULT (R496). -/
def execRailFault (rail : Fin 11) (ls : List Levels) (s : State) : Res := s.on (·.railFault rail ls)

/-- PWR_TEMP is read: PWR_TEMP_WARN reached (R512). -/
def Chip.tempWarn (c : Chip) (temp : Nat) : Chip :=
  let c := c.put PWR_TEMP.temp temp
  if c.fldS PWR_TEMP_WARN.warn ≤ c.fldS PWR_TEMP.temp then
    (c.errEvt PWR_ERR.thermal_warn 4 1 [temp]).onPwr fun p => { p with faults := p.faults ||| 4 }
  else c
/-- THERMAL_WARN (R512). -/
def execThermalWarn (temp : BitVec 16) (s : State) : Res := s.on (·.tempWarn temp.toNat)
/-- THERMAL_CRIT (R512): PWR_TEMP_CRIT reached starts a controlled seal with cause THERMAL. -/
def execThermalCrit (temp : BitVec 16) (ls : List Levels) (s : State) : Res := s.on fun c =>
  let c := c.tempWarn temp.toNat
  if c.fldS PWR_TEMP_CRIT.crit ≤ c.fldS PWR_TEMP.temp then
    let c := c.errEvt PWR_ERR.thermal_crit 4 2 [temp.toNat]
    (c.onPwr fun p => { p with faults := p.faults ||| 8, shut := if p.shut.contains 2 then p.shut else p.shut ++ [2] }).powerMark 5 0 ls
  else c
/-- THERMAL_CLEAR (R512): the temperature below PWR_TEMP_WARN. -/
def execThermalClear (temp : BitVec 16) (s : State) : Res := s.on fun c =>
  let c := c.put PWR_TEMP.temp temp.toNat
  if c.fldS PWR_TEMP.temp < c.fldS PWR_TEMP_WARN.warn then
    (c.raise 4 3 [temp.toNat]).onPwr fun p => { p with shut := p.shut.filter (· ≠ 2) }
  else c

/-- A Linear11 word (R513) of `num / den`: the least exponent whose mantissa fits, rounded to nearest; `i` is the exponent plus 16. -/
def linear11 (num : Int) (den : Nat) : Nat → Nat → Nat
  | 0, _ => 0
  | fuel + 1, i =>
    let d : Nat := 2 * den * 2 ^ i
    let m : Nat := (2 * num.natAbs * 2 ^ 16 + d / 2) / d
    if m ≤ 1023 then patternOf 5 ((i : Int) - 16) * 2 ^ 11 + patternOf 11 (if num < 0 then -(m : Int) else m)
    else linear11 num den fuel (i + 1)
/-- A PMBus answer of `n` bytes, least significant first. -/
def Chip.pmWord (c : Chip) (n v : Nat) : Chip := c.emit (.pmbus true (bytesLE n v))
/-- A reading in Linear11. -/
def Chip.pmReading (c : Chip) (num : Int) (den : Nat) : Chip := c.pmWord 2 (linear11 num den 32 0)
/-- A block read: its length, then its bytes. -/
def Chip.pmBlock (c : Chip) (bytes : List Nat) : Chip := c.emit (.pmbus true (bytes.length :: bytes))

/-- OPERATION (R505, Table 23.8): read; 0x80 on, which wakes; 0x00 off, a controlled seal; any other value is not acknowledged. -/
def execOperation (v : Option (BitVec 8)) (ls : List Levels) (s : State) : Res := s.on fun c =>
  match v with
  | none => c.pmWord 1 (if c.pwr.shut.contains 1 then 0 else 0x80)
  | some b =>
    if b.toNat = 0x80 then
      let c := c.onPwr fun p => { p with shut := p.shut.filter (· ≠ 1) }
      let c := if c.tileUp && c.pwr.sealing.isNone then c.each (List.range 4) (·.startWake · 6) else c.startWake 4 6
      c.emit (.pmbus true [])
    else if b.toNat = 0 then
      let c := c.onPwr fun p => { p with shut := if p.shut.contains 1 then p.shut else p.shut ++ [1] }
      (c.emit (.pmbus true [])).powerMark 4 0 ls
    else c.emit (.pmbus false [])

/-- Status bits that are active: input, temperature against its limits. -/
def Chip.faultsActive (c : Chip) : Nat :=
  (if c.flag PWR_STATUS.input_ok then 0 else 3) + 4 * ofBool (c.fldS PWR_TEMP_WARN.warn ≤ c.fldS PWR_TEMP.temp) +
    8 * ofBool (c.fldS PWR_TEMP_CRIT.crit ≤ c.fldS PWR_TEMP.temp)
/-- CLEAR_FAULTS (Table 23.8). -/
def execClearFaults (s : State) : Res := s.on fun c =>
  (c.onPwr fun p => { p with faults := p.faults &&& c.faultsActive }).emit (.pmbus true [])
/-- CAPABILITY. -/
def execCapability (s : State) : Res := s.on (·.pmWord 1 0xB0)
/-- STATUS_WORD: INPUT bit 13, POWER_GOOD# bit 11, OFF bit 6, TEMPERATURE bit 2. -/
def execStatusWord (s : State) : Res := s.on fun c =>
  let off := c.fld PWR_STATUS.state = 4
  c.pmWord 2 (2 ^ 13 * ofBool (c.pwr.faults % 4 ≠ 0) + 2 ^ 11 * ofBool off + 2 ^ 6 * ofBool off + 4 * ofBool (c.pwr.faults / 4 ≠ 0))
/-- STATUS_INPUT: undervoltage fault bit 4, off for low input bit 3. -/
def execStatusInput (s : State) : Res := s.on fun c =>
  c.pmWord 1 (16 * bits c.pwr.faults 0 1 + 8 * bits c.pwr.faults 1 1)
/-- STATUS_TEMPERATURE: overtemperature fault bit 7, warning bit 6. -/
def execStatusTemperature (s : State) : Res := s.on fun c =>
  c.pmWord 1 (64 * bits c.pwr.faults 2 1 + 128 * bits c.pwr.faults 3 1)
/-- READ_VIN. -/
def execReadVin (s : State) : Res := s.on fun c => c.pmReading (c.fld PWR_VIN.vin) 10
/-- READ_IIN. -/
def execReadIin (s : State) : Res := s.on fun c => c.pmReading (c.fld PWR_IIN.iin) 1000
/-- READ_PIN. -/
def execReadPin (s : State) : Res := s.on fun c => c.pmReading (c.fld PWR_PIN.pin) 10
/-- READ_TEMPERATURE_1: the base plate. -/
def execReadTemperature1 (s : State) : Res := s.on fun c => c.pmReading (c.fldS PWR_TEMP.temp) 4
/-- PMBUS_REVISION. -/
def execPmbusRevision (s : State) : Res := s.on (·.pmWord 1 0x44)
/-- MFR_ID: "LRVN". -/
def execMfrId (s : State) : Res := s.on (·.pmBlock [0x4C, 0x52, 0x56, 0x4E])
/-- MFR_MODEL: "RHT4-2T1K". -/
def execMfrModel (s : State) : Res := s.on (·.pmBlock [0x52, 0x48, 0x54, 0x34, 0x2D, 0x32, 0x54, 0x31, 0x4B])
/-- MFR_SERIAL: the 8-byte serial. -/
def execMfrSerial (s : State) : Res := s.on fun c => c.pmBlock (bytesLE 8 c.serial)
/-- PMBUS_UNSUPPORTED: not acknowledged. -/
def execPmbusUnsupported (code : BitVec 8) (s : State) : Res := s.on fun c => c.emit (.pmbus (decide (256 ≤ code.toNat)) [])

end Sys2Proof.Machine
end

