-- ==== Sys2Proof/Machine/ColdStart.lean ====
section
/-! DEFINITION. The release sequence of Table 5.3 (05 R139), run by a cold start and by a wake from SEALED, and the end of a wake
(23 R497). -/

namespace Sys2Proof.Machine

/-- Quarters found offline at start (01 R34, 27 R568). -/
def Chip.powerOffline (c : Chip) (l : List (Fin 4 × Bool)) : Chip := c.each l fun c e =>
  if c.offline e.1.val then c
  else (c.put ID_QUARTERS.offline (withBit (c.fld ID_QUARTERS.offline) e.1.val true)).raise 11 (if e.2 then 3 else 2) [e.1.val]

/-- Step 6 (21 R469, R471): failures are repaired, reported in the quarter masks and logged; a failing link is down (14 R335). -/
def Chip.powerBist (c : Chip) (fails : List BistFail) (us : Nat) : Chip :=
  let c := c.each fails fun c f => (c.bistFail false f).doIf (decide (f.unit = 6 ∧ f.number < 260)) (·.linkFail f.number f.addr)
  let pass := fails.all (fun f => decide (f.unit = 0)) && !c.flag BIST_ERR.exhausted
  let c := ((c.put BIST_STATUS.powerup_done 1).putB BIST_STATUS.powerup_pass pass).put BIST_POWERUP_TIME.us us
  c.raise 208 0 [ofBool pass, c.bist.log.length, us]

/-- A set point of controller `k` is trained; the channels named fail it (11 R275). -/
def Chip.trainPoint (c : Chip) (fails : List TrainFail) (k sp : Nat) : Chip :=
  let bad := (fails.filter fun f => f.ctl = k ∧ f.sp = sp).foldl (fun m f => m ||| f.chans % 16) 0
  let c := c.trainStart k [sp]
  let c := c.put (DMC_STATUS.ch_failed k) (c.fld (DMC_STATUS.ch_failed k) ||| bad)
  let c := c.put (DMC_STATUS.ch_training k) (15 - bad)
  let c := c.each (fails.filter fun f => f.ctl = k ∧ f.sp = sp) fun c f =>
    c.each (numbersBelow 4 (bit f.chans)) fun c i => c.errEvt (DMC_ERR.train_fail k) (dmcEvent k) 2 [sp, i, f.step]
  c.trained k ⟨[sp], 5, 0, c.now⟩
/-- Step 7 for a controller: all three set points, the active one last (11 R276). -/
def Chip.trainAll (c : Chip) (fails : List TrainFail) (k : Nat) : Chip :=
  let sp := c.act (DMC_SP_SEL.sp k)
  let c := c.each ([0, 1, 2].filter fun n => n ≠ sp) fun c n => c.trainPoint fails k n
  (c.put (DMC_STATUS.sp_active k) sp).trainPoint fails k sp

/-- Steps 3 to 10 of Table 5.3 from a tile that has lost everything but its always-on domain, and the load of the boot image
(20 R456). In RECOVERY the quarters stay in reset (22 R487). DRAM has gained power, so it is filled (11 R571). -/
def Chip.powerUp (c : Chip) (x : PowerUp) : Chip :=
  let c := (c.put PWR_STATUS.state 0).put PWR_STATUS.qstate 0
  let c := ((c.powerOffline x.offline).railsRise).bootChain x.boot
  let c := c.powerBist x.bist x.us
  let here := (List.range 4).filter fun q => !c.offline q
  let c := c.each (here.flatMap ctlsOf) fun c k => c.trainAll x.trains k
  let c := (c.put DMC_MAP_STATUS.init_busy 1).put DMC_MAP_STATUS.init_done 0
  let go := !c.inRecovery
  let c := c.doIf go (·.each here fun c q => c.releaseQuarter q)
  let c := ((c.odStart.trunksWake true).evWake.swBegin).wdgReload
  (c.doIf go (·.bootLoad)).lqRefresh

/-- The epoch after `e` (02 R40): 0 is never used. -/
def nextEpoch (e : Nat) : Nat := if e = 0xFFFF then 1 else e + 1

/-- What no loss of the always-on domain erases (Table 5.2): identity and fuses, the battery-backed store, the store flash with its vault
slots, epoch record and Odometer codes, the devices' spare rows; what the power entry measures. -/
def Chip.coldCore (c : Chip) : Chip :=
  let kept := (keptFields ++ [MP_EPOCH.epoch, PWR_SEAL_CNT.count, PWR_VIN.vin, PWR_IIN.iin, PWR_PIN.pin, PWR_BUS.mv, PWR_TEMP.temp]).map
    fun f => (f, c.fld f)
  let x : Chip :=
    { regs := c.regs.filter fun e => decide (e.1 / 8 < 0x20), out := c.out, free := c.free
      pwr := { slots := c.pwr.slots.filter fun e => decide (e.2.any fun v => decide (v.state ≠ 0)) }
      sec := { fuseKey := c.sec.fuseKey, batKey := c.sec.batKey, due := c.sec.due }
      od := { stored := c.od.stored }
      dram := { ctls := c.dram.ctls.map fun e => (e.1, { spares := e.2.spares }) } }
  ((x.each kept fun c e => c.put e.1 e.2).put ID_QUARTERS.offline 0).vaultShow

/-- COLD_START (R139): Milepost counts from 0 in the next epoch, the launch queue is empty, batch 0 opens at the release; a slot left
incomplete is reported (23 R509). -/
def Chip.coldStart (c : Chip) (x : PowerUp) : Chip :=
  let broken := c.pwr.sealing.isSome || c.pwr.slots.any fun e => decide (e.2.any fun v => decide (v.state = 0))
  let cause := match c.pwr.sealing with | some y => y.cause | none => 0
  let slot := c.pwr.next.getD 0
  let c := c.coldCore.put PWR_STATUS.input_ok 1
  let c := if x.epochOk then c.put MP_EPOCH.epoch (nextEpoch (c.fld MP_EPOCH.epoch)) else c
  let c := c.powerUp { x with boot := { x.boot with fuses := x.boot.fuses && x.epochOk } }
  let c := c.doIf broken (·.errEvt PWR_ERR.seal_incomplete 2 3 [cause, slot, 0, 0])
  c.onBatch fun b => { b with openStamp := c.now, outOfTol := !c.inTol }
/-- COLD_START (R139). -/
def execColdStart (x : PowerUp) (s : State) : Res := .next { s with chip := s.chip.coldStart x, mem := [] }

/-- The wake of the tile ends (Table 23.2): from DORMANT with a measurement of every enabled group, from SEALED by the release
sequence. -/
def Chip.tileWake (c : Chip) (cals : List GroupCal) (x : PowerUp) : Chip :=
  if !c.pwr.waking.contains 4 || c.tileUp then c
  else if c.fld PWR_STATUS.state = 3 then (c.dormantWake cals).lateWake 4
  else ((c.powerUp x).stateEvent 4).wakeOver 4 |>.lateWake 4
/-- The wake of a domain ends (R497): quarters 0 to 3, or the tile. -/
def Chip.wakeDone (c : Chip) (dom : Nat) (cals : List GroupCal) (x : PowerUp) : Chip :=
  if dom < 4 then c.quarterWake dom else c.tileWake cals x

end Sys2Proof.Machine
end

