-- ==== Sys2Proof/Machine/RegMap.lean ====
section
/-! DEFINITION. The register tables as data: for every block of Tables 27.1 to 27.3 the rows of its layout, each with its
offset, its count and stride, and its fields (lowest bit, width, access type of Table 0.4, reset value, and the first
reserved code of the field). `regFind` resolves a CSR address as 27 R570 does. -/

namespace Sys2Proof.Machine

/-- The blocks of the address map (Tables 27.2, 27.3), with the blocks that repeat inside another one on their own. -/
inductive BlockId where
  | mp | lq | fab | qc | bm | bmrep | pgr | pch | str | apg | fl | cl | dmc | dmcmap | ecc | pr | prr | nocj | noc | hif | ring | dma | ev | trk | hy | cw | cwm | ws | wse | cfg | cfgq | rg | sw | bist | qb | sec | pwr | od | odq | dbg | dtr | gc | noch
deriving DecidableEq, Repr

/-- The access types of Table 0.4 (00 R11). -/
inductive Acc where
  | rw | ro | wo | w1c | w1s | rc | stg
deriving DecidableEq, Repr

/-- One field of a register layout; codes below `least` or at or above `legal` are reserved (00 R13). -/
structure FieldRow where
  lo    : Nat
  width : Nat
  acc   : Acc
  reset : Nat
  least : Nat
  legal : Nat
deriving DecidableEq, Repr

/-- The place of a register in a value of several words (00 R15, 02 R65): none, the _LO word of two or of three, the middle word
of three, the _HI word of two, the _TOP word of three. -/
inductive WordKind where
  | plain | lo2 | lo3 | mid | hi | top
deriving DecidableEq, Repr

/-- One register of a layout, repeated `count` times every `stride` bytes. -/
structure RegRow where
  kind   : WordKind
  off    : Nat
  count  : Nat
  stride : Nat
  fields : List FieldRow
deriving DecidableEq, Repr

/-- A block of the address map: per quarter or of the hub, its start, its number of units and their stride. -/
structure Block where
  id      : BlockId
  quarter : Bool
  off     : Nat
  count   : Nat
  stride  : Nat
  rows    : List RegRow
deriving DecidableEq, Repr


/-- Rows of the MP layout, part 0. -/
def rowsMP0 : List RegRow := [
  ⟨.plain, 0x0, 1, 4, [⟨0, 2, .rw, 0, 0, 3⟩, ⟨2, 1, .rw, 0, 0, 2⟩, ⟨4, 7, .rw, 100, 1, 101⟩]⟩,  -- MP_CTRL
  ⟨.plain, 0x4, 1, 4, [⟨0, 3, .ro, 0, 0, 8⟩, ⟨3, 1, .ro, 0, 0, 2⟩, ⟨4, 1, .ro, 0, 0, 2⟩, ⟨5, 1, .ro, 0, 0, 2⟩, ⟨6, 1, .ro, 0, 0, 2⟩, ⟨8, 3, .ro, 0, 0, 8⟩]⟩,  -- MP_STATUS
  ⟨.plain, 0x8, 1, 4, [⟨0, 1, .w1c, 0, 0, 2⟩, ⟨1, 1, .w1c, 0, 0, 2⟩, ⟨2, 1, .w1c, 0, 0, 2⟩, ⟨3, 1, .w1c, 0, 0, 2⟩, ⟨4, 1, .w1c, 0, 0, 2⟩, ⟨5, 1, .w1c, 0, 0, 2⟩, ⟨6, 1, .w1c, 0, 0, 2⟩]⟩,  -- MP_ERR
  ⟨.plain, 0xC, 1, 4, [⟨0, 16, .ro, 0, 0, 65536⟩]⟩,  -- MP_EPOCH
  ⟨.lo3, 0x10, 1, 4, [⟨0, 32, .ro, 0, 0, 4294967296⟩]⟩,  -- MP_NOW_LO
  ⟨.mid, 0x14, 1, 4, [⟨0, 32, .ro, 0, 0, 4294967296⟩]⟩,  -- MP_NOW_HI
  ⟨.top, 0x18, 1, 4, [⟨0, 8, .ro, 0, 0, 256⟩]⟩,  -- MP_NOW_TOP
  ⟨.lo2, 0x20, 1, 4, [⟨0, 32, .ro, 0, 0, 4294967296⟩]⟩,  -- MP_RATE_LO
  ⟨.hi, 0x24, 1, 4, [⟨0, 14, .ro, 10240, 0, 16384⟩]⟩,  -- MP_RATE_HI
  ⟨.plain, 0x28, 1, 4, [⟨0, 32, .ro, 0, 0, 4294967296⟩]⟩,  -- MP_OFFSET
  ⟨.plain, 0x2C, 1, 4, [⟨0, 32, .ro, 0, 0, 4294967296⟩]⟩,  -- MP_SLEW_REMAIN
  ⟨.plain, 0x30, 1, 4, [⟨0, 16, .rw, 20, 0, 65536⟩]⟩]  -- MP_ALIGN_LIMIT

/-- Rows of the MP layout, part 1. -/
def rowsMP1 : List RegRow := [
  ⟨.plain, 0x34, 1, 4, [⟨0, 16, .rw, 100, 0, 65536⟩]⟩,  -- MP_HOLD_PPT
  ⟨.plain, 0x38, 1, 4, [⟨0, 32, .ro, 0, 0, 4294967296⟩]⟩,  -- MP_HOLD_EST
  ⟨.plain, 0x3C, 1, 4, [⟨0, 16, .rw, 64, 0, 65536⟩]⟩,  -- MP_DELAY_GATE
  ⟨.plain, 0x40, 1, 4, [⟨0, 3, .rw, 0, 0, 8⟩, ⟨3, 1, .rw, 0, 0, 2⟩]⟩,  -- MP_UPSTREAM
  ⟨.plain, 0x44, 1, 4, [⟨0, 5, .rw, 6, 1, 25⟩]⟩,  -- MP_SERVO
  ⟨.plain, 0x48, 1, 4, [⟨0, 32, .ro, 0, 0, 4294967296⟩]⟩,  -- MP_PATH_DELAY
  ⟨.plain, 0x4C, 1, 4, [⟨0, 32, .rc, 0, 0, 4294967296⟩]⟩,  -- MP_REJECT_CNT
  ⟨.lo3, 0x50, 1, 4, [⟨0, 32, .rw, 0, 0, 4294967296⟩]⟩,  -- MP_SET_LO
  ⟨.mid, 0x54, 1, 4, [⟨0, 32, .rw, 0, 0, 4294967296⟩]⟩,  -- MP_SET_HI
  ⟨.top, 0x58, 1, 4, [⟨0, 8, .rw, 0, 0, 256⟩]⟩,  -- MP_SET_TOP
  ⟨.plain, 0x5C, 1, 4, [⟨0, 1, .wo, 0, 0, 2⟩, ⟨1, 1, .wo, 0, 0, 2⟩]⟩,  -- MP_CMD
  ⟨.lo2, 0x60, 1, 4, [⟨0, 32, .ro, 0, 0, 4294967296⟩]⟩]  -- MP_PENDING_LO

/-- Rows of the MP layout, part 2. -/
def rowsMP2 : List RegRow := [
  ⟨.hi, 0x64, 1, 4, [⟨0, 32, .ro, 0, 0, 4294967296⟩]⟩,  -- MP_PENDING_HI
  ⟨.lo2, 0x68, 1, 4, [⟨0, 32, .ro, 0, 0, 4294967296⟩]⟩,  -- MP_LASTSTEP_LO
  ⟨.hi, 0x6C, 1, 4, [⟨0, 32, .ro, 0, 0, 4294967296⟩]⟩,  -- MP_LASTSTEP_HI
  ⟨.plain, 0x80, 8, 4, [⟨0, 16, .rw, 0, 0, 65536⟩]⟩]  -- MP_TRUNK_ASYM

/-- Layout of the MP block (Table 2.6). -/
def rowsMP : List RegRow := rowsMP0 ++ rowsMP1 ++ rowsMP2

/-- Rows of the LQ layout, part 0. -/
def rowsLQ0 : List RegRow := [
  ⟨.plain, 0x0, 1, 4, [⟨0, 1, .rw, 0, 0, 2⟩, ⟨1, 1, .rw, 0, 0, 2⟩]⟩,  -- LQ_CTRL
  ⟨.plain, 0x4, 1, 4, [⟨0, 11, .ro, 0, 0, 2048⟩, ⟨11, 3, .ro, 0, 0, 8⟩]⟩,  -- LQ_STATUS
  ⟨.plain, 0x8, 1, 4, [⟨0, 1, .w1c, 0, 0, 2⟩, ⟨1, 1, .w1c, 0, 0, 2⟩, ⟨2, 1, .w1c, 0, 0, 2⟩, ⟨3, 1, .w1c, 0, 0, 2⟩, ⟨4, 1, .w1c, 0, 0, 2⟩, ⟨5, 1, .w1c, 0, 0, 2⟩, ⟨6, 1, .w1c, 0, 0, 2⟩, ⟨7, 1, .w1c, 0, 0, 2⟩, ⟨8, 1, .w1c, 0, 0, 2⟩]⟩,  -- LQ_ERR
  ⟨.plain, 0xC, 1, 4, [⟨0, 32, .rw, 2048000, 131072, 4294967296⟩]⟩,  -- LQ_GUARD
  ⟨.plain, 0x10, 1, 4, [⟨0, 16, .rw, 0, 0, 65536⟩]⟩,  -- LQ_LATE_TOL
  ⟨.plain, 0x14, 1, 4, [⟨0, 8, .rw, 0, 0, 256⟩]⟩,  -- LQ_GROUP
  ⟨.plain, 0x18, 1, 4, [⟨0, 32, .ro, 0, 0, 4294967296⟩]⟩,  -- LQ_BATCH
  ⟨.lo3, 0x20, 1, 4, [⟨0, 32, .rw, 0, 0, 4294967296⟩]⟩,  -- LQ_NEW_T_LO
  ⟨.mid, 0x24, 1, 4, [⟨0, 32, .rw, 0, 0, 4294967296⟩]⟩,  -- LQ_NEW_T_HI
  ⟨.top, 0x28, 1, 4, [⟨0, 8, .rw, 0, 0, 256⟩]⟩,  -- LQ_NEW_T_TOP
  ⟨.plain, 0x2C, 1, 4, [⟨0, 4, .rw, 0, 0, 16⟩, ⟨4, 2, .rw, 0, 0, 4⟩, ⟨6, 12, .rw, 0, 0, 4096⟩]⟩,  -- LQ_NEW_ACTION
  ⟨.plain, 0x30, 1, 4, [⟨0, 32, .rw, 0, 0, 4294967296⟩]⟩]  -- LQ_NEW_ARG

/-- Rows of the LQ layout, part 1. -/
def rowsLQ1 : List RegRow := [
  ⟨.plain, 0x34, 1, 4, [⟨0, 1, .wo, 0, 0, 2⟩]⟩,  -- LQ_NEW_PUSH
  ⟨.plain, 0x38, 1, 4, [⟨0, 3, .ro, 0, 0, 8⟩]⟩,  -- LQ_NEW_RESULT
  ⟨.plain, 0x3C, 1, 4, [⟨0, 32, .ro, 0, 0, 4294967296⟩]⟩,  -- LQ_NEW_ID
  ⟨.lo3, 0x40, 1, 4, [⟨0, 32, .ro, 0, 0, 4294967296⟩]⟩,  -- LQ_NEXT_T_LO
  ⟨.mid, 0x44, 1, 4, [⟨0, 32, .ro, 0, 0, 4294967296⟩]⟩,  -- LQ_NEXT_T_HI
  ⟨.top, 0x48, 1, 4, [⟨0, 9, .ro, 256, 0, 512⟩]⟩,  -- LQ_NEXT_T_TOP
  ⟨.plain, 0x4C, 1, 4, [⟨0, 32, .wo, 0, 0, 4294967296⟩]⟩,  -- LQ_CANCEL
  ⟨.plain, 0x50, 1, 4, [⟨0, 32, .rc, 0, 0, 4294967296⟩]⟩,  -- LQ_CNT_EXEC
  ⟨.plain, 0x54, 1, 4, [⟨0, 32, .rc, 0, 0, 4294967296⟩]⟩,  -- LQ_CNT_LATE
  ⟨.plain, 0x58, 1, 4, [⟨0, 32, .rc, 0, 0, 4294967296⟩]⟩,  -- LQ_CNT_REJECT
  ⟨.plain, 0x5C, 1, 4, [⟨0, 32, .rc, 0, 0, 4294967296⟩]⟩,  -- LQ_CNT_DUP
  ⟨.plain, 0x60, 1, 4, [⟨0, 16, .ro, 0, 0, 65536⟩]⟩]  -- LQ_LAST_LATE

/-- Rows of the LQ layout, part 2. -/
def rowsLQ2 : List RegRow := [
  ⟨.plain, 0x64, 1, 4, [⟨0, 32, .ro, 0, 0, 4294967296⟩]⟩,  -- LQ_SYS_ID
  ⟨.plain, 0x68, 1, 4, [⟨0, 13, .ro, 0, 0, 8192⟩, ⟨16, 13, .ro, 0, 0, 8192⟩]⟩,  -- LQ_SYS_ACK
  ⟨.plain, 0x6C, 1, 4, [⟨0, 13, .ro, 0, 0, 8192⟩]⟩,  -- LQ_SYS_LATE
  ⟨.plain, 0x70, 1, 4, [⟨0, 1, .wo, 0, 0, 2⟩, ⟨4, 4, .wo, 0, 0, 16⟩, ⟨8, 1, .wo, 0, 0, 2⟩, ⟨9, 1, .wo, 0, 0, 2⟩]⟩,  -- LQ_CMD
  ⟨.plain, 0x74, 1, 4, [⟨0, 3, .ro, 0, 0, 8⟩, ⟨4, 4, .ro, 0, 0, 16⟩, ⟨8, 8, .ro, 0, 0, 256⟩]⟩,  -- LQ_COMMIT_STATUS
  ⟨.lo2, 0x80, 1, 4, [⟨0, 32, .rw, 0, 0, 4294967296⟩]⟩,  -- LQ_SUM_BASE_LO
  ⟨.hi, 0x84, 1, 4, [⟨0, 9, .rw, 0, 0, 512⟩]⟩,  -- LQ_SUM_BASE_HI
  ⟨.plain, 0x88, 1, 4, [⟨0, 17, .rw, 0, 0, 131072⟩]⟩,  -- LQ_SUM_COUNT
  ⟨.plain, 0x8C, 1, 4, [⟨0, 32, .ro, 0, 0, 4294967296⟩]⟩,  -- LQ_XING_TIME
  ⟨.plain, 0x100, 128, 4, [⟨0, 32, .rw, 0, 0, 4294967296⟩]⟩,  -- LQ_CSET_W
  ⟨.plain, 0x300, 8, 4, [⟨0, 32, .ro, 0, 0, 4294967296⟩]⟩,  -- LQ_STG_BAD
  ⟨.plain, 0x400, 32, 4, [⟨0, 32, .ro, 0, 0, 4294967296⟩]⟩]  -- LQ_LAST_SUM

/-- Layout of the LQ block (Table 3.10). -/
def rowsLQ : List RegRow := rowsLQ0 ++ rowsLQ1 ++ rowsLQ2

/-- Rows of the FAB layout, part 0. -/
def rowsFAB0 : List RegRow := [
  ⟨.plain, 0x800, 1, 4, [⟨0, 1, .rw, 0, 0, 2⟩, ⟨1, 1, .rw, 0, 0, 2⟩]⟩,  -- FAB_CTRL
  ⟨.plain, 0x804, 1, 4, [⟨0, 1, .ro, 0, 0, 2⟩, ⟨1, 2, .ro, 0, 0, 4⟩, ⟨3, 1, .ro, 0, 0, 2⟩, ⟨4, 1, .ro, 0, 0, 2⟩]⟩,  -- FAB_STATUS
  ⟨.plain, 0x808, 1, 4, [⟨0, 1, .w1c, 0, 0, 2⟩, ⟨1, 1, .w1c, 0, 0, 2⟩, ⟨2, 1, .w1c, 0, 0, 2⟩]⟩,  -- FAB_ERR
  ⟨.plain, 0x80C, 1, 4, [⟨0, 10, .ro, 0, 0, 1024⟩, ⟨16, 6, .ro, 0, 0, 64⟩, ⟨24, 6, .ro, 0, 0, 64⟩, ⟨30, 1, .ro, 0, 0, 2⟩]⟩,  -- FAB_CONT_AVENUE
  ⟨.lo2, 0x810, 1, 4, [⟨0, 32, .ro, 0, 0, 4294967296⟩]⟩,  -- FAB_CONT_STAMP_LO
  ⟨.hi, 0x814, 1, 4, [⟨0, 24, .ro, 0, 0, 16777216⟩]⟩,  -- FAB_CONT_STAMP_HI
  ⟨.plain, 0x818, 1, 4, [⟨0, 14, .ro, 0, 0, 16384⟩, ⟨14, 6, .ro, 0, 0, 64⟩, ⟨20, 1, .ro, 0, 0, 2⟩]⟩,  -- FAB_MATCH_PERR
  ⟨.plain, 0x81C, 1, 4, [⟨0, 32, .rc, 0, 0, 4294967296⟩]⟩,  -- FAB_MATCH_PERR_CNT
  ⟨.plain, 0x820, 1, 4, [⟨0, 4, .ro, 0, 0, 16⟩]⟩,  -- FAB_REFLEX_FLAGS
  ⟨.plain, 0x824, 1, 4, [⟨0, 32, .rc, 0, 0, 4294967296⟩]⟩,  -- FAB_REFLEX_CONFLICT_CNT
  ⟨.plain, 0x828, 1, 4, [⟨0, 4, .wo, 0, 0, 16⟩]⟩,  -- FAB_CMD
  ⟨.lo2, 0x82C, 1, 4, [⟨0, 32, .ro, 0, 0, 4294967296⟩]⟩]  -- FAB_REFLEX_STAMP_LO

/-- Rows of the FAB layout, part 1. -/
def rowsFAB1 : List RegRow := [
  ⟨.hi, 0x830, 1, 4, [⟨0, 24, .ro, 0, 0, 16777216⟩]⟩]  -- FAB_REFLEX_STAMP_HI

/-- Layout of the FAB block (Table 4.10). -/
def rowsFAB : List RegRow := rowsFAB0 ++ rowsFAB1

/-- Rows of the QC layout, part 0. -/
def rowsQC0 : List RegRow := [
  ⟨.plain, 0x0, 1, 4, [⟨0, 1, .wo, 0, 0, 2⟩, ⟨1, 1, .wo, 0, 0, 2⟩, ⟨2, 1, .wo, 0, 0, 2⟩, ⟨3, 1, .wo, 0, 0, 2⟩, ⟨4, 1, .wo, 0, 0, 2⟩]⟩,  -- QC_CMD
  ⟨.plain, 0x4, 1, 4, [⟨0, 1, .ro, 0, 0, 2⟩, ⟨1, 4, .ro, 0, 0, 16⟩, ⟨5, 4, .ro, 0, 0, 16⟩, ⟨9, 16, .ro, 0, 0, 65536⟩]⟩,  -- QC_STATUS
  ⟨.plain, 0x8, 1, 4, [⟨0, 4, .w1c, 0, 0, 16⟩, ⟨4, 1, .w1c, 0, 0, 2⟩, ⟨5, 1, .w1c, 0, 0, 2⟩]⟩,  -- QC_CLK_ERR
  ⟨.plain, 0x10, 4, 4, [⟨0, 8, .rw, 32, 0, 256⟩, ⟨8, 2, .rw, 0, 0, 4⟩, ⟨10, 8, .rw, 7, 0, 256⟩, ⟨18, 1, .rw, 0, 0, 2⟩]⟩,  -- QC_CPLL_CFG
  ⟨.plain, 0x40, 16, 4, [⟨0, 3, .rw, 0, 0, 8⟩, ⟨3, 2, .rw, 0, 0, 4⟩]⟩,  -- QC_GCK_SEL
  ⟨.plain, 0x80, 1, 4, [⟨0, 4, .rw, 0, 0, 16⟩, ⟨4, 1, .rw, 0, 0, 2⟩]⟩,  -- QC_CAP_CTRL
  ⟨.plain, 0x84, 1, 4, [⟨0, 16, .rw, 65535, 0, 65536⟩]⟩,  -- QC_CAP_REGIONS
  ⟨.plain, 0x88, 1, 4, [⟨0, 2, .ro, 0, 0, 4⟩, ⟨16, 16, .ro, 0, 0, 65536⟩]⟩,  -- QC_CAP_STATUS
  ⟨.plain, 0x8C, 1, 4, [⟨0, 16, .ro, 0, 0, 65536⟩]⟩,  -- QC_CAP_SNAPONLY
  ⟨.lo2, 0x90, 1, 4, [⟨0, 32, .ro, 0, 0, 4294967296⟩]⟩,  -- QC_CAP_STAMP_LO
  ⟨.hi, 0x94, 1, 4, [⟨0, 24, .ro, 0, 0, 16777216⟩]⟩]  -- QC_CAP_STAMP_HI

/-- Layout of the QC block (Table 5.4). -/
def rowsQC : List RegRow := rowsQC0

/-- Rows of the BM layout, part 0. -/
def rowsBM0 : List RegRow := [
  ⟨.plain, 0x0, 1, 4, [⟨0, 1, .ro, 0, 0, 2⟩, ⟨1, 1, .rw, 1, 0, 2⟩]⟩,  -- BM_RCTL
  ⟨.plain, 0x4, 1, 4, [⟨0, 1, .ro, 0, 0, 2⟩]⟩,  -- BM_RSTATUS
  ⟨.plain, 0x8, 1, 4, [⟨0, 1, .w1c, 0, 0, 2⟩, ⟨1, 1, .w1c, 0, 0, 2⟩, ⟨2, 1, .w1c, 0, 0, 2⟩]⟩,  -- BM_RERR
  ⟨.plain, 0xC, 1, 4, [⟨0, 32, .rc, 0, 0, 4294967296⟩]⟩,  -- BM_CE_CNT
  ⟨.plain, 0x10, 1, 4, [⟨0, 32, .rc, 0, 0, 4294967296⟩]⟩,  -- BM_UE_CNT
  ⟨.plain, 0x14, 1, 4, [⟨0, 32, .rc, 0, 0, 4294967296⟩]⟩,  -- BM_CRC_CNT
  ⟨.plain, 0x18, 1, 4, [⟨0, 8, .ro, 0, 0, 256⟩, ⟨8, 12, .ro, 0, 0, 4096⟩, ⟨20, 2, .ro, 0, 0, 4⟩, ⟨31, 1, .ro, 0, 0, 2⟩]⟩,  -- BM_FIRST_ERR
  ⟨.plain, 0x1C, 1, 4, [⟨0, 8, .ro, 0, 0, 256⟩]⟩,  -- BM_FIRST_SYN
  ⟨.lo2, 0x20, 1, 4, [⟨0, 32, .ro, 0, 0, 4294967296⟩]⟩,  -- BM_FIRST_STAMP_LO
  ⟨.hi, 0x24, 1, 4, [⟨0, 24, .ro, 0, 0, 16777216⟩]⟩,  -- BM_FIRST_STAMP_HI
  ⟨.plain, 0x28, 1, 4, [⟨0, 1, .wo, 0, 0, 2⟩, ⟨1, 1, .wo, 0, 0, 2⟩, ⟨8, 8, .wo, 0, 0, 256⟩]⟩]  -- BM_CMD

/-- Layout of the BM block (Table 6.4). -/
def rowsBM : List RegRow := rowsBM0

/-- Rows of the BMREP layout, part 0. -/
def rowsBMREP0 : List RegRow := [
  ⟨.plain, 0x0, 1, 4, [⟨0, 9, .rw, 0, 0, 512⟩, ⟨9, 1, .rw, 0, 0, 2⟩, ⟨16, 9, .rw, 0, 0, 512⟩, ⟨25, 1, .rw, 0, 0, 2⟩, ⟨31, 1, .ro, 0, 0, 2⟩]⟩,  -- BM_ROWREP
  ⟨.plain, 0x4, 1, 4, [⟨0, 10, .rw, 0, 0, 1024⟩, ⟨10, 1, .rw, 0, 0, 2⟩, ⟨16, 10, .rw, 0, 0, 1024⟩, ⟨26, 1, .rw, 0, 0, 2⟩, ⟨31, 1, .ro, 0, 0, 2⟩]⟩]  -- BM_COLREP

/-- Layout of the BMREP block (Table 6.5). -/
def rowsBMREP : List RegRow := rowsBMREP0

/-- Rows of the PGR layout, part 0. -/
def rowsPGR0 : List RegRow := [
  ⟨.plain, 0x0, 1, 4, [⟨0, 1, .rw, 0, 0, 2⟩, ⟨1, 1, .rw, 0, 0, 2⟩]⟩,  -- PGR_CTRL
  ⟨.plain, 0x4, 1, 4, [⟨0, 3, .ro, 0, 0, 8⟩, ⟨3, 3, .ro, 0, 0, 8⟩, ⟨6, 1, .ro, 1, 0, 2⟩, ⟨7, 1, .ro, 0, 0, 2⟩, ⟨8, 1, .ro, 0, 0, 2⟩, ⟨9, 1, .ro, 0, 0, 2⟩]⟩,  -- PGR_STATUS
  ⟨.plain, 0x8, 1, 4, [⟨0, 1, .w1c, 0, 0, 2⟩, ⟨1, 1, .w1c, 0, 0, 2⟩, ⟨2, 1, .w1c, 0, 0, 2⟩, ⟨3, 1, .w1c, 0, 0, 2⟩]⟩,  -- PGR_ERR
  ⟨.plain, 0xC, 1, 4, [⟨0, 1, .wo, 0, 0, 2⟩, ⟨1, 1, .wo, 0, 0, 2⟩]⟩,  -- PGR_CMD
  ⟨.plain, 0x10, 1, 4, [⟨0, 1, .stg, 0, 0, 2⟩]⟩,  -- PGR_ARM
  ⟨.plain, 0x14, 1, 4, [⟨0, 1, .stg, 0, 0, 2⟩]⟩,  -- PGR_SRC
  ⟨.plain, 0x18, 1, 4, [⟨0, 1, .rw, 1, 0, 2⟩]⟩,  -- PGR_ABORT
  ⟨.plain, 0x1C, 1, 4, [⟨0, 8, .rw, 0, 0, 256⟩]⟩,  -- PGR_TS_SEL
  ⟨.plain, 0x20, 1, 4, [⟨0, 30, .stg, 671088640, 0, 1073741824⟩]⟩,  -- PGR_TS_W0
  ⟨.plain, 0x24, 1, 4, [⟨0, 14, .stg, 0, 0, 16384⟩, ⟨14, 14, .stg, 0, 0, 16384⟩, ⟨28, 3, .stg, 0, 0, 8⟩]⟩,  -- PGR_TS_W1
  ⟨.plain, 0x28, 1, 4, [⟨0, 14, .stg, 0, 0, 16384⟩, ⟨14, 14, .stg, 0, 0, 16384⟩]⟩,  -- PGR_TS_W2
  ⟨.plain, 0x2C, 1, 4, [⟨0, 14, .stg, 0, 0, 16384⟩, ⟨14, 14, .stg, 0, 0, 16384⟩, ⟨28, 2, .stg, 0, 0, 2⟩]⟩]  -- PGR_TS_W3

/-- Rows of the PGR layout, part 1. -/
def rowsPGR1 : List RegRow := [
  ⟨.plain, 0x30, 1, 4, [⟨0, 8, .rw, 40, 1, 256⟩]⟩,  -- PGR_CAL_LIMIT
  ⟨.plain, 0x34, 1, 4, [⟨0, 16, .ro, 0, 0, 65536⟩]⟩,  -- PGR_CAL_TEMP
  ⟨.lo2, 0x38, 1, 4, [⟨0, 32, .ro, 0, 0, 4294967296⟩]⟩,  -- PGR_CAL_STAMP_LO
  ⟨.hi, 0x3C, 1, 4, [⟨0, 24, .ro, 0, 0, 16777216⟩]⟩,  -- PGR_CAL_STAMP_HI
  ⟨.plain, 0x40, 1, 4, [⟨0, 32, .rc, 0, 0, 4294967296⟩]⟩,  -- PGR_STALL_VEC
  ⟨.lo2, 0x44, 1, 4, [⟨0, 32, .ro, 0, 0, 4294967296⟩]⟩,  -- PGR_VEC_LO
  ⟨.hi, 0x48, 1, 4, [⟨0, 32, .ro, 0, 0, 4294967296⟩]⟩,  -- PGR_VEC_HI
  ⟨.lo2, 0x4C, 1, 4, [⟨0, 32, .ro, 0, 0, 4294967296⟩]⟩,  -- PGR_LEG_STAMP_LO
  ⟨.hi, 0x50, 1, 4, [⟨0, 24, .ro, 0, 0, 16777216⟩]⟩]  -- PGR_LEG_STAMP_HI

/-- Layout of the PGR block (Table 7.9). -/
def rowsPGR : List RegRow := rowsPGR0 ++ rowsPGR1

/-- Rows of the PCH layout, part 0. -/
def rowsPCH0 : List RegRow := [
  ⟨.plain, 0x0, 1, 4, [⟨0, 2, .rw, 3, 0, 4⟩, ⟨2, 2, .rw, 3, 0, 4⟩]⟩,  -- PCH_CTRL
  ⟨.plain, 0x4, 1, 4, [⟨0, 1, .stg, 0, 0, 2⟩]⟩,  -- PCH_SRC
  ⟨.plain, 0x8, 1, 4, [⟨0, 10, .stg, 0, 0, 1024⟩, ⟨16, 10, .stg, 0, 0, 1024⟩]⟩,  -- PCH_ADJ
  ⟨.plain, 0xC, 4, 4, [⟨0, 32, .stg, 0, 0, 4294967296⟩]⟩,  -- PCH_MAP
  ⟨.plain, 0x20, 8, 4, [⟨0, 3, .stg, 0, 0, 5⟩, ⟨3, 3, .stg, 0, 0, 5⟩, ⟨6, 3, .stg, 0, 0, 5⟩, ⟨9, 3, .stg, 0, 0, 5⟩, ⟨12, 2, .stg, 0, 0, 4⟩, ⟨14, 2, .stg, 0, 0, 4⟩]⟩,  -- PCH_FMT
  ⟨.plain, 0x40, 1, 4, [⟨0, 1, .ro, 0, 0, 2⟩, ⟨1, 1, .ro, 0, 0, 2⟩, ⟨2, 1, .ro, 0, 0, 2⟩, ⟨3, 1, .ro, 0, 0, 2⟩]⟩,  -- PCH_STATUS
  ⟨.plain, 0x44, 1, 4, [⟨0, 1, .w1c, 0, 0, 2⟩, ⟨1, 1, .w1c, 0, 0, 2⟩, ⟨2, 1, .w1c, 0, 0, 2⟩]⟩,  -- PCH_ERR
  ⟨.plain, 0x48, 1, 4, [⟨0, 32, .rc, 0, 0, 4294967296⟩]⟩,  -- PCH_DROP_CNT
  ⟨.plain, 0x4C, 1, 4, [⟨0, 32, .rc, 0, 0, 4294967296⟩]⟩,  -- PCH_BOTH_CNT
  ⟨.plain, 0x50, 1, 4, [⟨0, 16, .ro, 0, 0, 65536⟩]⟩,  -- PCH_CAL_DRV
  ⟨.plain, 0x54, 1, 4, [⟨0, 16, .ro, 0, 0, 65536⟩]⟩,  -- PCH_CAL_CMP
  ⟨.plain, 0x58, 1, 4, [⟨0, 16, .ro, 0, 0, 65536⟩]⟩]  -- PCH_FACT_DRV

/-- Rows of the PCH layout, part 1. -/
def rowsPCH1 : List RegRow := [
  ⟨.plain, 0x5C, 1, 4, [⟨0, 16, .ro, 0, 0, 65536⟩]⟩]  -- PCH_FACT_CMP

/-- Layout of the PCH block (Table 7.10). -/
def rowsPCH : List RegRow := rowsPCH0 ++ rowsPCH1

/-- Rows of the STR layout, part 0. -/
def rowsSTR0 : List RegRow := [
  ⟨.plain, 0x0, 1, 4, [⟨0, 1, .rw, 1, 0, 2⟩, ⟨1, 1, .rw, 1, 0, 2⟩]⟩,  -- STR_CTRL
  ⟨.plain, 0x4, 1, 4, [⟨0, 3, .ro, 0, 0, 8⟩, ⟨3, 5, .ro, 0, 0, 32⟩, ⟨8, 1, .ro, 0, 0, 2⟩, ⟨9, 1, .ro, 0, 0, 2⟩]⟩,  -- STR_STATUS
  ⟨.plain, 0x8, 1, 4, [⟨0, 1, .w1c, 0, 0, 2⟩, ⟨1, 1, .w1c, 0, 0, 2⟩, ⟨2, 1, .w1c, 0, 0, 2⟩, ⟨3, 1, .w1c, 0, 0, 2⟩, ⟨4, 1, .w1c, 0, 0, 2⟩, ⟨5, 1, .w1c, 0, 0, 2⟩, ⟨6, 1, .w1c, 0, 0, 2⟩]⟩,  -- STR_ERR
  ⟨.plain, 0xC, 1, 4, [⟨0, 1, .wo, 0, 0, 2⟩]⟩,  -- STR_CMD
  ⟨.lo2, 0x10, 1, 4, [⟨0, 32, .stg, 0, 0, 4294967296⟩]⟩,  -- STR_PROG_LO
  ⟨.hi, 0x14, 1, 4, [⟨0, 9, .stg, 0, 0, 512⟩]⟩,  -- STR_PROG_HI
  ⟨.plain, 0x18, 1, 4, [⟨0, 4, .stg, 0, 0, 16⟩, ⟨4, 1, .stg, 0, 0, 2⟩]⟩,  -- STR_GROUP
  ⟨.plain, 0x1C, 1, 4, [⟨0, 2, .stg, 0, 0, 3⟩, ⟨8, 8, .stg, 0, 0, 256⟩]⟩,  -- STR_PACK
  ⟨.lo2, 0x20, 1, 4, [⟨0, 32, .ro, 0, 0, 4294967296⟩]⟩,  -- STR_PC_LO
  ⟨.hi, 0x24, 1, 4, [⟨0, 9, .ro, 0, 0, 512⟩]⟩,  -- STR_PC_HI
  ⟨.plain, 0x28, 1, 4, [⟨0, 15, .ro, 0, 0, 32768⟩]⟩,  -- STR_FILL
  ⟨.plain, 0x2C, 1, 4, [⟨0, 32, .rc, 0, 0, 4294967296⟩]⟩]  -- STR_VOID_CNT

/-- Rows of the STR layout, part 1. -/
def rowsSTR1 : List RegRow := [
  ⟨.plain, 0x30, 1, 4, [⟨0, 32, .rc, 0, 0, 4294967296⟩]⟩,  -- STR_CRC_CNT
  ⟨.plain, 0x34, 1, 4, [⟨0, 32, .ro, 0, 0, 4294967296⟩]⟩,  -- STR_MATCH_ITER
  ⟨.plain, 0x38, 1, 4, [⟨0, 32, .rc, 0, 0, 4294967296⟩]⟩,  -- STR_TIMEOUT_CNT
  ⟨.plain, 0x3C, 1, 4, [⟨0, 3, .ro, 0, 0, 8⟩, ⟨31, 1, .ro, 0, 0, 2⟩]⟩,  -- STR_PROG_ERR
  ⟨.lo2, 0x40, 1, 4, [⟨0, 32, .ro, 0, 0, 4294967296⟩]⟩,  -- STR_FAULT_LO
  ⟨.hi, 0x44, 1, 4, [⟨0, 9, .ro, 0, 0, 512⟩, ⟨31, 1, .ro, 0, 0, 2⟩]⟩,  -- STR_FAULT_HI
  ⟨.plain, 0x48, 1, 4, [⟨0, 3, .ro, 0, 0, 8⟩]⟩]  -- STR_FAULT_RESP

/-- Layout of the STR block (Table 8.12). -/
def rowsSTR : List RegRow := rowsSTR0 ++ rowsSTR1

/-- Rows of the APG layout, part 0. -/
def rowsAPG0 : List RegRow := [
  ⟨.plain, 0x0, 1, 4, [⟨0, 4, .rw, 0, 0, 16⟩, ⟨4, 1, .rw, 0, 0, 2⟩]⟩,  -- APG_CTRL
  ⟨.plain, 0x4, 1, 4, [⟨0, 32, .rw, 0, 0, 4294967296⟩]⟩,  -- APG_STEP
  ⟨.plain, 0x8, 1, 4, [⟨0, 4, .ro, 0, 0, 16⟩]⟩,  -- APG_STATUS
  ⟨.plain, 0xC, 1, 4, [⟨0, 1, .w1c, 0, 0, 2⟩, ⟨1, 1, .w1c, 0, 0, 2⟩, ⟨2, 1, .w1c, 0, 0, 2⟩]⟩,  -- APG_ERR
  ⟨.plain, 0x10, 1, 4, [⟨0, 32, .rc, 0, 0, 4294967296⟩]⟩]  -- APG_VOID_CNT

/-- Layout of the APG block (Table 8.14). -/
def rowsAPG : List RegRow := rowsAPG0

/-- Rows of the FL layout, part 0. -/
def rowsFL0 : List RegRow := [
  ⟨.plain, 0x0, 1, 4, [⟨0, 1, .stg, 0, 0, 2⟩, ⟨1, 1, .stg, 0, 0, 2⟩]⟩,  -- FL_CTRL
  ⟨.plain, 0x4, 1, 4, [⟨0, 2, .ro, 0, 0, 4⟩, ⟨2, 1, .ro, 0, 0, 2⟩, ⟨3, 1, .ro, 0, 0, 2⟩, ⟨4, 1, .ro, 0, 0, 2⟩]⟩,  -- FL_STATUS
  ⟨.plain, 0x8, 1, 4, [⟨0, 1, .w1c, 0, 0, 2⟩, ⟨1, 1, .w1c, 0, 0, 2⟩, ⟨2, 1, .w1c, 0, 0, 2⟩, ⟨3, 1, .w1c, 0, 0, 2⟩, ⟨4, 1, .w1c, 0, 0, 2⟩, ⟨5, 1, .w1c, 0, 0, 2⟩, ⟨6, 1, .w1c, 0, 0, 2⟩, ⟨7, 1, .w1c, 0, 0, 2⟩, ⟨8, 1, .w1c, 0, 0, 2⟩, ⟨9, 1, .w1c, 0, 0, 2⟩]⟩,  -- FL_ERR
  ⟨.plain, 0xC, 1, 4, [⟨0, 1, .wo, 0, 0, 2⟩]⟩,  -- FL_CMD
  ⟨.plain, 0x10, 1, 4, [⟨0, 2, .stg, 0, 0, 4⟩, ⟨2, 2, .stg, 0, 0, 4⟩, ⟨4, 2, .stg, 0, 0, 4⟩, ⟨6, 2, .stg, 0, 0, 4⟩, ⟨8, 2, .stg, 0, 0, 4⟩, ⟨10, 2, .stg, 0, 0, 4⟩, ⟨12, 2, .stg, 0, 0, 4⟩, ⟨14, 2, .stg, 0, 0, 4⟩, ⟨16, 2, .stg, 0, 0, 4⟩, ⟨18, 2, .stg, 0, 0, 4⟩, ⟨20, 2, .stg, 0, 0, 4⟩, ⟨22, 2, .stg, 0, 0, 4⟩, ⟨24, 2, .stg, 0, 0, 4⟩, ⟨26, 2, .stg, 0, 0, 4⟩, ⟨28, 2, .stg, 0, 0, 4⟩, ⟨30, 2, .stg, 0, 0, 4⟩]⟩,  -- FL_MODE
  ⟨.plain, 0x14, 1, 4, [⟨0, 8, .stg, 128, 16, 129⟩]⟩,  -- FL_LIMIT
  ⟨.plain, 0x18, 1, 4, [⟨0, 8, .stg, 4, 2, 65⟩]⟩,  -- FL_HEADROOM
  ⟨.plain, 0x1C, 1, 4, [⟨0, 8, .stg, 64, 0, 127⟩]⟩,  -- FL_RESUME
  ⟨.lo2, 0x20, 1, 4, [⟨0, 32, .stg, 4286578688, 0, 4294967296⟩]⟩,  -- FL_BUF_BASE_LO
  ⟨.hi, 0x24, 1, 4, [⟨0, 9, .stg, 0, 0, 512⟩]⟩,  -- FL_BUF_BASE_HI
  ⟨.plain, 0x28, 1, 4, [⟨0, 6, .stg, 23, 20, 33⟩]⟩,  -- FL_BUF_SIZE
  ⟨.plain, 0x2C, 1, 4, [⟨0, 6, .stg, 0, 0, 64⟩]⟩]  -- FL_DMA_CH

/-- Rows of the FL layout, part 1. -/
def rowsFL1 : List RegRow := [
  ⟨.lo2, 0x30, 1, 4, [⟨0, 32, .ro, 0, 0, 4294967296⟩]⟩,  -- FL_WR_PTR_LO
  ⟨.hi, 0x34, 1, 4, [⟨0, 32, .ro, 0, 0, 4294967296⟩]⟩,  -- FL_WR_PTR_HI
  ⟨.lo2, 0x38, 1, 4, [⟨0, 32, .rw, 0, 0, 4294967296⟩]⟩,  -- FL_ACK_PTR_LO
  ⟨.hi, 0x3C, 1, 4, [⟨0, 32, .rw, 0, 0, 4294967296⟩]⟩,  -- FL_ACK_PTR_HI
  ⟨.plain, 0x40, 1, 4, [⟨0, 24, .ro, 0, 0, 16777216⟩]⟩,  -- FL_LEVEL
  ⟨.plain, 0x44, 1, 4, [⟨0, 24, .rc, 0, 0, 16777216⟩]⟩,  -- FL_LEVEL_MAX
  ⟨.plain, 0x48, 1, 4, [⟨0, 17, .ro, 0, 0, 131072⟩]⟩,  -- FL_DIRTY
  ⟨.plain, 0x4C, 1, 4, [⟨0, 32, .ro, 0, 0, 4294967296⟩]⟩,  -- FL_SEQ
  ⟨.plain, 0x50, 1, 4, [⟨0, 32, .ro, 0, 0, 4294967296⟩]⟩,  -- FL_REC_CNT
  ⟨.plain, 0x54, 1, 4, [⟨0, 32, .ro, 0, 0, 4294967296⟩]⟩,  -- FL_TAINT_CNT
  ⟨.plain, 0x58, 1, 4, [⟨0, 16, .ro, 0, 0, 65536⟩]⟩,  -- FL_OVF_CNT
  ⟨.plain, 0x5C, 1, 4, [⟨0, 32, .rc, 0, 0, 4294967296⟩]⟩]  -- FL_DROP_CNT

/-- Rows of the FL layout, part 2. -/
def rowsFL2 : List RegRow := [
  ⟨.plain, 0x60, 1, 4, [⟨0, 32, .rc, 0, 0, 4294967296⟩]⟩,  -- FL_BMDROP_CNT
  ⟨.plain, 0x64, 1, 4, [⟨0, 32, .rc, 0, 0, 4294967296⟩]⟩,  -- FL_STALL_TIME
  ⟨.plain, 0x68, 1, 4, [⟨0, 10, .rw, 10, 1, 1001⟩]⟩,  -- FL_BM_AGE
  ⟨.lo2, 0x6C, 1, 4, [⟨0, 32, .ro, 0, 0, 4294967296⟩]⟩,  -- FL_FAULT_LO
  ⟨.hi, 0x70, 1, 4, [⟨0, 9, .ro, 0, 0, 512⟩, ⟨12, 3, .ro, 0, 0, 8⟩, ⟨31, 1, .ro, 0, 0, 2⟩]⟩,  -- FL_FAULT_HI
  ⟨.lo2, 0x74, 1, 4, [⟨0, 32, .ro, 0, 0, 4294967296⟩]⟩,  -- FL_SEAL_PTR_LO
  ⟨.hi, 0x78, 1, 4, [⟨0, 32, .ro, 0, 0, 4294967296⟩]⟩,  -- FL_SEAL_PTR_HI
  ⟨.lo2, 0x80, 16, 16, [⟨0, 32, .stg, 0, 0, 4294967296⟩]⟩,  -- FL_BM_BASE_LO
  ⟨.hi, 0x84, 16, 16, [⟨0, 9, .stg, 0, 0, 512⟩]⟩,  -- FL_BM_BASE_HI
  ⟨.plain, 0x88, 16, 16, [⟨0, 6, .stg, 12, 12, 37⟩]⟩,  -- FL_BM_SIZE
  ⟨.plain, 0x8C, 16, 16, [⟨0, 3, .stg, 0, 0, 5⟩, ⟨3, 1, .stg, 0, 0, 2⟩]⟩,  -- FL_BM_CFG
  ⟨.plain, 0x200, 32, 4, [⟨0, 4, .stg, 0, 0, 16⟩, ⟨4, 4, .stg, 0, 0, 16⟩, ⟨8, 4, .stg, 0, 0, 16⟩, ⟨12, 4, .stg, 0, 0, 16⟩, ⟨16, 4, .stg, 0, 0, 16⟩, ⟨20, 4, .stg, 0, 0, 16⟩, ⟨24, 4, .stg, 0, 0, 16⟩, ⟨28, 4, .stg, 0, 0, 16⟩]⟩]  -- FL_BM_LANE

/-- Rows of the FL layout, part 3. -/
def rowsFL3 : List RegRow := [
  ⟨.plain, 0x400, 256, 4, [⟨0, 32, .ro, 0, 0, 4294967296⟩]⟩]  -- FL_CNT

/-- Layout of the FL block (Table 9.8). -/
def rowsFL : List RegRow := rowsFL0 ++ rowsFL1 ++ rowsFL2 ++ rowsFL3

/-- Rows of the CL layout, part 0. -/
def rowsCL0 : List RegRow := [
  ⟨.plain, 0x0, 1, 4, [⟨0, 4, .rw, 0, 0, 16⟩, ⟨4, 4, .rw, 0, 0, 16⟩, ⟨8, 1, .rw, 0, 0, 2⟩, ⟨9, 1, .rw, 0, 0, 2⟩]⟩,  -- CL_CTRL
  ⟨.plain, 0x4, 1, 4, [⟨0, 3, .ro, 0, 0, 8⟩, ⟨3, 1, .ro, 0, 0, 2⟩, ⟨4, 1, .ro, 0, 0, 2⟩, ⟨5, 1, .ro, 0, 0, 2⟩, ⟨6, 3, .ro, 0, 0, 8⟩, ⟨9, 1, .ro, 0, 0, 2⟩, ⟨10, 1, .ro, 0, 0, 2⟩]⟩,  -- CL_STATUS
  ⟨.plain, 0x8, 1, 4, [⟨0, 1, .w1c, 0, 0, 2⟩, ⟨1, 1, .w1c, 0, 0, 2⟩, ⟨2, 1, .w1c, 0, 0, 2⟩, ⟨3, 1, .w1c, 0, 0, 2⟩, ⟨4, 1, .w1c, 0, 0, 2⟩, ⟨5, 1, .w1c, 0, 0, 2⟩, ⟨6, 1, .w1c, 0, 0, 2⟩, ⟨7, 1, .w1c, 0, 0, 2⟩]⟩,  -- CL_ERR
  ⟨.plain, 0xC, 1, 4, [⟨0, 1, .wo, 0, 0, 2⟩, ⟨1, 1, .wo, 0, 0, 2⟩, ⟨2, 1, .wo, 0, 0, 2⟩, ⟨3, 1, .wo, 0, 0, 2⟩, ⟨4, 1, .wo, 0, 0, 2⟩]⟩,  -- CL_CMD
  ⟨.plain, 0x10, 1, 4, [⟨0, 12, .ro, 0, 0, 4096⟩]⟩,  -- CL_PC
  ⟨.plain, 0x14, 1, 4, [⟨0, 12, .rw, 0, 0, 4096⟩]⟩,  -- CL_START
  ⟨.lo2, 0x18, 1, 4, [⟨0, 32, .rw, 0, 0, 4294967296⟩]⟩,  -- CL_UCODE_BASE_LO
  ⟨.hi, 0x1C, 1, 4, [⟨0, 9, .rw, 0, 0, 512⟩]⟩,  -- CL_UCODE_BASE_HI
  ⟨.plain, 0x20, 1, 4, [⟨0, 4, .ro, 0, 0, 16⟩, ⟨4, 1, .ro, 0, 0, 2⟩, ⟨16, 12, .ro, 0, 0, 4096⟩]⟩,  -- CL_TRAP
  ⟨.plain, 0x24, 1, 4, [⟨0, 12, .ro, 0, 0, 4096⟩]⟩,  -- CL_IRA
  ⟨.plain, 0x28, 1, 4, [⟨0, 6, .rw, 0, 0, 64⟩]⟩,  -- CL_IRQ_EN
  ⟨.plain, 0x2C, 1, 4, [⟨0, 6, .w1c, 0, 0, 64⟩]⟩]  -- CL_IRQ_PEND

/-- Rows of the CL layout, part 1. -/
def rowsCL1 : List RegRow := [
  ⟨.plain, 0x30, 1, 4, [⟨0, 32, .rc, 0, 0, 4294967296⟩]⟩,  -- CL_UC_REFETCH_CNT
  ⟨.plain, 0x34, 1, 4, [⟨0, 32, .rc, 0, 0, 4294967296⟩]⟩,  -- CL_LM_CE_CNT
  ⟨.plain, 0x38, 1, 4, [⟨0, 32, .rc, 0, 0, 4294967296⟩]⟩,  -- CL_LM_UE_CNT
  ⟨.plain, 0x3C, 1, 4, [⟨0, 32, .rc, 0, 0, 4294967296⟩]⟩,  -- CL_SAT_CNT
  ⟨.lo2, 0x40, 1, 4, [⟨0, 32, .ro, 0, 0, 4294967296⟩]⟩,  -- CL_FAULT_LO
  ⟨.hi, 0x44, 1, 4, [⟨0, 9, .ro, 0, 0, 512⟩, ⟨12, 3, .ro, 0, 0, 8⟩, ⟨31, 1, .ro, 0, 0, 2⟩]⟩,  -- CL_FAULT_HI
  ⟨.lo2, 0x48, 1, 4, [⟨0, 32, .ro, 0, 0, 4294967296⟩]⟩,  -- CL_TAINT_STAMP_LO
  ⟨.hi, 0x4C, 1, 4, [⟨0, 24, .ro, 0, 0, 16777216⟩]⟩,  -- CL_TAINT_STAMP_HI
  ⟨.plain, 0x50, 1, 4, [⟨2, 15, .rw, 0, 0, 32768⟩]⟩,  -- CL_LM_ADDR
  ⟨.plain, 0x54, 1, 4, [⟨0, 32, .rw, 0, 0, 4294967296⟩]⟩,  -- CL_LM_DATA
  ⟨.plain, 0x58, 1, 4, [⟨0, 6, .ro, 0, 0, 64⟩, ⟨8, 6, .ro, 0, 0, 64⟩]⟩,  -- CL_FIFO
  ⟨.plain, 0x60, 1, 4, [⟨0, 12, .rw, 0, 0, 4096⟩]⟩]  -- CL_UC_ADDR

/-- Rows of the CL layout, part 2. -/
def rowsCL2 : List RegRow := [
  ⟨.lo2, 0x64, 1, 4, [⟨0, 32, .ro, 0, 0, 4294967296⟩]⟩,  -- CL_UC_DATA_LO
  ⟨.hi, 0x68, 1, 4, [⟨0, 32, .ro, 0, 0, 4294967296⟩]⟩,  -- CL_UC_DATA_HI
  ⟨.lo2, 0x100, 8, 8, [⟨0, 11, .rw, 0, 0, 2048⟩, ⟨16, 12, .rw, 0, 0, 2049⟩]⟩,  -- CL_AG_LO
  ⟨.hi, 0x104, 8, 8, [⟨0, 12, .rw, 0, 0, 4096⟩, ⟨16, 11, .rw, 0, 0, 2048⟩]⟩,  -- CL_AG_HI
  ⟨.lo2, 0x140, 4, 8, [⟨0, 32, .ro, 0, 0, 4294967296⟩]⟩,  -- CL_LOOP_LO
  ⟨.hi, 0x144, 4, 8, [⟨0, 12, .ro, 0, 0, 4096⟩, ⟨12, 12, .ro, 0, 0, 4096⟩, ⟨24, 1, .ro, 0, 0, 2⟩, ⟨31, 1, .ro, 0, 0, 2⟩]⟩,  -- CL_LOOP_HI
  ⟨.lo2, 0x200, 16, 8, [⟨0, 32, .rw, 0, 0, 4294967296⟩]⟩,  -- CL_X_LO
  ⟨.hi, 0x204, 16, 8, [⟨0, 32, .rw, 0, 0, 4294967296⟩]⟩,  -- CL_X_HI
  ⟨.lo3, 0x280, 16, 16, [⟨0, 32, .rw, 0, 0, 4294967296⟩]⟩,  -- CL_ACC_LO
  ⟨.mid, 0x284, 16, 16, [⟨0, 32, .rw, 0, 0, 4294967296⟩]⟩,  -- CL_ACC_MID
  ⟨.top, 0x288, 16, 16, [⟨0, 8, .rw, 0, 0, 256⟩, ⟨8, 1, .rw, 0, 0, 2⟩]⟩]  -- CL_ACC_TOP

/-- Layout of the CL block (Table 10.10). -/
def rowsCL : List RegRow := rowsCL0 ++ rowsCL1 ++ rowsCL2

/-- Rows of the DMC layout, part 0. -/
def rowsDMC0 : List RegRow := [
  ⟨.plain, 0x0, 1, 4, [⟨0, 16, .rw, 100, 0, 65536⟩]⟩,  -- DMC_CTRL
  ⟨.plain, 0x4, 1, 4, [⟨0, 3, .ro, 0, 0, 8⟩, ⟨3, 2, .ro, 0, 0, 4⟩, ⟨5, 4, .ro, 0, 0, 16⟩, ⟨9, 4, .ro, 0, 0, 16⟩]⟩,  -- DMC_STATUS
  ⟨.plain, 0x8, 1, 4, [⟨0, 1, .w1c, 0, 0, 2⟩, ⟨1, 1, .w1c, 0, 0, 2⟩, ⟨2, 1, .w1c, 0, 0, 2⟩, ⟨3, 1, .w1c, 0, 0, 2⟩, ⟨4, 1, .w1c, 0, 0, 2⟩, ⟨5, 1, .w1c, 0, 0, 2⟩]⟩,  -- DMC_ERR
  ⟨.plain, 0xC, 1, 4, [⟨0, 1, .wo, 0, 0, 2⟩, ⟨1, 1, .wo, 0, 0, 2⟩]⟩,  -- DMC_CMD
  ⟨.plain, 0x10, 1, 4, [⟨0, 2, .stg, 0, 0, 3⟩]⟩,  -- DMC_SP_SEL
  ⟨.plain, 0x14, 3, 4, [⟨0, 3, .rw, 0, 0, 6⟩]⟩,  -- DMC_SP_CFG
  ⟨.plain, 0x20, 1, 4, [⟨0, 3, .ro, 0, 0, 8⟩]⟩,  -- DMC_TRAIN_STORED
  ⟨.plain, 0x24, 1, 4, [⟨0, 8, .rw, 80, 0, 256⟩]⟩,  -- DMC_RETRAIN_DT
  ⟨.plain, 0x28, 1, 4, [⟨0, 16, .ro, 0, 0, 65536⟩]⟩,  -- DMC_TEMP
  ⟨.plain, 0x2C, 1, 4, [⟨0, 8, .ro, 0, 0, 256⟩]⟩,  -- DMC_REF_RATE
  ⟨.plain, 0x30, 1, 4, [⟨0, 4, .rc, 0, 0, 16⟩]⟩,  -- DMC_REF_POSTPONE_MAX
  ⟨.plain, 0x34, 1, 4, [⟨0, 32, .rc, 0, 0, 4294967296⟩]⟩]  -- DMC_LP_CANCEL_CNT

/-- Rows of the DMC layout, part 1. -/
def rowsDMC1 : List RegRow := [
  ⟨.plain, 0x38, 1, 4, [⟨0, 32, .rc, 0, 0, 4294967296⟩]⟩,  -- DMC_LP_ABORT_CNT
  ⟨.plain, 0x40, 1, 4, [⟨0, 2, .rw, 0, 0, 4⟩, ⟨2, 5, .rw, 0, 0, 32⟩, ⟨8, 18, .rw, 0, 0, 262144⟩]⟩,  -- DMC_PPR_ADDR
  ⟨.plain, 0x44, 1, 4, [⟨0, 1, .ro, 0, 0, 2⟩, ⟨1, 1, .ro, 0, 0, 2⟩]⟩,  -- DMC_PPR_STATUS
  ⟨.plain, 0x48, 1, 4, [⟨0, 32, .rc, 0, 0, 4294967296⟩]⟩,  -- DMC_RD_CNT
  ⟨.plain, 0x4C, 1, 4, [⟨0, 32, .rc, 0, 0, 4294967296⟩]⟩,  -- DMC_WR_CNT
  ⟨.plain, 0x50, 1, 4, [⟨0, 32, .rc, 0, 0, 4294967296⟩]⟩,  -- DMC_ORW_CNT
  ⟨.plain, 0x54, 1, 4, [⟨0, 32, .rc, 0, 0, 4294967296⟩]⟩,  -- DMC_ACT_CNT
  ⟨.plain, 0x58, 1, 4, [⟨0, 32, .rc, 0, 0, 4294967296⟩]⟩,  -- DMC_CHK_HIT_CNT
  ⟨.plain, 0x5C, 1, 4, [⟨0, 32, .rc, 0, 0, 4294967296⟩]⟩,  -- DMC_CHK_MISS_CNT
  ⟨.plain, 0x60, 1, 4, [⟨0, 5, .rc, 0, 0, 32⟩]⟩]  -- DMC_QDEPTH_MAX

/-- Layout of the DMC block (Table 11.9). -/
def rowsDMC : List RegRow := rowsDMC0 ++ rowsDMC1

/-- Rows of the DMCMAP layout, part 0. -/
def rowsDMCMAP0 : List RegRow := [
  ⟨.plain, 0x3000, 64, 4, [⟨0, 1, .rw, 0, 0, 2⟩, ⟨1, 4, .rw, 4, 0, 9⟩]⟩,  -- DMC_MAP
  ⟨.plain, 0x3100, 1, 4, [⟨0, 1, .wo, 0, 0, 2⟩]⟩,  -- DMC_MAP_CMD
  ⟨.plain, 0x3104, 1, 4, [⟨0, 1, .ro, 0, 0, 2⟩, ⟨1, 1, .ro, 1, 0, 2⟩, ⟨8, 7, .ro, 0, 0, 128⟩, ⟨16, 16, .rc, 0, 0, 65536⟩]⟩]  -- DMC_MAP_STATUS

/-- Layout of the DMCMAP block (Table 11.10). -/
def rowsDMCMAP : List RegRow := rowsDMCMAP0

/-- Rows of the ECC layout, part 0. -/
def rowsECC0 : List RegRow := [
  ⟨.plain, 0x0, 1, 4, [⟨0, 3, .rw, 4, 1, 5⟩, ⟨3, 1, .rw, 1, 0, 2⟩, ⟨4, 3, .rw, 1, 1, 5⟩]⟩,  -- ECC_CTRL
  ⟨.plain, 0x4, 1, 4, [⟨0, 1, .w1c, 0, 0, 2⟩, ⟨1, 1, .w1c, 0, 0, 2⟩, ⟨2, 1, .w1c, 0, 0, 2⟩, ⟨3, 1, .w1c, 0, 0, 2⟩, ⟨4, 1, .w1c, 0, 0, 2⟩, ⟨5, 1, .w1c, 0, 0, 2⟩, ⟨6, 1, .w1c, 0, 0, 2⟩]⟩,  -- ECC_ERR
  ⟨.plain, 0x8, 1, 4, [⟨0, 1, .wo, 0, 0, 2⟩]⟩,  -- ECC_CMD
  ⟨.plain, 0xC, 1, 4, [⟨0, 32, .rc, 0, 0, 4294967296⟩]⟩,  -- ECC_CE_CNT
  ⟨.plain, 0x10, 1, 4, [⟨0, 32, .rc, 0, 0, 4294967296⟩]⟩,  -- ECC_CE_HIST
  ⟨.plain, 0x14, 1, 4, [⟨0, 32, .rc, 0, 0, 4294967296⟩]⟩,  -- ECC_UE_CNT
  ⟨.plain, 0x18, 1, 4, [⟨0, 32, .rc, 0, 0, 4294967296⟩]⟩,  -- ECC_POISON_RD_CNT
  ⟨.plain, 0x1C, 1, 4, [⟨0, 32, .rc, 0, 0, 4294967296⟩]⟩,  -- ECC_HARD_CNT
  ⟨.plain, 0x20, 1, 4, [⟨0, 32, .rw, 0, 0, 4294967296⟩]⟩,  -- ECC_CE_THRESH
  ⟨.lo2, 0x24, 1, 4, [⟨0, 32, .ro, 0, 0, 4294967296⟩]⟩,  -- ECC_FIRST_CE_LO
  ⟨.hi, 0x28, 1, 4, [⟨0, 9, .ro, 0, 0, 512⟩, ⟨9, 3, .ro, 0, 0, 8⟩, ⟨12, 8, .ro, 0, 0, 256⟩, ⟨31, 1, .ro, 0, 0, 2⟩]⟩,  -- ECC_FIRST_CE_HI
  ⟨.plain, 0x30, 1, 4, [⟨0, 4, .rw, 0, 0, 16⟩]⟩]  -- ECC_LOG_SEL

/-- Rows of the ECC layout, part 1. -/
def rowsECC1 : List RegRow := [
  ⟨.lo2, 0x34, 1, 4, [⟨0, 32, .ro, 0, 0, 4294967296⟩]⟩,  -- ECC_LOG_ADDR_LO
  ⟨.hi, 0x38, 1, 4, [⟨0, 9, .ro, 0, 0, 512⟩, ⟨9, 3, .ro, 0, 0, 8⟩, ⟨12, 2, .ro, 0, 0, 4⟩, ⟨14, 1, .ro, 0, 0, 2⟩, ⟨15, 8, .ro, 0, 0, 256⟩, ⟨31, 1, .ro, 0, 0, 2⟩]⟩,  -- ECC_LOG_ADDR_HI
  ⟨.plain, 0x3C, 1, 4, [⟨0, 28, .ro, 0, 0, 268435456⟩]⟩,  -- ECC_LOG_SLOT
  ⟨.lo2, 0x40, 1, 4, [⟨0, 32, .ro, 0, 0, 4294967296⟩]⟩,  -- ECC_LOG_STAMP_LO
  ⟨.hi, 0x44, 1, 4, [⟨0, 24, .ro, 0, 0, 16777216⟩]⟩,  -- ECC_LOG_STAMP_HI
  ⟨.plain, 0x48, 1, 4, [⟨0, 16, .rc, 0, 0, 65536⟩]⟩,  -- ECC_LOG_LOST
  ⟨.plain, 0x60, 1, 4, [⟨0, 1, .rw, 1, 0, 2⟩]⟩,  -- PAT_CTRL
  ⟨.plain, 0x64, 1, 4, [⟨0, 24, .rw, 180000, 64, 16777216⟩]⟩,  -- PAT_INTERVAL
  ⟨.plain, 0x68, 1, 4, [⟨0, 16, .rw, 1440, 0, 65536⟩]⟩,  -- PAT_TARGET
  ⟨.plain, 0x6C, 1, 4, [⟨0, 28, .ro, 0, 0, 268435456⟩]⟩,  -- PAT_POS
  ⟨.plain, 0x70, 1, 4, [⟨0, 32, .ro, 0, 0, 4294967296⟩]⟩,  -- PAT_CUR_LAP
  ⟨.plain, 0x74, 1, 4, [⟨0, 32, .ro, 0, 0, 4294967296⟩]⟩]  -- PAT_LAST_LAP

/-- Rows of the ECC layout, part 2. -/
def rowsECC2 : List RegRow := [
  ⟨.plain, 0x78, 1, 4, [⟨0, 32, .ro, 0, 0, 4294967296⟩]⟩,  -- PAT_LAP_CNT
  ⟨.plain, 0x7C, 1, 4, [⟨0, 32, .ro, 0, 0, 4294967296⟩]⟩]  -- PAT_LAST_LINES

/-- Layout of the ECC block (Table 12.4). -/
def rowsECC : List RegRow := rowsECC0 ++ rowsECC1 ++ rowsECC2

/-- Rows of the PR layout, part 0. -/
def rowsPR0 : List RegRow := [
  ⟨.plain, 0x0, 1, 4, [⟨0, 16, .ro, 0, 0, 65536⟩, ⟨16, 16, .ro, 0, 0, 65536⟩]⟩,  -- PR_STATUS
  ⟨.plain, 0x4, 1, 4, [⟨0, 1, .w1c, 0, 0, 2⟩, ⟨1, 1, .w1c, 0, 0, 2⟩, ⟨2, 1, .w1c, 0, 0, 2⟩, ⟨3, 1, .w1c, 0, 0, 2⟩, ⟨4, 1, .w1c, 0, 0, 2⟩, ⟨5, 1, .w1c, 0, 0, 2⟩, ⟨6, 1, .w1c, 0, 0, 2⟩]⟩,  -- PR_ERR
  ⟨.plain, 0x8, 1, 4, [⟨0, 4, .wo, 0, 0, 16⟩, ⟨4, 8, .wo, 0, 0, 256⟩, ⟨12, 1, .wo, 0, 0, 2⟩, ⟨13, 1, .wo, 0, 0, 2⟩]⟩,  -- PR_KID_CMD
  ⟨.plain, 0xC, 1, 4, [⟨0, 2, .ro, 0, 0, 4⟩]⟩,  -- PR_KID_RESULT
  ⟨.plain, 0x10, 1, 4, [⟨0, 32, .rc, 0, 0, 4294967296⟩]⟩,  -- PR_TG_DENY_CNT
  ⟨.lo2, 0x14, 1, 4, [⟨0, 32, .ro, 0, 0, 4294967296⟩]⟩,  -- PR_TG_LAST_LO
  ⟨.hi, 0x18, 1, 4, [⟨0, 9, .ro, 0, 0, 512⟩, ⟨9, 3, .ro, 0, 0, 8⟩, ⟨12, 6, .ro, 0, 0, 64⟩, ⟨31, 1, .ro, 0, 0, 2⟩]⟩,  -- PR_TG_LAST_HI
  ⟨.plain, 0x20, 1, 4, [⟨0, 4, .rw, 0, 0, 16⟩]⟩,  -- PR_LOG_SEL
  ⟨.lo2, 0x24, 1, 4, [⟨0, 32, .ro, 0, 0, 4294967296⟩]⟩,  -- PR_LOG_ADDR_LO
  ⟨.hi, 0x28, 1, 4, [⟨0, 9, .ro, 0, 0, 512⟩, ⟨9, 4, .ro, 0, 0, 16⟩, ⟨13, 3, .ro, 0, 0, 8⟩, ⟨16, 4, .ro, 0, 0, 16⟩, ⟨31, 1, .ro, 0, 0, 2⟩]⟩,  -- PR_LOG_ADDR_HI
  ⟨.lo2, 0x2C, 1, 4, [⟨0, 32, .ro, 0, 0, 4294967296⟩]⟩,  -- PR_LOG_STAMP_LO
  ⟨.hi, 0x30, 1, 4, [⟨0, 24, .ro, 0, 0, 16777216⟩]⟩]  -- PR_LOG_STAMP_HI

/-- Rows of the PR layout, part 1. -/
def rowsPR1 : List RegRow := [
  ⟨.plain, 0x34, 1, 4, [⟨0, 16, .rc, 0, 0, 65536⟩]⟩,  -- PR_LOG_LOST
  ⟨.plain, 0x38, 1, 4, [⟨0, 1, .wo, 0, 0, 2⟩]⟩,  -- PR_CMD_LOG
  ⟨.plain, 0x40, 16, 4, [⟨0, 8, .ro, 0, 0, 256⟩, ⟨8, 2, .ro, 0, 0, 4⟩, ⟨16, 5, .ro, 0, 0, 32⟩]⟩]  -- PR_KID

/-- Layout of the PR block (Table 13.7). -/
def rowsPR : List RegRow := rowsPR0 ++ rowsPR1

/-- Rows of the PRR layout, part 0. -/
def rowsPRR0 : List RegRow := [
  ⟨.plain, 0x0, 1, 4, [⟨0, 1, .stg, 0, 0, 2⟩, ⟨1, 3, .stg, 0, 0, 7⟩, ⟨4, 4, .stg, 0, 0, 16⟩, ⟨8, 1, .stg, 0, 0, 2⟩, ⟨9, 1, .stg, 0, 0, 2⟩, ⟨10, 1, .stg, 1, 0, 2⟩]⟩,  -- PR_CFG
  ⟨.lo2, 0x4, 1, 4, [⟨21, 11, .stg, 0, 0, 2048⟩]⟩,  -- PR_BASE_LO
  ⟨.hi, 0x8, 1, 4, [⟨0, 9, .stg, 0, 0, 512⟩]⟩,  -- PR_BASE_HI
  ⟨.lo2, 0xC, 1, 4, [⟨20, 12, .stg, 0, 0, 4096⟩]⟩,  -- PR_META_LO
  ⟨.hi, 0x10, 1, 4, [⟨0, 9, .stg, 0, 0, 512⟩]⟩,  -- PR_META_HI
  ⟨.lo2, 0x14, 1, 4, [⟨0, 32, .stg, 0, 0, 4294967296⟩]⟩,  -- PR_DMA_MASK_LO
  ⟨.hi, 0x18, 1, 4, [⟨0, 32, .stg, 0, 0, 4294967296⟩]⟩,  -- PR_DMA_MASK_HI
  ⟨.plain, 0x1C, 1, 4, [⟨0, 3, .ro, 0, 0, 8⟩, ⟨4, 4, .ro, 0, 0, 16⟩, ⟨8, 4, .ro, 0, 0, 16⟩]⟩,  -- PR_STATE
  ⟨.plain, 0x20, 1, 4, [⟨0, 1, .wo, 0, 0, 2⟩, ⟨1, 1, .wo, 0, 0, 2⟩, ⟨4, 4, .wo, 0, 0, 16⟩]⟩,  -- PR_CMD
  ⟨.plain, 0x24, 1, 4, [⟨0, 32, .ro, 0, 0, 4294967296⟩]⟩,  -- PR_WALK
  ⟨.plain, 0x28, 1, 4, [⟨0, 32, .rc, 0, 0, 4294967296⟩]⟩,  -- PR_TAG_FAIL_CNT
  ⟨.plain, 0x2C, 1, 4, [⟨0, 32, .rc, 0, 0, 4294967296⟩]⟩]  -- PR_TAINT_CNT

/-- Layout of the PRR block (Table 13.7). -/
def rowsPRR : List RegRow := rowsPRR0

/-- Rows of the NOCJ layout, part 0. -/
def rowsNOCJ0 : List RegRow := [
  ⟨.plain, 0x0, 1, 4, [⟨0, 6, .ro, 0, 0, 64⟩, ⟨12, 3, .ro, 2, 0, 8⟩]⟩,  -- NOC_JCFG
  ⟨.plain, 0x4, 1, 4, [⟨0, 6, .rw, 0, 0, 64⟩, ⟨12, 3, .rw, 2, 0, 8⟩]⟩,  -- NOC_JSHADOW
  ⟨.plain, 0x8, 1, 4, [⟨0, 1, .wo, 0, 0, 2⟩]⟩,  -- NOC_JCMD
  ⟨.plain, 0xC, 1, 4, [⟨0, 1, .ro, 0, 0, 2⟩, ⟨1, 1, .ro, 0, 0, 2⟩, ⟨4, 12, .ro, 0, 0, 4096⟩, ⟨16, 4, .ro, 0, 0, 16⟩]⟩,  -- NOC_JSTATUS
  ⟨.plain, 0x10, 1, 4, [⟨0, 1, .w1c, 0, 0, 2⟩, ⟨1, 1, .w1c, 0, 0, 2⟩, ⟨2, 1, .w1c, 0, 0, 2⟩, ⟨3, 1, .w1c, 0, 0, 2⟩, ⟨4, 1, .w1c, 0, 0, 2⟩]⟩,  -- NOC_JERR
  ⟨.plain, 0x14, 1, 4, [⟨0, 32, .rc, 0, 0, 4294967296⟩]⟩,  -- NOC_REPLAY_CNT
  ⟨.plain, 0x18, 1, 4, [⟨0, 32, .rc, 0, 0, 4294967296⟩]⟩,  -- NOC_FLIT_CNT
  ⟨.plain, 0x1C, 1, 4, [⟨0, 32, .rc, 0, 0, 4294967296⟩]⟩,  -- NOC_DROP_CNT
  ⟨.plain, 0x20, 1, 4, [⟨0, 32, .rc, 0, 0, 4294967296⟩]⟩,  -- NOC_ORPHAN_CNT
  ⟨.plain, 0x24, 1, 4, [⟨0, 32, .rc, 0, 0, 4294967296⟩]⟩,  -- NOC_MALFORMED_CNT
  ⟨.plain, 0x28, 1, 4, [⟨0, 32, .rc, 0, 0, 4294967296⟩]⟩,  -- NOC_GEN_TIMEOUT_CNT
  ⟨.lo2, 0x2C, 1, 4, [⟨0, 32, .ro, 0, 0, 4294967296⟩]⟩]  -- NOC_CLOSE_STAMP_LO

/-- Rows of the NOCJ layout, part 1. -/
def rowsNOCJ1 : List RegRow := [
  ⟨.hi, 0x30, 1, 4, [⟨0, 24, .ro, 0, 0, 16777216⟩]⟩,  -- NOC_CLOSE_STAMP_HI
  ⟨.lo2, 0x34, 1, 4, [⟨0, 32, .ro, 0, 0, 4294967296⟩]⟩,  -- NOC_DROP_STAMP_LO
  ⟨.hi, 0x38, 1, 4, [⟨0, 24, .ro, 0, 0, 16777216⟩, ⟨31, 1, .ro, 0, 0, 2⟩]⟩]  -- NOC_DROP_STAMP_HI

/-- Layout of the NOCJ block (Table 14.9). -/
def rowsNOCJ : List RegRow := rowsNOCJ0 ++ rowsNOCJ1

/-- Rows of the NOC layout, part 0. -/
def rowsNOC0 : List RegRow := [
  ⟨.plain, 0x0, 1, 4, [⟨0, 16, .rw, 4000, 1, 65536⟩, ⟨16, 16, .rw, 100, 1, 65536⟩]⟩,  -- NOC_CTRL
  ⟨.plain, 0x4, 1, 4, [⟨0, 10, .ro, 0, 0, 1024⟩]⟩,  -- NOC_DOM_STATUS
  ⟨.plain, 0x8, 1, 4, [⟨0, 1, .w1c, 0, 0, 2⟩, ⟨1, 1, .w1c, 0, 0, 2⟩, ⟨2, 1, .w1c, 0, 0, 2⟩, ⟨3, 1, .w1c, 0, 0, 2⟩]⟩,  -- NOC_ERR
  ⟨.plain, 0xC, 1, 4, [⟨0, 32, .rc, 0, 0, 4294967296⟩]⟩,  -- NOC_TIMEOUT_CNT
  ⟨.plain, 0x10, 1, 4, [⟨0, 12, .ro, 0, 0, 4096⟩, ⟨12, 12, .ro, 0, 0, 4096⟩, ⟨31, 1, .ro, 0, 0, 2⟩]⟩]  -- NOC_TIMEOUT_LAST

/-- Layout of the NOC block (Table 14.10). -/
def rowsNOC : List RegRow := rowsNOC0

/-- Rows of the HIF layout, part 0. -/
def rowsHIF0 : List RegRow := [
  ⟨.plain, 0x0, 1, 4, [⟨0, 1, .rw, 1, 0, 2⟩]⟩,  -- HIF_CTRL
  ⟨.plain, 0x4, 1, 4, [⟨0, 1, .ro, 0, 0, 2⟩, ⟨1, 3, .ro, 0, 0, 8⟩, ⟨4, 5, .ro, 0, 0, 32⟩, ⟨9, 1, .ro, 0, 0, 2⟩, ⟨10, 1, .ro, 0, 0, 2⟩, ⟨11, 1, .ro, 0, 0, 2⟩, ⟨12, 1, .ro, 1, 0, 2⟩]⟩,  -- HIF_STATUS
  ⟨.plain, 0x8, 1, 4, [⟨0, 1, .w1c, 0, 0, 2⟩, ⟨1, 1, .w1c, 0, 0, 2⟩, ⟨2, 1, .w1c, 0, 0, 2⟩, ⟨3, 1, .w1c, 0, 0, 2⟩, ⟨4, 1, .w1c, 0, 0, 2⟩]⟩,  -- HIF_ERR
  ⟨.plain, 0xC, 1, 4, [⟨0, 11, .rw, 0, 0, 2048⟩]⟩,  -- HIF_WIN_BASE
  ⟨.plain, 0x10, 1, 4, [⟨0, 16, .rw, 10000, 100, 65536⟩]⟩,  -- HIF_BAR2_TMO
  ⟨.plain, 0x14, 1, 4, [⟨0, 32, .rc, 0, 0, 4294967296⟩]⟩,  -- HIF_BAR2_DENY_CNT
  ⟨.lo2, 0x18, 1, 4, [⟨0, 32, .ro, 0, 0, 4294967296⟩]⟩,  -- HIF_BAR2_LAST_LO
  ⟨.hi, 0x1C, 1, 4, [⟨0, 9, .ro, 0, 0, 512⟩, ⟨12, 3, .ro, 0, 0, 8⟩, ⟨31, 1, .ro, 0, 0, 2⟩]⟩,  -- HIF_BAR2_LAST_HI
  ⟨.plain, 0x20, 1, 4, [⟨0, 16, .rc, 0, 0, 65536⟩]⟩]  -- HIF_RESET_CNT

/-- Layout of the HIF block (Table 15.10). -/
def rowsHIF : List RegRow := rowsHIF0

/-- Rows of the RING layout, part 0. -/
def rowsRING0 : List RegRow := [
  ⟨.lo2, 0x0, 1, 4, [⟨12, 20, .rw, 0, 0, 1048576⟩]⟩,  -- RING_BASE_LO
  ⟨.hi, 0x4, 1, 4, [⟨0, 32, .rw, 0, 0, 4294967296⟩]⟩,  -- RING_BASE_HI
  ⟨.plain, 0x8, 1, 4, [⟨0, 5, .rw, 0, 0, 32⟩, ⟨5, 2, .rw, 0, 0, 2⟩]⟩,  -- RING_CFG
  ⟨.plain, 0xC, 1, 4, [⟨0, 1, .rw, 0, 0, 2⟩, ⟨1, 11, .rw, 0, 0, 2048⟩, ⟨12, 12, .rw, 0, 0, 4096⟩]⟩,  -- RING_IRQ
  ⟨.plain, 0x10, 1, 4, [⟨0, 32, .ro, 0, 0, 4294967296⟩]⟩,  -- RING_PI
  ⟨.plain, 0x14, 1, 4, [⟨0, 32, .ro, 0, 0, 4294967296⟩]⟩,  -- RING_HEAD
  ⟨.plain, 0x18, 1, 4, [⟨0, 32, .ro, 0, 0, 4294967296⟩]⟩,  -- RING_CI
  ⟨.plain, 0x1C, 1, 4, [⟨0, 1, .w1c, 0, 0, 2⟩, ⟨1, 1, .w1c, 0, 0, 2⟩, ⟨2, 1, .w1c, 0, 0, 2⟩, ⟨3, 1, .w1c, 0, 0, 2⟩, ⟨4, 1, .w1c, 0, 0, 2⟩]⟩]  -- RING_ERR

/-- Layout of the RING block (Table 15.10). -/
def rowsRING : List RegRow := rowsRING0

/-- Rows of the DMA layout, part 0. -/
def rowsDMA0 : List RegRow := [
  ⟨.plain, 0x0, 1, 4, [⟨0, 1, .rw, 0, 0, 2⟩, ⟨1, 1, .rw, 0, 0, 2⟩, ⟨2, 2, .rw, 0, 0, 4⟩, ⟨4, 1, .rw, 0, 0, 2⟩]⟩,  -- DMA_CTRL
  ⟨.plain, 0x4, 1, 4, [⟨0, 3, .ro, 0, 0, 8⟩, ⟨3, 2, .ro, 0, 0, 4⟩, ⟨8, 8, .ro, 0, 0, 256⟩, ⟨16, 16, .ro, 0, 0, 65536⟩]⟩,  -- DMA_STATUS
  ⟨.plain, 0x8, 1, 4, [⟨0, 1, .w1c, 0, 0, 2⟩, ⟨1, 1, .w1c, 0, 0, 2⟩, ⟨2, 1, .w1c, 0, 0, 2⟩, ⟨3, 1, .w1c, 0, 0, 2⟩]⟩,  -- DMA_ERR
  ⟨.plain, 0xC, 1, 4, [⟨0, 1, .wo, 0, 0, 2⟩, ⟨1, 1, .wo, 0, 0, 2⟩, ⟨2, 1, .wo, 0, 0, 2⟩, ⟨3, 1, .wo, 0, 0, 2⟩]⟩,  -- DMA_CMD
  ⟨.plain, 0x10, 1, 4, [⟨0, 16, .rw, 256, 0, 65536⟩, ⟨16, 16, .rw, 64, 0, 65536⟩]⟩,  -- DMA_PACE
  ⟨.plain, 0x14, 1, 4, [⟨0, 16, .rw, 1000, 1, 65536⟩]⟩,  -- DMA_PACE_WAIT
  ⟨.lo2, 0x20, 4, 8, [⟨0, 32, .ro, 0, 0, 4294967296⟩]⟩,  -- DMA_DRAIN_LO
  ⟨.hi, 0x24, 4, 8, [⟨0, 32, .ro, 0, 0, 4294967296⟩]⟩,  -- DMA_DRAIN_HI
  ⟨.lo2, 0x40, 1, 4, [⟨0, 32, .rw, 0, 0, 4294967296⟩]⟩,  -- DMA_T2_SRC_LO
  ⟨.hi, 0x44, 1, 4, [⟨0, 32, .rw, 0, 0, 4294967296⟩]⟩,  -- DMA_T2_SRC_HI
  ⟨.lo2, 0x48, 1, 4, [⟨0, 32, .rw, 0, 0, 4294967296⟩]⟩,  -- DMA_T2_DST_LO
  ⟨.hi, 0x4C, 1, 4, [⟨0, 32, .rw, 0, 0, 4294967296⟩]⟩]  -- DMA_T2_DST_HI

/-- Rows of the DMA layout, part 1. -/
def rowsDMA1 : List RegRow := [
  ⟨.plain, 0x50, 1, 4, [⟨0, 32, .rw, 0, 0, 4294967296⟩]⟩,  -- DMA_T2_COUNT
  ⟨.plain, 0x54, 1, 4, [⟨0, 8, .rw, 0, 0, 256⟩]⟩,  -- DMA_T2_OP
  ⟨.lo2, 0x58, 1, 4, [⟨0, 32, .rw, 0, 0, 4294967296⟩]⟩,  -- DMA_T2_PARAM_LO
  ⟨.hi, 0x5C, 1, 4, [⟨0, 32, .rw, 0, 0, 4294967296⟩]⟩,  -- DMA_T2_PARAM_HI
  ⟨.plain, 0x60, 1, 4, [⟨0, 11, .rw, 0, 0, 2048⟩]⟩,  -- DMA_T2_VEC
  ⟨.plain, 0x64, 1, 4, [⟨0, 8, .ro, 0, 0, 256⟩, ⟨8, 1, .w1c, 0, 0, 2⟩]⟩,  -- DMA_T2_STATUS
  ⟨.plain, 0x68, 1, 4, [⟨0, 32, .rc, 0, 0, 4294967296⟩]⟩,  -- DMA_BYTES_CNT
  ⟨.plain, 0x6C, 1, 4, [⟨0, 32, .rc, 0, 0, 4294967296⟩]⟩,  -- DMA_DESC_CNT
  ⟨.lo2, 0x70, 1, 4, [⟨0, 32, .ro, 0, 0, 4294967296⟩]⟩,  -- DMA_FAULT_LO
  ⟨.hi, 0x74, 1, 4, [⟨0, 9, .ro, 0, 0, 512⟩, ⟨12, 3, .ro, 0, 0, 8⟩, ⟨31, 1, .ro, 0, 0, 2⟩]⟩]  -- DMA_FAULT_HI

/-- Layout of the DMA block (Table 15.11). -/
def rowsDMA : List RegRow := rowsDMA0 ++ rowsDMA1

/-- Rows of the EV layout, part 0. -/
def rowsEV0 : List RegRow := [
  ⟨.plain, 0x0, 1, 4, [⟨0, 16, .rw, 1000, 1, 65536⟩]⟩,  -- EV_CTRL
  ⟨.plain, 0x4, 1, 4, [⟨0, 9, .ro, 0, 0, 512⟩]⟩,  -- EV_STATUS
  ⟨.plain, 0x8, 1, 4, [⟨0, 1, .w1c, 0, 0, 2⟩, ⟨1, 1, .w1c, 0, 0, 2⟩, ⟨2, 1, .w1c, 0, 0, 2⟩, ⟨3, 1, .w1c, 0, 0, 2⟩]⟩,  -- EV_ERR
  ⟨.plain, 0xC, 1, 4, [⟨0, 32, .ro, 0, 0, 4294967296⟩]⟩,  -- EV_SEQ
  ⟨.plain, 0x10, 1, 4, [⟨0, 32, .rc, 0, 0, 4294967296⟩]⟩,  -- EV_LOST_CNT
  ⟨.plain, 0x14, 1, 4, [⟨0, 32, .rc, 0, 0, 4294967296⟩]⟩,  -- EV_FWD_DROP_CNT
  ⟨.plain, 0x18, 1, 4, [⟨0, 8, .rw, 0, 0, 256⟩, ⟨8, 1, .rw, 0, 0, 2⟩]⟩,  -- EV_FWD_RING
  ⟨.plain, 0x100, 24, 4, [⟨0, 32, .w1c, 0, 0, 4294967296⟩]⟩,  -- EV_LATCH
  ⟨.plain, 0x1000, 768, 4, [⟨0, 11, .rw, 0, 0, 2048⟩, ⟨12, 1, .rw, 1, 0, 2⟩, ⟨13, 1, .rw, 0, 0, 2⟩, ⟨14, 1, .rw, 0, 0, 2⟩, ⟨15, 1, .rw, 1, 0, 2⟩, ⟨16, 8, .rw, 0, 0, 256⟩]⟩,  -- EV_ROUTE
  ⟨.plain, 0x7F00, 64, 4, [⟨0, 32, .ro, 0, 0, 4294967296⟩]⟩,  -- EV_PBA
  ⟨.plain, 0x8000, 2048, 16, [⟨0, 32, .rw, 0, 0, 4294967296⟩]⟩,  -- MSIX_ADDR_LO
  ⟨.plain, 0x8004, 2048, 16, [⟨0, 32, .rw, 0, 0, 4294967296⟩]⟩]  -- MSIX_ADDR_HI

/-- Rows of the EV layout, part 1. -/
def rowsEV1 : List RegRow := [
  ⟨.plain, 0x8008, 2048, 16, [⟨0, 32, .rw, 0, 0, 4294967296⟩]⟩,  -- MSIX_DATA
  ⟨.plain, 0x800C, 2048, 16, [⟨0, 1, .rw, 1, 0, 2⟩]⟩]  -- MSIX_CTL

/-- Layout of the EV block (Table 16.4). -/
def rowsEV : List RegRow := rowsEV0 ++ rowsEV1

/-- Rows of the TRK layout, part 0. -/
def rowsTRK0 : List RegRow := [
  ⟨.plain, 0x0, 1, 4, [⟨0, 2, .rw, 0, 0, 4⟩, ⟨2, 1, .rw, 0, 0, 2⟩, ⟨3, 1, .rw, 0, 0, 2⟩, ⟨4, 1, .rw, 1, 0, 2⟩]⟩,  -- TRK_CTRL
  ⟨.plain, 0x4, 1, 4, [⟨0, 4, .ro, 0, 0, 16⟩, ⟨4, 4, .ro, 0, 0, 16⟩, ⟨8, 1, .ro, 0, 0, 2⟩, ⟨9, 1, .ro, 0, 0, 2⟩, ⟨10, 1, .ro, 0, 0, 2⟩, ⟨11, 1, .ro, 0, 0, 2⟩]⟩,  -- TRK_STATUS
  ⟨.plain, 0x8, 1, 4, [⟨0, 1, .w1c, 0, 0, 2⟩, ⟨1, 1, .w1c, 0, 0, 2⟩, ⟨2, 1, .w1c, 0, 0, 2⟩, ⟨3, 1, .w1c, 0, 0, 2⟩, ⟨4, 1, .w1c, 0, 0, 2⟩, ⟨5, 1, .w1c, 0, 0, 2⟩, ⟨6, 1, .w1c, 0, 0, 2⟩, ⟨7, 1, .w1c, 0, 0, 2⟩]⟩,  -- TRK_ERR
  ⟨.plain, 0xC, 1, 4, [⟨0, 1, .wo, 0, 0, 2⟩, ⟨1, 1, .wo, 0, 0, 2⟩, ⟨2, 1, .wo, 0, 0, 2⟩, ⟨3, 1, .wo, 0, 0, 2⟩]⟩,  -- TRK_CMD
  ⟨.plain, 0x10, 1, 4, [⟨0, 12, .ro, 0, 0, 4096⟩, ⟨12, 3, .ro, 0, 0, 8⟩, ⟨15, 1, .ro, 0, 0, 2⟩, ⟨16, 16, .ro, 0, 0, 65536⟩]⟩,  -- TRK_PEER
  ⟨.lo2, 0x14, 1, 4, [⟨0, 32, .ro, 0, 0, 4294967296⟩]⟩,  -- TRK_PEER_SERIAL_LO
  ⟨.hi, 0x18, 1, 4, [⟨0, 32, .ro, 0, 0, 4294967296⟩]⟩,  -- TRK_PEER_SERIAL_HI
  ⟨.plain, 0x1C, 1, 4, [⟨0, 20, .rw, 0, 0, 1048576⟩, ⟨24, 1, .rw, 1, 0, 2⟩, ⟨28, 4, .rw, 3, 0, 16⟩]⟩,  -- TRK_CTLE
  ⟨.plain, 0x20, 4, 4, [⟨0, 4, .ro, 0, 0, 16⟩, ⟨4, 5, .ro, 0, 0, 32⟩, ⟨16, 6, .ro, 48, 0, 64⟩]⟩,  -- TRK_TXEQ_L
  ⟨.plain, 0x30, 1, 4, [⟨0, 16, .rw, 0, 0, 65536⟩]⟩,  -- TRK_CABLE_SKEW
  ⟨.plain, 0x34, 1, 4, [⟨0, 16, .rw, 16, 1, 65536⟩]⟩,  -- TRK_ERR_LIMIT
  ⟨.plain, 0x38, 1, 4, [⟨0, 2, .rw, 0, 0, 3⟩, ⟨4, 4, .rw, 15, 0, 16⟩, ⟨16, 16, .rw, 0, 0, 65536⟩]⟩]  -- TRK_TEST

/-- Rows of the TRK layout, part 1. -/
def rowsTRK1 : List RegRow := [
  ⟨.plain, 0x3C, 1, 4, [⟨0, 2, .rw, 0, 0, 4⟩, ⟨2, 2, .rw, 0, 0, 3⟩, ⟨8, 8, .rw, 1, 1, 256⟩, ⟨16, 16, .rw, 1, 0, 65536⟩]⟩,  -- TRK_INJ
  ⟨.plain, 0x40, 4, 4, [⟨0, 32, .rc, 0, 0, 4294967296⟩]⟩,  -- TRK_PRBS_ERR_L
  ⟨.lo2, 0x50, 1, 4, [⟨0, 32, .ro, 0, 0, 4294967296⟩]⟩,  -- TRK_PRBS_BITS_LO
  ⟨.hi, 0x54, 1, 4, [⟨0, 32, .ro, 0, 0, 4294967296⟩]⟩,  -- TRK_PRBS_BITS_HI
  ⟨.plain, 0x58, 1, 4, [⟨0, 32, .rc, 0, 0, 4294967296⟩]⟩,  -- TRK_CRC_CNT
  ⟨.plain, 0x5C, 1, 4, [⟨0, 32, .rc, 0, 0, 4294967296⟩]⟩,  -- TRK_REPLAY_CNT
  ⟨.plain, 0x60, 1, 4, [⟨0, 32, .rc, 0, 0, 4294967296⟩]⟩,  -- TRK_FEC_CORR_CNT
  ⟨.plain, 0x64, 1, 4, [⟨0, 32, .rc, 0, 0, 4294967296⟩]⟩,  -- TRK_FEC_UNC_CNT
  ⟨.plain, 0x68, 1, 4, [⟨0, 32, .rc, 0, 0, 4294967296⟩]⟩,  -- TRK_RECOV_CNT
  ⟨.plain, 0x6C, 1, 4, [⟨0, 32, .rc, 0, 0, 4294967296⟩]⟩,  -- TRK_TIMED_LOST_CNT
  ⟨.plain, 0x70, 1, 4, [⟨0, 32, .rc, 0, 0, 4294967296⟩]⟩,  -- TRK_FWD_DROP_CNT
  ⟨.plain, 0x74, 1, 4, [⟨0, 7, .ro, 0, 0, 128⟩]⟩]  -- TRK_HELD

/-- Layout of the TRK block (Table 17.7). -/
def rowsTRK : List RegRow := rowsTRK0 ++ rowsTRK1

/-- Rows of the HY layout, part 0. -/
def rowsHY0 : List RegRow := [
  ⟨.plain, 0x0, 1, 4, [⟨0, 1, .rw, 0, 0, 2⟩, ⟨1, 1, .rw, 0, 0, 2⟩, ⟨8, 8, .rw, 20, 0, 256⟩]⟩,  -- HY_CTRL
  ⟨.plain, 0x4, 1, 4, [⟨0, 12, .rw, 0, 0, 4096⟩, ⟨12, 1, .ro, 0, 0, 2⟩]⟩,  -- HY_SELF
  ⟨.plain, 0x8, 1, 4, [⟨0, 3, .ro, 0, 0, 8⟩, ⟨3, 3, .ro, 0, 0, 8⟩, ⟨6, 1, .ro, 0, 0, 2⟩, ⟨7, 1, .ro, 0, 0, 2⟩, ⟨8, 1, .ro, 0, 0, 2⟩, ⟨9, 3, .ro, 0, 0, 8⟩]⟩,  -- HY_STATUS
  ⟨.plain, 0xC, 1, 4, [⟨0, 1, .w1c, 0, 0, 2⟩, ⟨1, 1, .w1c, 0, 0, 2⟩, ⟨2, 1, .w1c, 0, 0, 2⟩]⟩,  -- HY_ERR
  ⟨.plain, 0x10, 1, 4, [⟨0, 13, .ro, 0, 0, 8192⟩]⟩,  -- HY_MEMBERS
  ⟨.plain, 0x20, 1, 4, [⟨0, 12, .rw, 0, 0, 4096⟩]⟩,  -- HY_TAB_SEL
  ⟨.lo2, 0x24, 1, 4, [⟨0, 32, .rw, 0, 0, 4294967296⟩]⟩,  -- HY_TAB_SERIAL_LO
  ⟨.hi, 0x28, 1, 4, [⟨0, 32, .rw, 0, 0, 4294967296⟩]⟩,  -- HY_TAB_SERIAL_HI
  ⟨.plain, 0x2C, 1, 4, [⟨0, 1, .rw, 0, 0, 2⟩, ⟨1, 2, .ro, 0, 0, 4⟩, ⟨16, 16, .ro, 0, 0, 65536⟩]⟩]  -- HY_TAB_STATE

/-- Layout of the HY block (Table 17.9). -/
def rowsHY : List RegRow := rowsHY0

/-- Rows of the CW layout, part 0. -/
def rowsCW0 : List RegRow := [
  ⟨.plain, 0x0, 1, 4, [⟨0, 1, .rw, 0, 0, 2⟩, ⟨1, 1, .rw, 0, 0, 2⟩, ⟨2, 1, .rw, 0, 0, 2⟩, ⟨4, 2, .rw, 1, 1, 4⟩]⟩,  -- CW_CTRL
  ⟨.plain, 0x4, 1, 4, [⟨0, 4, .ro, 0, 0, 16⟩, ⟨4, 1, .ro, 0, 0, 2⟩, ⟨5, 1, .ro, 0, 0, 2⟩, ⟨6, 1, .ro, 0, 0, 2⟩]⟩,  -- CW_STATUS
  ⟨.plain, 0x8, 1, 4, [⟨0, 1, .w1c, 0, 0, 2⟩, ⟨1, 1, .w1c, 0, 0, 2⟩, ⟨2, 1, .w1c, 0, 0, 2⟩, ⟨3, 1, .w1c, 0, 0, 2⟩, ⟨4, 1, .w1c, 0, 0, 2⟩, ⟨5, 1, .w1c, 0, 0, 2⟩, ⟨6, 1, .w1c, 0, 0, 2⟩]⟩,  -- CW_ERR
  ⟨.plain, 0xC, 1, 4, [⟨0, 1, .wo, 0, 0, 2⟩, ⟨1, 1, .wo, 0, 0, 2⟩]⟩,  -- CW_CMD
  ⟨.plain, 0x10, 1, 4, [⟨0, 8, .rw, 0, 0, 256⟩]⟩,  -- CW_SEGMENT
  ⟨.plain, 0x14, 1, 4, [⟨0, 10, .rw, 320, 200, 1024⟩]⟩,  -- CW_SLOT_NS
  ⟨.plain, 0x18, 1, 4, [⟨0, 1, .rw, 0, 0, 2⟩, ⟨1, 2, .ro, 0, 0, 4⟩]⟩,  -- CW_KEY
  ⟨.lo3, 0x20, 1, 4, [⟨0, 32, .rw, 0, 0, 4294967296⟩]⟩,  -- CW_TX_T_LO
  ⟨.mid, 0x24, 1, 4, [⟨0, 32, .rw, 0, 0, 4294967296⟩]⟩,  -- CW_TX_T_HI
  ⟨.top, 0x28, 1, 4, [⟨0, 8, .rw, 0, 0, 256⟩]⟩,  -- CW_TX_T_TOP
  ⟨.plain, 0x2C, 1, 4, [⟨0, 4, .rw, 0, 0, 16⟩, ⟨4, 2, .rw, 1, 0, 4⟩, ⟨6, 12, .rw, 0, 0, 4096⟩]⟩,  -- CW_TX_ACTION
  ⟨.plain, 0x30, 1, 4, [⟨0, 32, .rw, 0, 0, 4294967296⟩]⟩]  -- CW_TX_ARG

/-- Rows of the CW layout, part 1. -/
def rowsCW1 : List RegRow := [
  ⟨.plain, 0x34, 1, 4, [⟨0, 2, .wo, 0, 0, 4⟩, ⟨4, 2, .wo, 0, 0, 4⟩, ⟨8, 5, .wo, 0, 0, 32⟩]⟩,  -- CW_TX_PUSH
  ⟨.plain, 0x38, 1, 4, [⟨0, 3, .ro, 0, 0, 8⟩]⟩,  -- CW_TX_RESULT
  ⟨.plain, 0x40, 6, 4, [⟨0, 32, .rw, 0, 0, 4294967296⟩]⟩,  -- CW_TX_NOTE
  ⟨.plain, 0x60, 1, 4, [⟨0, 16, .rw, 100, 1, 65536⟩]⟩,  -- CW_BEACON_MS
  ⟨.plain, 0x64, 1, 4, [⟨0, 16, .rw, 0, 0, 65536⟩]⟩,  -- CW_BEACON_DELAY
  ⟨.plain, 0x68, 1, 4, [⟨0, 16, .rw, 25600, 0, 65536⟩]⟩,  -- CW_BEACON_LIMIT
  ⟨.plain, 0x6C, 1, 4, [⟨0, 32, .ro, 0, 0, 4294967296⟩]⟩,  -- CW_BEACON_OFF
  ⟨.plain, 0x70, 1, 4, [⟨0, 16, .rw, 16, 1, 65536⟩]⟩,  -- CW_Q_LIMIT
  ⟨.plain, 0x74, 1, 4, [⟨0, 16, .rw, 1000, 0, 65536⟩]⟩,  -- CW_Q_HOLD
  ⟨.plain, 0x80, 1, 4, [⟨0, 32, .rc, 0, 0, 4294967296⟩]⟩,  -- CW_RX_CNT
  ⟨.plain, 0x84, 1, 4, [⟨0, 32, .rc, 0, 0, 4294967296⟩]⟩,  -- CW_CRC_CNT
  ⟨.plain, 0x88, 1, 4, [⟨0, 32, .rc, 0, 0, 4294967296⟩]⟩]  -- CW_STRANGER_CNT

/-- Rows of the CW layout, part 2. -/
def rowsCW2 : List RegRow := [
  ⟨.plain, 0x8C, 1, 4, [⟨0, 32, .rc, 0, 0, 4294967296⟩]⟩,  -- CW_DUP_CNT
  ⟨.plain, 0x90, 1, 4, [⟨0, 32, .rc, 0, 0, 4294967296⟩]⟩,  -- CW_COLL_CNT
  ⟨.plain, 0x94, 1, 4, [⟨0, 32, .rc, 0, 0, 4294967296⟩]⟩,  -- CW_QDROP_CNT
  ⟨.plain, 0x98, 1, 4, [⟨0, 16, .rc, 0, 0, 65536⟩]⟩]  -- CW_BUSY_CNT

/-- Layout of the CW block (Table 18.6). -/
def rowsCW : List RegRow := rowsCW0 ++ rowsCW1 ++ rowsCW2

/-- Rows of the CWM layout, part 0. -/
def rowsCWM0 : List RegRow := [
  ⟨.plain, 0x0, 1, 4, [⟨0, 12, .rw, 0, 0, 4096⟩, ⟨30, 1, .ro, 0, 0, 2⟩, ⟨31, 1, .rw, 0, 0, 2⟩]⟩,  -- CW_MEMBER
  ⟨.plain, 0x4, 1, 4, [⟨0, 16, .rw, 0, 0, 65536⟩, ⟨16, 16, .ro, 0, 0, 65536⟩]⟩]  -- CW_MEMBER_EPOCH

/-- Layout of the CWM block (Table 18.6). -/
def rowsCWM : List RegRow := rowsCWM0

/-- Rows of the WS layout, part 0. -/
def rowsWS0 : List RegRow := [
  ⟨.plain, 0x0, 1, 4, [⟨0, 1, .rw, 1, 0, 2⟩, ⟨1, 1, .rw, 0, 0, 2⟩, ⟨2, 3, .rw, 0, 0, 8⟩, ⟨5, 3, .rw, 1, 0, 8⟩, ⟨8, 12, .rw, 0, 0, 4096⟩, ⟨24, 5, .rw, 0, 0, 32⟩]⟩,  -- WS_CFG
  ⟨.plain, 0x4, 1, 4, [⟨0, 5, .ro, 0, 0, 32⟩, ⟨8, 5, .ro, 0, 0, 32⟩, ⟨16, 1, .ro, 0, 0, 2⟩, ⟨17, 1, .ro, 0, 0, 2⟩]⟩,  -- WS_STATUS
  ⟨.plain, 0x8, 1, 4, [⟨0, 1, .w1c, 0, 0, 2⟩, ⟨1, 1, .w1c, 0, 0, 2⟩, ⟨2, 1, .w1c, 0, 0, 2⟩, ⟨3, 1, .w1c, 0, 0, 2⟩]⟩,  -- WS_ERR
  ⟨.plain, 0xC, 1, 4, [⟨0, 32, .rw, 0, 0, 4294967296⟩]⟩,  -- WS_LOCK
  ⟨.plain, 0x10, 1, 4, [⟨0, 1, .wo, 0, 0, 2⟩, ⟨1, 1, .wo, 0, 0, 2⟩]⟩,  -- WS_CMD
  ⟨.plain, 0x14, 1, 4, [⟨0, 32, .rc, 0, 0, 4294967296⟩]⟩]  -- WS_FLUSH_CNT

/-- Layout of the WS block (Table 19.3). -/
def rowsWS : List RegRow := rowsWS0

/-- Rows of the WSE layout, part 0. -/
def rowsWSE0 : List RegRow := [
  ⟨.plain, 0x40, 1, 4, [⟨0, 32, .wo, 0, 0, 4294967296⟩]⟩,  -- WS_TX
  ⟨.plain, 0x44, 1, 4, [⟨0, 32, .wo, 0, 0, 4294967296⟩]⟩,  -- WS_SEND
  ⟨.plain, 0x48, 1, 4, [⟨0, 5, .ro, 0, 0, 32⟩, ⟨5, 3, .ro, 0, 0, 8⟩, ⟨8, 12, .ro, 0, 0, 4096⟩, ⟨20, 8, .ro, 0, 0, 256⟩, ⟨28, 1, .ro, 0, 0, 2⟩, ⟨29, 1, .ro, 0, 0, 2⟩, ⟨31, 1, .ro, 0, 0, 2⟩]⟩,  -- WS_RXHDR
  ⟨.plain, 0x4C, 1, 4, [⟨0, 32, .ro, 0, 0, 4294967296⟩]⟩,  -- WS_RXDATA
  ⟨.plain, 0x50, 1, 4, [⟨0, 32, .w1c, 0, 0, 4294967296⟩]⟩,  -- WS_DB
  ⟨.plain, 0x54, 1, 4, [⟨0, 32, .rw, 4294967295, 0, 4294967296⟩]⟩,  -- WS_DB_MASK
  ⟨.plain, 0x58, 1, 4, [⟨0, 1, .rw, 0, 0, 2⟩, ⟨1, 1, .rw, 0, 0, 2⟩]⟩,  -- WS_CTRL
  ⟨.plain, 0x5C, 1, 4, [⟨0, 1, .w1c, 0, 0, 2⟩]⟩,  -- WS_IRQ
  ⟨.plain, 0x60, 1, 4, [⟨0, 8, .ro, 0, 0, 256⟩]⟩,  -- WS_REPOCH
  ⟨.plain, 0x64, 1, 4, [⟨0, 5, .ro, 0, 0, 32⟩, ⟨5, 1, .ro, 0, 0, 2⟩]⟩,  -- WS_OPEN
  ⟨.plain, 0x80, 1, 4, [⟨0, 32, .wo, 0, 0, 4294967296⟩]⟩,  -- WS_TX
  ⟨.plain, 0x84, 1, 4, [⟨0, 32, .wo, 0, 0, 4294967296⟩]⟩]  -- WS_SEND

/-- Rows of the WSE layout, part 1. -/
def rowsWSE1 : List RegRow := [
  ⟨.plain, 0x88, 1, 4, [⟨0, 5, .ro, 0, 0, 32⟩, ⟨5, 3, .ro, 0, 0, 8⟩, ⟨8, 12, .ro, 0, 0, 4096⟩, ⟨20, 8, .ro, 0, 0, 256⟩, ⟨28, 1, .ro, 0, 0, 2⟩, ⟨29, 1, .ro, 0, 0, 2⟩, ⟨31, 1, .ro, 0, 0, 2⟩]⟩,  -- WS_RXHDR
  ⟨.plain, 0x8C, 1, 4, [⟨0, 32, .ro, 0, 0, 4294967296⟩]⟩,  -- WS_RXDATA
  ⟨.plain, 0x90, 1, 4, [⟨0, 32, .w1c, 0, 0, 4294967296⟩]⟩,  -- WS_DB
  ⟨.plain, 0x94, 1, 4, [⟨0, 32, .rw, 4294967295, 0, 4294967296⟩]⟩,  -- WS_DB_MASK
  ⟨.plain, 0x98, 1, 4, [⟨0, 1, .rw, 0, 0, 2⟩, ⟨1, 1, .rw, 0, 0, 2⟩]⟩,  -- WS_CTRL
  ⟨.plain, 0x9C, 1, 4, [⟨0, 1, .w1c, 0, 0, 2⟩]⟩,  -- WS_IRQ
  ⟨.plain, 0xA0, 1, 4, [⟨0, 8, .ro, 0, 0, 256⟩]⟩,  -- WS_REPOCH
  ⟨.plain, 0xA4, 1, 4, [⟨0, 5, .ro, 0, 0, 32⟩, ⟨5, 1, .ro, 0, 0, 2⟩]⟩]  -- WS_OPEN

/-- Layout of the WSE block (Table 19.3). -/
def rowsWSE : List RegRow := rowsWSE0 ++ rowsWSE1

/-- Rows of the CFG layout, part 0. -/
def rowsCFG0 : List RegRow := [
  ⟨.plain, 0x0, 1, 4, [⟨0, 4, .ro, 0, 0, 16⟩, ⟨4, 1, .ro, 0, 0, 2⟩, ⟨5, 1, .ro, 0, 0, 2⟩, ⟨6, 1, .ro, 0, 0, 2⟩, ⟨8, 4, .ro, 0, 0, 16⟩]⟩,  -- CFG_STATUS
  ⟨.plain, 0x4, 1, 4, [⟨0, 1, .w1c, 0, 0, 2⟩, ⟨1, 1, .w1c, 0, 0, 2⟩, ⟨2, 1, .w1c, 0, 0, 2⟩]⟩,  -- CFG_ERR
  ⟨.plain, 0x8, 1, 4, [⟨0, 1, .wo, 0, 0, 2⟩, ⟨1, 1, .wo, 0, 0, 2⟩, ⟨2, 1, .wo, 0, 0, 2⟩, ⟨4, 2, .wo, 0, 0, 4⟩]⟩,  -- CFG_CMD
  ⟨.plain, 0xC, 1, 4, [⟨0, 2, .ro, 0, 0, 4⟩]⟩,  -- CFG_CMD_RESULT
  ⟨.plain, 0x10, 1, 4, [⟨0, 1, .rw, 0, 0, 2⟩, ⟨8, 5, .rw, 0, 0, 32⟩]⟩,  -- CFG_SRC
  ⟨.lo2, 0x14, 1, 4, [⟨6, 26, .rw, 0, 0, 67108864⟩]⟩,  -- CFG_SRC_LO
  ⟨.hi, 0x18, 1, 4, [⟨0, 9, .rw, 0, 0, 512⟩]⟩,  -- CFG_SRC_HI
  ⟨.plain, 0x1C, 1, 4, [⟨0, 6, .rw, 0, 0, 64⟩, ⟨7, 1, .rw, 0, 0, 2⟩]⟩,  -- CFG_EXPECT
  ⟨.plain, 0x20, 1, 4, [⟨0, 6, .rw, 0, 0, 64⟩]⟩,  -- CFG_RB_REGION
  ⟨.plain, 0x24, 1, 4, [⟨0, 12, .rw, 0, 0, 4096⟩]⟩,  -- CFG_RB_FIRST
  ⟨.plain, 0x28, 1, 4, [⟨0, 13, .rw, 0, 0, 8192⟩]⟩,  -- CFG_RB_COUNT
  ⟨.lo2, 0x2C, 1, 4, [⟨6, 26, .rw, 0, 0, 67108864⟩]⟩]  -- CFG_RB_DST_LO

/-- Rows of the CFG layout, part 1. -/
def rowsCFG1 : List RegRow := [
  ⟨.hi, 0x30, 1, 4, [⟨0, 9, .rw, 0, 0, 512⟩]⟩,  -- CFG_RB_DST_HI
  ⟨.plain, 0x34, 1, 4, [⟨0, 5, .rw, 0, 0, 32⟩, ⟨8, 1, .rw, 0, 0, 2⟩]⟩]  -- CFG_BOOT

/-- Layout of the CFG block (Table 20.9). -/
def rowsCFG : List RegRow := rowsCFG0 ++ rowsCFG1

/-- Rows of the CFGQ layout, part 0. -/
def rowsCFGQ0 : List RegRow := [
  ⟨.plain, 0x0, 1, 4, [⟨0, 3, .ro, 0, 0, 8⟩, ⟨4, 5, .ro, 0, 0, 32⟩, ⟨9, 1, .ro, 0, 0, 2⟩, ⟨16, 6, .ro, 0, 0, 64⟩]⟩,  -- CFG_RESULT
  ⟨.plain, 0x4, 1, 4, [⟨0, 32, .ro, 0, 0, 4294967296⟩]⟩,  -- CFG_BAD_ADDR
  ⟨.plain, 0x8, 1, 4, [⟨0, 18, .ro, 0, 0, 262144⟩]⟩,  -- CFG_FRAMES
  ⟨.plain, 0xC, 1, 4, [⟨0, 32, .ro, 0, 0, 4294967296⟩]⟩]  -- CFG_LOAD_TIME

/-- Layout of the CFGQ block (Table 20.9). -/
def rowsCFGQ : List RegRow := rowsCFGQ0

/-- Rows of the RG layout, part 0. -/
def rowsRG0 : List RegRow := [
  ⟨.plain, 0x0, 1, 4, [⟨0, 3, .ro, 0, 0, 8⟩, ⟨3, 1, .ro, 0, 0, 2⟩, ⟨4, 1, .ro, 0, 0, 2⟩]⟩,  -- RG_STATUS
  ⟨.plain, 0x4, 1, 4, [⟨0, 16, .ro, 0, 0, 65536⟩]⟩,  -- RG_GCK_MASK
  ⟨.plain, 0x8, 4, 4, [⟨0, 32, .ro, 0, 0, 4294967296⟩]⟩,  -- RG_IMAGE_ID
  ⟨.lo2, 0x18, 1, 4, [⟨0, 32, .ro, 0, 0, 4294967296⟩]⟩,  -- RG_LOAD_STAMP_LO
  ⟨.hi, 0x1C, 1, 4, [⟨0, 24, .ro, 0, 0, 16777216⟩]⟩,  -- RG_LOAD_STAMP_HI
  ⟨.plain, 0x20, 1, 4, [⟨0, 32, .ro, 0, 0, 4294967296⟩]⟩,  -- RG_LOAD_CNT
  ⟨.plain, 0x24, 1, 4, [⟨0, 6, .rw, 0, 0, 64⟩]⟩,  -- RG_KERB_SEL
  ⟨.plain, 0x28, 1, 4, [⟨0, 32, .ro, 0, 0, 4294967296⟩]⟩,  -- RG_KERB_DATA
  ⟨.plain, 0x2C, 1, 4, [⟨0, 5, .ro, 0, 0, 32⟩, ⟨31, 1, .ro, 0, 0, 2⟩]⟩]  -- RG_ABORT

/-- Layout of the RG block (Table 20.10). -/
def rowsRG : List RegRow := rowsRG0

/-- Rows of the SW layout, part 0. -/
def rowsSW0 : List RegRow := [
  ⟨.plain, 0x0, 1, 4, [⟨0, 1, .rw, 1, 0, 2⟩, ⟨1, 1, .rw, 1, 0, 2⟩]⟩,  -- SW_CTRL
  ⟨.plain, 0x4, 1, 4, [⟨0, 2, .ro, 0, 0, 4⟩, ⟨4, 4, .ro, 0, 0, 16⟩]⟩,  -- SW_STATUS
  ⟨.plain, 0x8, 1, 4, [⟨0, 1, .w1c, 0, 0, 2⟩, ⟨1, 1, .w1c, 0, 0, 2⟩, ⟨2, 1, .w1c, 0, 0, 2⟩, ⟨3, 1, .w1c, 0, 0, 2⟩, ⟨4, 1, .w1c, 0, 0, 2⟩, ⟨5, 1, .w1c, 0, 0, 2⟩, ⟨6, 1, .w1c, 0, 0, 2⟩, ⟨7, 1, .w1c, 0, 0, 2⟩]⟩,  -- SW_ERR
  ⟨.plain, 0xC, 1, 4, [⟨0, 1, .wo, 0, 0, 2⟩, ⟨1, 1, .wo, 0, 0, 2⟩]⟩,  -- SW_CMD
  ⟨.plain, 0x10, 1, 4, [⟨0, 16, .rw, 1000, 1, 65536⟩]⟩,  -- SW_LAP_TARGET
  ⟨.plain, 0x14, 1, 4, [⟨0, 32, .ro, 0, 0, 4294967296⟩]⟩,  -- SW_LAST_LAP
  ⟨.plain, 0x18, 1, 4, [⟨0, 32, .ro, 0, 0, 4294967296⟩]⟩,  -- SW_CUR_LAP
  ⟨.plain, 0x1C, 1, 4, [⟨0, 32, .ro, 0, 0, 4294967296⟩]⟩,  -- SW_LAP_CNT
  ⟨.plain, 0x20, 1, 4, [⟨0, 18, .ro, 0, 0, 262144⟩]⟩,  -- SW_LAST_FRAMES
  ⟨.plain, 0x24, 1, 4, [⟨0, 32, .rc, 0, 0, 4294967296⟩]⟩,  -- SW_CE_CNT
  ⟨.plain, 0x28, 1, 4, [⟨0, 32, .rc, 0, 0, 4294967296⟩]⟩,  -- SW_BIT_CNT
  ⟨.plain, 0x2C, 1, 4, [⟨0, 32, .rc, 0, 0, 4294967296⟩]⟩]  -- SW_RELOAD_CNT

/-- Rows of the SW layout, part 1. -/
def rowsSW1 : List RegRow := [
  ⟨.plain, 0x30, 1, 4, [⟨0, 32, .rc, 0, 0, 4294967296⟩]⟩,  -- SW_UNREP_CNT
  ⟨.plain, 0x34, 1, 4, [⟨0, 32, .rc, 0, 0, 4294967296⟩]⟩,  -- SW_TMR_CNT
  ⟨.plain, 0x38, 1, 4, [⟨0, 32, .ro, 0, 0, 4294967296⟩]⟩,  -- SW_FIRST_ADDR
  ⟨.plain, 0x3C, 1, 4, [⟨0, 3, .ro, 0, 0, 8⟩, ⟨4, 2, .ro, 0, 0, 4⟩, ⟨31, 1, .ro, 0, 0, 2⟩]⟩,  -- SW_FIRST_INFO
  ⟨.lo2, 0x40, 1, 4, [⟨0, 32, .ro, 0, 0, 4294967296⟩]⟩,  -- SW_FIRST_STAMP_LO
  ⟨.hi, 0x44, 1, 4, [⟨0, 24, .ro, 0, 0, 16777216⟩]⟩,  -- SW_FIRST_STAMP_HI
  ⟨.lo2, 0x48, 1, 4, [⟨0, 32, .ro, 0, 0, 4294967296⟩]⟩,  -- SW_SUSPECT_LO
  ⟨.hi, 0x4C, 1, 4, [⟨0, 32, .ro, 0, 0, 4294967296⟩]⟩]  -- SW_SUSPECT_HI

/-- Layout of the SW block (Table 21.5). -/
def rowsSW : List RegRow := rowsSW0 ++ rowsSW1

/-- Rows of the BIST layout, part 0. -/
def rowsBIST0 : List RegRow := [
  ⟨.plain, 0x0, 1, 4, [⟨0, 1, .rw, 0, 0, 2⟩]⟩,  -- BIST_CTRL
  ⟨.plain, 0x4, 1, 4, [⟨0, 2, .ro, 0, 0, 4⟩, ⟨2, 1, .ro, 0, 0, 2⟩, ⟨3, 1, .ro, 0, 0, 2⟩]⟩,  -- BIST_STATUS
  ⟨.plain, 0x8, 1, 4, [⟨0, 1, .w1c, 0, 0, 2⟩, ⟨1, 1, .w1c, 0, 0, 2⟩, ⟨2, 1, .w1c, 0, 0, 2⟩, ⟨3, 1, .w1c, 0, 0, 2⟩]⟩,  -- BIST_ERR
  ⟨.plain, 0xC, 1, 4, [⟨0, 1, .wo, 0, 0, 2⟩, ⟨1, 1, .wo, 0, 0, 2⟩, ⟨2, 1, .wo, 0, 0, 2⟩, ⟨3, 1, .wo, 0, 0, 2⟩]⟩,  -- BIST_CMD
  ⟨.plain, 0x10, 1, 4, [⟨0, 2, .rw, 0, 0, 3⟩, ⟨4, 9, .rw, 0, 0, 512⟩]⟩,  -- BIST_TARGET
  ⟨.plain, 0x14, 1, 4, [⟨0, 2, .ro, 0, 0, 4⟩, ⟨4, 2, .ro, 0, 0, 4⟩, ⟨8, 9, .ro, 0, 0, 512⟩]⟩,  -- BIST_SLICE_RESULT
  ⟨.plain, 0x18, 1, 4, [⟨0, 16, .rw, 600, 1, 65536⟩]⟩,  -- BIST_INTERVAL
  ⟨.plain, 0x1C, 1, 4, [⟨0, 32, .ro, 0, 0, 4294967296⟩]⟩,  -- BIST_POWERUP_TIME
  ⟨.plain, 0x20, 2, 4, [⟨0, 32, .rw, 0, 0, 4294967296⟩]⟩,  -- BIST_ALLOW_REGION
  ⟨.plain, 0x28, 2, 4, [⟨0, 32, .rw, 0, 0, 4294967296⟩]⟩,  -- BIST_ALLOW_GROUP
  ⟨.plain, 0x40, 16, 4, [⟨0, 32, .rw, 0, 0, 4294967296⟩]⟩,  -- BIST_ALLOW_CLUSTER
  ⟨.plain, 0x100, 1, 4, [⟨0, 5, .rw, 0, 0, 32⟩]⟩]  -- BIST_LOG_SEL

/-- Rows of the BIST layout, part 1. -/
def rowsBIST1 : List RegRow := [
  ⟨.plain, 0x104, 1, 4, [⟨0, 4, .ro, 0, 0, 16⟩, ⟨4, 14, .ro, 0, 0, 16384⟩]⟩,  -- BIST_LOG_UNIT
  ⟨.plain, 0x108, 1, 4, [⟨0, 32, .ro, 0, 0, 4294967296⟩]⟩,  -- BIST_LOG_ADDR
  ⟨.plain, 0x10C, 1, 4, [⟨0, 16, .ro, 0, 0, 65536⟩, ⟨16, 3, .ro, 0, 0, 8⟩, ⟨30, 1, .ro, 0, 0, 2⟩, ⟨31, 1, .ro, 0, 0, 2⟩]⟩,  -- BIST_LOG_BIT
  ⟨.plain, 0x110, 1, 4, [⟨0, 16, .rc, 0, 0, 65536⟩]⟩]  -- BIST_LOG_LOST

/-- Layout of the BIST block (Table 21.6). -/
def rowsBIST : List RegRow := rowsBIST0 ++ rowsBIST1

/-- Rows of the QB layout, part 0. -/
def rowsQB0 : List RegRow := [
  ⟨.plain, 0x0, 1, 4, [⟨0, 16, .ro, 0, 0, 65536⟩]⟩,  -- QB_REGION_FAIL
  ⟨.plain, 0x4, 1, 4, [⟨0, 16, .ro, 0, 0, 65536⟩]⟩,  -- QB_GROUP_FAIL
  ⟨.plain, 0x8, 1, 4, [⟨0, 16, .ro, 0, 0, 65536⟩]⟩,  -- QB_EXHAUSTED
  ⟨.plain, 0x10, 4, 4, [⟨0, 32, .ro, 0, 0, 4294967296⟩]⟩]  -- QB_CLUSTER_FAIL

/-- Layout of the QB block (Table 21.7). -/
def rowsQB : List RegRow := rowsQB0

/-- Rows of the SEC layout, part 0. -/
def rowsSEC0 : List RegRow := [
  ⟨.plain, 0x0, 1, 4, [⟨0, 3, .ro, 0, 0, 8⟩, ⟨3, 2, .ro, 0, 0, 4⟩, ⟨5, 1, .ro, 0, 0, 2⟩, ⟨6, 2, .ro, 0, 0, 4⟩, ⟨8, 1, .ro, 0, 0, 2⟩, ⟨9, 1, .ro, 0, 0, 2⟩]⟩,  -- SEC_STATUS
  ⟨.plain, 0x4, 1, 4, [⟨0, 1, .w1c, 0, 0, 2⟩, ⟨1, 1, .w1c, 0, 0, 2⟩, ⟨2, 1, .w1c, 0, 0, 2⟩, ⟨3, 1, .w1c, 0, 0, 2⟩, ⟨4, 1, .w1c, 0, 0, 2⟩]⟩,  -- SEC_ERR
  ⟨.plain, 0x8, 1, 4, [⟨0, 1, .wo, 0, 0, 2⟩, ⟨1, 1, .wo, 0, 0, 2⟩, ⟨2, 1, .wo, 0, 0, 2⟩, ⟨3, 1, .wo, 0, 0, 2⟩, ⟨4, 1, .wo, 0, 0, 2⟩]⟩,  -- SEC_CMD
  ⟨.plain, 0xC, 1, 4, [⟨0, 4, .rw, 8, 0, 16⟩]⟩,  -- SEC_EXT_SEL
  ⟨.plain, 0x10, 12, 4, [⟨0, 32, .rw, 0, 0, 4294967296⟩]⟩,  -- SEC_EXT_DATA
  ⟨.plain, 0x40, 1, 4, [⟨0, 7, .ro, 0, 0, 128⟩]⟩,  -- SEC_SVN
  ⟨.plain, 0x44, 1, 4, [⟨0, 3, .w1c, 0, 0, 8⟩]⟩,  -- SEC_TAMPER
  ⟨.plain, 0x48, 1, 4, [⟨0, 12, .ro, 0, 0, 4096⟩]⟩,  -- SEC_VBAT
  ⟨.plain, 0x4C, 1, 4, [⟨0, 32, .ro, 0, 0, 4294967296⟩]⟩,  -- SEC_QUOTE_CNT
  ⟨.plain, 0x50, 1, 4, [⟨0, 2, .rw, 0, 1, 3⟩]⟩,  -- SEC_DBG_LEVEL
  ⟨.plain, 0x60, 8, 4, [⟨0, 32, .ro, 0, 0, 4294967296⟩]⟩,  -- SEC_DBG_CHAL
  ⟨.plain, 0x80, 24, 4, [⟨0, 32, .wo, 0, 0, 4294967296⟩]⟩]  -- SEC_DBG_RESP

/-- Rows of the SEC layout, part 1. -/
def rowsSEC1 : List RegRow := [
  ⟨.plain, 0x100, 12, 4, [⟨0, 32, .ro, 0, 0, 4294967296⟩]⟩,  -- SEC_MR_W
  ⟨.plain, 0x140, 12, 4, [⟨0, 32, .ro, 0, 0, 4294967296⟩]⟩,  -- SEC_MR_W
  ⟨.plain, 0x180, 12, 4, [⟨0, 32, .ro, 0, 0, 4294967296⟩]⟩,  -- SEC_MR_W
  ⟨.plain, 0x1C0, 12, 4, [⟨0, 32, .ro, 0, 0, 4294967296⟩]⟩,  -- SEC_MR_W
  ⟨.plain, 0x200, 12, 4, [⟨0, 32, .ro, 0, 0, 4294967296⟩]⟩,  -- SEC_MR_W
  ⟨.plain, 0x240, 12, 4, [⟨0, 32, .ro, 0, 0, 4294967296⟩]⟩,  -- SEC_MR_W
  ⟨.plain, 0x280, 12, 4, [⟨0, 32, .ro, 0, 0, 4294967296⟩]⟩,  -- SEC_MR_W
  ⟨.plain, 0x2C0, 12, 4, [⟨0, 32, .ro, 0, 0, 4294967296⟩]⟩,  -- SEC_MR_W
  ⟨.plain, 0x300, 12, 4, [⟨0, 32, .ro, 0, 0, 4294967296⟩]⟩,  -- SEC_MR_W
  ⟨.plain, 0x340, 12, 4, [⟨0, 32, .ro, 0, 0, 4294967296⟩]⟩,  -- SEC_MR_W
  ⟨.plain, 0x380, 12, 4, [⟨0, 32, .ro, 0, 0, 4294967296⟩]⟩,  -- SEC_MR_W
  ⟨.plain, 0x3C0, 12, 4, [⟨0, 32, .ro, 0, 0, 4294967296⟩]⟩]  -- SEC_MR_W

/-- Rows of the SEC layout, part 2. -/
def rowsSEC2 : List RegRow := [
  ⟨.plain, 0x400, 12, 4, [⟨0, 32, .ro, 0, 0, 4294967296⟩]⟩,  -- SEC_MR_W
  ⟨.plain, 0x440, 12, 4, [⟨0, 32, .ro, 0, 0, 4294967296⟩]⟩,  -- SEC_MR_W
  ⟨.plain, 0x480, 12, 4, [⟨0, 32, .ro, 0, 0, 4294967296⟩]⟩,  -- SEC_MR_W
  ⟨.plain, 0x4C0, 12, 4, [⟨0, 32, .ro, 0, 0, 4294967296⟩]⟩,  -- SEC_MR_W
  ⟨.plain, 0x500, 1, 4, [⟨0, 8, .rw, 0, 0, 256⟩]⟩,  -- SEC_LOG_SEL
  ⟨.plain, 0x504, 1, 4, [⟨0, 32, .ro, 0, 0, 4294967296⟩]⟩,  -- SEC_LOG_COUNT
  ⟨.plain, 0x508, 1, 4, [⟨0, 4, .ro, 0, 0, 16⟩, ⟨4, 3, .ro, 0, 0, 8⟩, ⟨8, 6, .ro, 0, 0, 64⟩, ⟨31, 1, .ro, 0, 0, 2⟩]⟩,  -- SEC_LOG_INFO
  ⟨.plain, 0x510, 12, 4, [⟨0, 32, .ro, 0, 0, 4294967296⟩]⟩,  -- SEC_LOG_DIGEST
  ⟨.lo2, 0x540, 1, 4, [⟨0, 32, .ro, 0, 0, 4294967296⟩]⟩,  -- SEC_LOG_STAMP_LO
  ⟨.hi, 0x544, 1, 4, [⟨0, 24, .ro, 0, 0, 16777216⟩]⟩]  -- SEC_LOG_STAMP_HI

/-- Layout of the SEC block (Table 22.5). -/
def rowsSEC : List RegRow := rowsSEC0 ++ rowsSEC1 ++ rowsSEC2

/-- Rows of the PWR layout, part 0. -/
def rowsPWR0 : List RegRow := [
  ⟨.plain, 0x0, 1, 4, [⟨0, 1, .rw, 0, 0, 2⟩, ⟨1, 3, .rw, 3, 0, 5⟩, ⟨4, 8, .rw, 170, 0, 256⟩]⟩,  -- PWR_CTRL
  ⟨.plain, 0x4, 1, 4, [⟨0, 3, .ro, 0, 0, 8⟩, ⟨3, 8, .ro, 0, 0, 256⟩, ⟨11, 1, .ro, 0, 0, 2⟩, ⟨12, 1, .ro, 0, 0, 2⟩, ⟨13, 1, .ro, 0, 0, 2⟩, ⟨14, 1, .w1c, 0, 0, 2⟩, ⟨15, 1, .ro, 0, 0, 2⟩, ⟨16, 4, .ro, 0, 0, 16⟩]⟩,  -- PWR_STATUS
  ⟨.plain, 0x8, 1, 4, [⟨0, 1, .w1c, 0, 0, 2⟩, ⟨1, 1, .w1c, 0, 0, 2⟩, ⟨2, 1, .w1c, 0, 0, 2⟩, ⟨3, 1, .w1c, 0, 0, 2⟩, ⟨4, 1, .w1c, 0, 0, 2⟩, ⟨5, 1, .w1c, 0, 0, 2⟩, ⟨6, 1, .w1c, 0, 0, 2⟩, ⟨7, 1, .w1c, 0, 0, 2⟩, ⟨8, 1, .w1c, 0, 0, 2⟩]⟩,  -- PWR_ERR
  ⟨.plain, 0xC, 1, 4, [⟨0, 1, .wo, 0, 0, 2⟩, ⟨1, 1, .wo, 0, 0, 2⟩, ⟨2, 1, .wo, 0, 0, 2⟩, ⟨3, 1, .wo, 0, 0, 2⟩]⟩,  -- PWR_CMD
  ⟨.plain, 0x10, 1, 4, [⟨0, 15, .ro, 0, 0, 32768⟩]⟩,  -- PWR_VETO
  ⟨.plain, 0x14, 1, 4, [⟨0, 16, .rw, 10, 0, 65536⟩]⟩,  -- PWR_MARGIN
  ⟨.plain, 0x18, 1, 4, [⟨0, 16, .rw, 200, 0, 65536⟩]⟩,  -- PWR_DWELL_STBY
  ⟨.plain, 0x1C, 1, 4, [⟨0, 16, .rw, 50, 0, 65536⟩]⟩,  -- PWR_DWELL_DORM
  ⟨.plain, 0x20, 1, 4, [⟨0, 16, .rw, 10, 0, 65536⟩]⟩,  -- PWR_DWELL_SEAL
  ⟨.plain, 0x24, 1, 4, [⟨0, 16, .rw, 1000, 1, 65536⟩]⟩,  -- PWR_IDLE_NS
  ⟨.plain, 0x28, 1, 4, [⟨0, 5, .rw, 5, 1, 21⟩]⟩,  -- PWR_LOSS
  ⟨.lo3, 0x2C, 1, 4, [⟨0, 32, .ro, 0, 0, 4294967296⟩]⟩]  -- PWR_MARK_LO

/-- Rows of the PWR layout, part 1. -/
def rowsPWR1 : List RegRow := [
  ⟨.mid, 0x30, 1, 4, [⟨0, 32, .ro, 0, 0, 4294967296⟩]⟩,  -- PWR_MARK_HI
  ⟨.top, 0x34, 1, 4, [⟨0, 8, .ro, 0, 0, 256⟩]⟩,  -- PWR_MARK_TOP
  ⟨.plain, 0x38, 1, 4, [⟨0, 4, .ro, 0, 0, 16⟩, ⟨4, 7, .ro, 0, 0, 128⟩, ⟨31, 1, .ro, 0, 0, 2⟩]⟩,  -- PWR_SEAL_INFO
  ⟨.plain, 0x3C, 1, 4, [⟨0, 32, .ro, 0, 0, 4294967296⟩]⟩,  -- PWR_SEAL_TIME
  ⟨.plain, 0x40, 1, 4, [⟨0, 32, .ro, 0, 0, 4294967296⟩]⟩,  -- PWR_SEAL_CNT
  ⟨.plain, 0x44, 1, 4, [⟨0, 32, .rc, 0, 0, 4294967296⟩]⟩,  -- PWR_LATE_CNT
  ⟨.lo2, 0x48, 1, 4, [⟨20, 12, .rw, 0, 0, 4096⟩]⟩,  -- PWR_RESTORE_BASE_LO
  ⟨.hi, 0x4C, 1, 4, [⟨0, 9, .rw, 0, 0, 512⟩]⟩,  -- PWR_RESTORE_BASE_HI
  ⟨.plain, 0x50, 1, 4, [⟨0, 2, .ro, 0, 0, 4⟩, ⟨16, 16, .ro, 0, 0, 65536⟩]⟩,  -- PWR_RESTORE_RESULT
  ⟨.plain, 0x60, 1, 4, [⟨0, 16, .ro, 0, 0, 65536⟩]⟩,  -- PWR_VIN
  ⟨.plain, 0x64, 1, 4, [⟨0, 16, .ro, 0, 0, 65536⟩]⟩,  -- PWR_IIN
  ⟨.plain, 0x68, 1, 4, [⟨0, 16, .ro, 0, 0, 65536⟩]⟩]  -- PWR_PIN

/-- Rows of the PWR layout, part 2. -/
def rowsPWR2 : List RegRow := [
  ⟨.plain, 0x6C, 1, 4, [⟨0, 16, .ro, 0, 0, 65536⟩]⟩,  -- PWR_BUS
  ⟨.plain, 0x70, 1, 4, [⟨0, 16, .ro, 0, 0, 65536⟩]⟩,  -- PWR_TEMP
  ⟨.plain, 0x74, 1, 4, [⟨0, 16, .rw, 320, 0, 65536⟩]⟩,  -- PWR_TEMP_WARN
  ⟨.plain, 0x78, 1, 4, [⟨0, 16, .rw, 360, 0, 65536⟩]⟩,  -- PWR_TEMP_CRIT
  ⟨.plain, 0x80, 4, 4, [⟨0, 5, .ro, 0, 0, 32⟩]⟩,  -- PWR_VCORE
  ⟨.plain, 0x90, 1, 4, [⟨0, 11, .ro, 0, 0, 2048⟩]⟩]  -- PWR_RAIL_STATUS

/-- Layout of the PWR block (Table 23.9). -/
def rowsPWR : List RegRow := rowsPWR0 ++ rowsPWR1 ++ rowsPWR2

/-- Rows of the OD layout, part 0. -/
def rowsOD0 : List RegRow := [
  ⟨.plain, 0x0, 1, 4, [⟨0, 1, .rw, 1, 0, 2⟩, ⟨4, 4, .rw, 0, 0, 16⟩]⟩,  -- OD_CTRL
  ⟨.plain, 0x4, 1, 4, [⟨0, 4, .ro, 0, 0, 16⟩, ⟨4, 4, .ro, 0, 0, 16⟩]⟩,  -- OD_STATUS
  ⟨.plain, 0x8, 1, 4, [⟨0, 4, .w1c, 0, 0, 16⟩, ⟨4, 4, .w1c, 0, 0, 16⟩, ⟨8, 4, .w1c, 0, 0, 16⟩, ⟨12, 4, .w1c, 0, 0, 16⟩, ⟨16, 4, .w1c, 0, 0, 16⟩, ⟨20, 1, .w1c, 0, 0, 2⟩]⟩,  -- OD_ERR
  ⟨.plain, 0xC, 1, 4, [⟨0, 4, .wo, 0, 0, 16⟩]⟩,  -- OD_CMD
  ⟨.plain, 0x10, 1, 4, [⟨0, 16, .rw, 600, 1, 65536⟩]⟩,  -- OD_INTERVAL
  ⟨.plain, 0x14, 1, 4, [⟨0, 16, .rw, 200, 1, 65536⟩]⟩,  -- OD_MARGIN_MIN
  ⟨.plain, 0x18, 1, 4, [⟨0, 3, .rw, 1, 1, 5⟩]⟩,  -- OD_STEP_MAX
  ⟨.plain, 0x20, 4, 4, [⟨0, 5, .ro, 0, 0, 32⟩, ⟨8, 5, .ro, 0, 0, 32⟩]⟩]  -- OD_PLAN

/-- Layout of the OD block (Table 24.3). -/
def rowsOD : List RegRow := rowsOD0

/-- Rows of the ODQ layout, part 0. -/
def rowsODQ0 : List RegRow := [
  ⟨.plain, 0x0, 1, 4, [⟨0, 16, .ro, 0, 0, 65536⟩]⟩,  -- OD_Q_MARGIN
  ⟨.plain, 0x4, 1, 4, [⟨0, 32, .ro, 0, 0, 4294967296⟩]⟩,  -- OD_Q_AGE
  ⟨.lo2, 0x8, 1, 4, [⟨0, 32, .ro, 0, 0, 4294967296⟩]⟩,  -- OD_Q_STAMP_LO
  ⟨.hi, 0xC, 1, 4, [⟨0, 24, .ro, 0, 0, 16777216⟩]⟩,  -- OD_Q_STAMP_HI
  ⟨.plain, 0x10, 1, 4, [⟨0, 16, .ro, 0, 0, 65536⟩]⟩,  -- OD_Q_TEMP
  ⟨.plain, 0x40, 16, 4, [⟨0, 16, .ro, 0, 0, 65536⟩, ⟨31, 1, .ro, 0, 0, 2⟩]⟩,  -- OD_RMARGIN
  ⟨.plain, 0x80, 8, 4, [⟨0, 24, .ro, 0, 0, 16777216⟩, ⟨31, 1, .ro, 0, 0, 2⟩]⟩,  -- OD_RO_FREQ
  ⟨.plain, 0xC0, 16, 4, [⟨0, 16, .ro, 0, 0, 65536⟩, ⟨31, 1, .ro, 0, 0, 2⟩]⟩,  -- OD_GMARGIN
  ⟨.plain, 0x100, 16, 4, [⟨0, 16, .ro, 0, 0, 65536⟩]⟩]  -- OD_DLM

/-- Layout of the ODQ block (Table 24.4). -/
def rowsODQ : List RegRow := rowsODQ0

/-- Rows of the DBG layout, part 0. -/
def rowsDBG0 : List RegRow := [
  ⟨.plain, 0x0, 1, 4, [⟨0, 10, .rw, 256, 1, 1024⟩, ⟨10, 1, .rw, 0, 0, 2⟩, ⟨11, 1, .rw, 0, 0, 2⟩]⟩,  -- DBG_CTRL
  ⟨.plain, 0x4, 1, 4, [⟨0, 2, .ro, 0, 0, 4⟩, ⟨2, 2, .ro, 0, 0, 4⟩, ⟨4, 1, .ro, 0, 0, 2⟩, ⟨5, 1, .ro, 0, 0, 2⟩]⟩,  -- DBG_STATUS
  ⟨.plain, 0x8, 1, 4, [⟨0, 1, .w1c, 0, 0, 2⟩, ⟨1, 1, .w1c, 0, 0, 2⟩]⟩,  -- DBG_ERR
  ⟨.plain, 0xC, 1, 4, [⟨0, 1, .wo, 0, 0, 2⟩, ⟨1, 1, .wo, 0, 0, 2⟩, ⟨2, 1, .wo, 0, 0, 2⟩, ⟨3, 1, .wo, 0, 0, 2⟩, ⟨4, 1, .wo, 0, 0, 2⟩, ⟨5, 1, .wo, 0, 0, 2⟩, ⟨6, 1, .wo, 0, 0, 2⟩]⟩,  -- DBG_CMD
  ⟨.plain, 0x10, 1, 4, [⟨0, 9, .rw, 0, 0, 512⟩]⟩,  -- DBG_CL_SEL
  ⟨.plain, 0x14, 1, 4, [⟨0, 5, .ro, 0, 0, 32⟩, ⟨31, 1, .ro, 0, 0, 2⟩]⟩,  -- DBG_HALT_INFO
  ⟨.plain, 0x18, 1, 4, [⟨0, 32, .ro, 0, 0, 4294967296⟩]⟩,  -- DBG_HALT_PC
  ⟨.lo2, 0x1C, 1, 4, [⟨0, 32, .ro, 0, 0, 4294967296⟩]⟩,  -- DBG_HALT_STAMP_LO
  ⟨.hi, 0x20, 1, 4, [⟨0, 24, .ro, 0, 0, 16777216⟩]⟩,  -- DBG_HALT_STAMP_HI
  ⟨.plain, 0x24, 1, 4, [⟨0, 3, .ro, 0, 0, 8⟩, ⟨4, 3, .ro, 0, 0, 8⟩]⟩,  -- DBG_FAULT
  ⟨.plain, 0x30, 1, 4, [⟨0, 6, .rw, 0, 0, 64⟩]⟩,  -- DBG_TRACE_SEL
  ⟨.plain, 0x34, 1, 4, [⟨0, 4, .ro, 0, 0, 16⟩, ⟨4, 3, .ro, 0, 0, 8⟩, ⟨8, 24, .ro, 0, 0, 16777216⟩]⟩]  -- DBG_TRACE_INFO

/-- Rows of the DBG layout, part 1. -/
def rowsDBG1 : List RegRow := [
  ⟨.lo2, 0x38, 1, 4, [⟨0, 32, .ro, 0, 0, 4294967296⟩]⟩,  -- DBG_TRACE_STAMP_LO
  ⟨.hi, 0x3C, 1, 4, [⟨0, 24, .ro, 0, 0, 16777216⟩]⟩,  -- DBG_TRACE_STAMP_HI
  ⟨.plain, 0x40, 1, 4, [⟨0, 32, .ro, 0, 0, 4294967296⟩]⟩,  -- DBG_TRACE_COUNT
  ⟨.plain, 0x80, 1, 4, [⟨0, 1, .rw, 1, 0, 2⟩, ⟨1, 1, .rw, 0, 0, 2⟩]⟩,  -- WDG_CTRL
  ⟨.plain, 0x84, 1, 4, [⟨0, 16, .rw, 1000, 1, 65536⟩]⟩,  -- WDG_PERIOD
  ⟨.plain, 0x88, 1, 4, [⟨0, 32, .ro, 1000000, 0, 4294967296⟩]⟩,  -- WDG_REMAIN
  ⟨.plain, 0x8C, 1, 4, [⟨0, 32, .wo, 0, 0, 4294967296⟩]⟩,  -- WDG_KICK
  ⟨.plain, 0x90, 1, 4, [⟨0, 16, .rc, 0, 0, 65536⟩]⟩]  -- WDG_EXPIRE_CNT

/-- Layout of the DBG block (Table 25.5). -/
def rowsDBG : List RegRow := rowsDBG0 ++ rowsDBG1

/-- Rows of the DTR layout, part 0. -/
def rowsDTR0 : List RegRow := [
  ⟨.plain, 0x0, 1, 4, [⟨2, 21, .rw, 0, 0, 2097152⟩]⟩,  -- DTR_ADDR
  ⟨.plain, 0x4, 1, 4, [⟨0, 32, .rw, 0, 0, 4294967296⟩]⟩,  -- DTR_DATA
  ⟨.plain, 0x8, 1, 4, [⟨0, 1, .rw, 0, 0, 2⟩, ⟨1, 1, .rw, 0, 0, 2⟩, ⟨31, 1, .w1c, 0, 0, 2⟩]⟩,  -- DTR_CTL
  ⟨.plain, 0xC, 1, 4, [⟨0, 32, .rc, 0, 0, 4294967296⟩]⟩]  -- DTR_HITCNT

/-- Layout of the DTR block (Table 25.5). -/
def rowsDTR : List RegRow := rowsDTR0

/-- Rows of the GC layout, part 0. -/
def rowsGC0 : List RegRow := [
  ⟨.plain, 0x0, 1, 4, [⟨0, 16, .ro, 2676, 0, 65536⟩, ⟨16, 8, .ro, 0, 0, 256⟩]⟩,  -- ID_DEVICE
  ⟨.plain, 0x4, 1, 4, [⟨0, 1, .ro, 0, 0, 2⟩, ⟨1, 1, .ro, 0, 0, 2⟩]⟩,  -- ID_VARIANT
  ⟨.lo2, 0x8, 1, 4, [⟨0, 32, .ro, 0, 0, 4294967296⟩]⟩,  -- ID_SERIAL_LO
  ⟨.hi, 0xC, 1, 4, [⟨0, 32, .ro, 0, 0, 4294967296⟩]⟩,  -- ID_SERIAL_HI
  ⟨.plain, 0x10, 1, 4, [⟨0, 4, .ro, 0, 0, 16⟩, ⟨4, 4, .ro, 0, 0, 16⟩]⟩,  -- ID_QUARTERS
  ⟨.plain, 0x20, 1, 4, [⟨0, 1, .w1c, 0, 0, 2⟩, ⟨1, 1, .w1c, 0, 0, 2⟩]⟩,  -- GC_ERR
  ⟨.plain, 0x24, 1, 4, [⟨2, 24, .ro, 0, 0, 16777216⟩, ⟨27, 2, .ro, 0, 0, 4⟩, ⟨29, 1, .ro, 0, 0, 2⟩, ⟨31, 1, .ro, 0, 0, 2⟩]⟩,  -- GC_DECODE
  ⟨.plain, 0x28, 1, 4, [⟨0, 32, .rc, 0, 0, 4294967296⟩]⟩,  -- GC_DECODE_CNT
  ⟨.plain, 0x2C, 1, 4, [⟨0, 1, .wo, 0, 0, 2⟩, ⟨16, 16, .wo, 0, 0, 65536⟩]⟩]  -- GC_CMD

/-- Layout of the GC block (Table 27.4). -/
def rowsGC : List RegRow := rowsGC0

/-- The blocks of Tables 27.1 to 27.3, first part. -/
def blocks0 : List Block := [
  ⟨.mp, false, 0x10000, 1, 0x10000, rowsMP⟩,
  ⟨.lq, false, 0x20000, 1, 0x10000, rowsLQ⟩,
  ⟨.fab, true, 0xD0000, 16, 0x1000, rowsFAB⟩,
  ⟨.qc, true, 0x0, 1, 0x10000, rowsQC⟩,
  ⟨.bm, true, 0xC0000, 16, 0x100, rowsBM⟩,
  ⟨.bmrep, true, 0xC8000, 2560, 0x8, rowsBMREP⟩,
  ⟨.pgr, true, 0x90000, 16, 0x1000, rowsPGR⟩,
  ⟨.pch, true, 0x80000, 256, 0x100, rowsPCH⟩,
  ⟨.str, true, 0x60000, 18, 0x400, rowsSTR⟩,
  ⟨.apg, true, 0x68000, 16, 0x40, rowsAPG⟩,
  ⟨.fl, true, 0x70000, 1, 0x10000, rowsFL⟩,
  ⟨.cl, true, 0xA0000, 128, 0x400, rowsCL⟩,
  ⟨.dmc, true, 0x20000, 9, 0x4000, rowsDMC⟩,
  ⟨.dmcmap, true, 0x20000, 1, 0x4000, rowsDMCMAP⟩,
  ⟨.ecc, true, 0x50000, 9, 0x400, rowsECC⟩,
  ⟨.pr, false, 0xC0000, 1, 0x400, rowsPR⟩,
  ⟨.prr, false, 0xC0400, 16, 0x40, rowsPRR⟩,
  ⟨.nocj, true, 0x10000, 64, 0x100, rowsNOCJ⟩,
  ⟨.noc, false, 0x110000, 1, 0x100, rowsNOC⟩,
  ⟨.hif, false, 0x40000, 1, 0x1000, rowsHIF⟩,
  ⟨.ring, false, 0x41000, 256, 0x20, rowsRING⟩]

/-- The blocks of Tables 27.1 to 27.3, second part. -/
def blocks1 : List Block := [
  ⟨.dma, false, 0x50000, 64, 0x100, rowsDMA⟩,
  ⟨.ev, false, 0x30000, 1, 0x10000, rowsEV⟩,
  ⟨.trk, false, 0x70000, 8, 0x1000, rowsTRK⟩,
  ⟨.hy, false, 0x78000, 1, 0x1000, rowsHY⟩,
  ⟨.cw, false, 0x80000, 1, 0x200, rowsCW⟩,
  ⟨.cwm, false, 0x80200, 64, 0x8, rowsCWM⟩,
  ⟨.ws, false, 0x60000, 32, 0x100, rowsWS⟩,
  ⟨.wse, false, 0x60000, 32, 0x100, rowsWSE⟩,
  ⟨.cfg, false, 0x90000, 1, 0x100, rowsCFG⟩,
  ⟨.cfgq, false, 0x90100, 4, 0x10, rowsCFGQ⟩,
  ⟨.rg, true, 0xD0000, 16, 0x1000, rowsRG⟩,
  ⟨.sw, false, 0xA0000, 1, 0x10000, rowsSW⟩,
  ⟨.bist, false, 0xF0000, 1, 0x10000, rowsBIST⟩,
  ⟨.qb, true, 0xF0000, 1, 0x10000, rowsQB⟩,
  ⟨.sec, false, 0xB0000, 1, 0x10000, rowsSEC⟩,
  ⟨.pwr, false, 0xD0000, 1, 0x10000, rowsPWR⟩,
  ⟨.od, false, 0xE0000, 1, 0x10000, rowsOD⟩,
  ⟨.odq, true, 0xE0000, 1, 0x10000, rowsODQ⟩,
  ⟨.dbg, false, 0x100000, 1, 0x800, rowsDBG⟩,
  ⟨.dtr, false, 0x100800, 32, 0x10, rowsDTR⟩,
  ⟨.gc, false, 0x0, 1, 0x10000, rowsGC⟩,
  ⟨.noch, false, 0x110100, 4, 0x100, rowsNOCJ⟩]

/-- Every block of the CSR space (27 R563 to R565). -/
def blocks : List Block := blocks0 ++ blocks1

/-- A CSR address resolved: the register's row, its unit (global: quarter times the units of a quarter, plus the unit) and
its index within the row. -/
structure Found where
  block : BlockId
  unit  : Nat
  idx   : Nat
  row   : RegRow
deriving DecidableEq, Repr

/-- The register of a layout that holds offset `off`, and its index. -/
def rowAt : List RegRow → Nat → Option (RegRow × Nat)
  | [], _ => none
  | r :: rs, off =>
    if r.off ≤ off ∧ (off - r.off) % r.stride = 0 ∧ (off - r.off) / r.stride < r.count then
      some (r, (off - r.off) / r.stride)
    else rowAt rs off

/-- Find offset `o` of quarter `q` (or of the hub) among blocks. -/
def findIn : List Block → Bool → Nat → Nat → Option Found
  | [], _, _, _ => none
  | b :: bs, isQ, q, o =>
    if b.quarter = isQ ∧ b.off ≤ o ∧ o < b.off + b.count * b.stride then
      match rowAt b.rows ((o - b.off) % b.stride) with
      | some (r, i) => some ⟨b.id, q * b.count + (o - b.off) / b.stride, i, r⟩
      | none => findIn bs isQ q o
    else findIn bs isQ q o

/-- 27 R570: the register at a CSR byte address, `none` where it is unassigned. -/
def regFind (a : Nat) : Option Found :=
  if a % 4 ≠ 0 then none
  else if a < 0x02000000 then findIn blocks false 0 a
  else if a < 0x04000000 then
    if (a - 0x02000000) % 0x00800000 < 0x00100000 then
      findIn blocks true ((a - 0x02000000) / 0x00800000) ((a - 0x02000000) % 0x00800000)
    else none
  else none

end Sys2Proof.Machine
end

