-- ==== Sys2Proof/Machine/CsrView.lean ====
section
/-! DEFINITION. Register words as a read sees them (00 R10 to R12, R15): the fields of a register found in the map, and the fields that
show state kept elsewhere. -/

namespace Sys2Proof.Machine

/-- The address the fields of a register are kept under: the four appearances of the extent map are one (11 R283); the window of a pin
group's timing sets stands for the set PGR_TS_SEL names (07 R184). -/
def Chip.home (c : Chip) (f : Found) (a : Nat) : Nat :=
  match f.block with
  | .dmcmap => a - 0x00800000 * f.unit
  | .pgr =>
    let w0 := (PGR_TS_W0.period f.unit).addr
    if w0 ≤ a ∧ a < w0 + 16 then tsBase f.unit (c.fld (PGR_TS_SEL.set f.unit)) + (a - w0) else a
  | _ => a

/-- The reset value of a field where it depends on the unit or the index. -/
def Found.resetOf (f : Found) (r : FieldRow) : Nat :=
  match f.block with
  | .fl => if f.row.off = 0x24 then (FL_BUF_BASE_HI.base_hi f.unit).reset else r.reset
  | .pch => if f.row.off = (PCH_MAP.entries 0 0).addr - pchBase 0 then (PCH_MAP.entries 0 f.idx).reset else r.reset
  | .dmc => if f.row.off = (DMC_SP_CFG.rate 0 0).addr - dmcBase 0 then (DMC_SP_CFG.rate 0 f.idx).reset else r.reset
  | .nocj => if f.row.off ≤ 4 ∧ r.lo = 0 then nocPorts f.unit else r.reset
  | .noch => if f.row.off ≤ 4 ∧ r.lo = 0 then nocPorts (256 + f.unit) else r.reset
  | _ => r.reset

/-- The fields of the register at `a`. -/
def Chip.fieldsAt (c : Chip) (f : Found) (a : Nat) : List (FieldRow × Fld) :=
  f.row.fields.map fun r => (r, ⟨c.home f a, r.lo, r.width, f.resetOf r⟩)

/-- The word a register resets to. -/
def Chip.resetWord (c : Chip) (f : Found) (a : Nat) : Nat :=
  ((c.fieldsAt f a).map fun p => if p.1.acc = .wo then 0 else p.2.reset * 2 ^ p.2.lo).sum

/-- What a read finds in a field (Table 0.4): nothing in a WO field, the active value in a STG field. -/
def Chip.fieldRead (c : Chip) (p : FieldRow × Fld) : Nat :=
  match p.1.acc with
  | .wo => 0
  | .stg => c.act p.2
  | _ => c.fld p.2
/-- The word a register holds; reserved bits read 0 (R12). -/
def Chip.wordAt (c : Chip) (f : Found) (a : Nat) : Nat :=
  ((c.fieldsAt f a).map fun p => c.fieldRead p * 2 ^ p.2.lo).sum

/-- Milepost's counter, rate word and slew (02 Table 2.6). -/
def Chip.showMp (c : Chip) : Chip :=
  let c := c.put3 MP_NOW_LO.now_lo MP_NOW_HI.now_hi MP_NOW_TOP.now_top c.now
  let c := c.put2 MP_RATE_LO.rate_frac MP_RATE_HI.rate_int c.rateWord
  ((c.putS MP_SLEW_REMAIN.remain c.slewRemain).putB MP_STATUS.slewing (decide (c.slewRemain ≠ 0))).putB MP_STATUS.in_tol c.inTol

/-- The queue's depth and next launch, and the groups whose staged values are bad (03 Table 3.10). -/
def Chip.showLq (c : Chip) (f : Found) (a : Nat) : Chip :=
  let c := c.put LQ_STATUS.depth c.lq.entries.length
  let c := c.put3 LQ_NEXT_T_LO.n_lo LQ_NEXT_T_HI.n_hi LQ_NEXT_T_TOP.n_top
    (match c.earliest with | some e => e.t | none => 2 ^ 72)
  if a = (LQ_STG_BAD.bad f.idx).addr then
    c.put (LQ_STG_BAD.bad f.idx) (maskOf ((List.range 32).filter fun i => c.stgBad (32 * f.idx + i)))
  else c

/-- A cluster's state with its clock stopped, and the microcode word CL_UC_ADDR names (10 Table 10.10). -/
def Chip.showCl (c : Chip) (j : Nat) : Chip :=
  let c := c.put2 (CL_UC_DATA_LO.lo j) (CL_UC_DATA_HI.hi j) (Tab.get 0 (c.cl j).ucode (c.fld (CL_UC_ADDR.addr j)))
  if 2 ≤ c.clState j ∧ !c.clClocked j then c.put (CL_STATUS.state j) 5 else c

/-- The error-log entry ECC_LOG_SEL names, and the time in the patrol's lap (12 Table 12.4). -/
def Chip.showEcc (c : Chip) (k : Nat) : Chip :=
  let d := c.ctl k
  let c := c.put (PAT_CUR_LAP.s k) (satN 32 (if c.flag DMC_MAP_STATUS.init_busy then 0 else (c.now - d.lapAt) / (1000 * msMT)))
  match d.log[c.fld (ECC_LOG_SEL.entry k)]? with
  | none => c
  | some e =>
    let c := (c.put2 (ECC_LOG_ADDR_LO.addr_lo k) (ECC_LOG_ADDR_HI.addr_hi k) e.addr).put (ECC_LOG_ADDR_HI.symbols k) e.symbols
    let c := ((c.put (ECC_LOG_ADDR_HI.kind k) e.kind).putB (ECC_LOG_ADDR_HI.patrol k) e.patrol).put (ECC_LOG_ADDR_HI.channel k) e.channel
    ((c.put (ECC_LOG_ADDR_HI.valid k) 1).put (ECC_LOG_SLOT.slot k) e.slot).put2 (ECC_LOG_STAMP_LO.stamp_lo k)
      (ECC_LOG_STAMP_HI.stamp_hi k) e.stamp

/-- The ranges' states, the slots' users, and the alarm-log entry PR_LOG_SEL names (13 Table 13.7). -/
def Chip.showPr (c : Chip) : Chip :=
  let of (p : Nat → Bool) : Nat := maskOf ((List.range 16).filter fun n => p (c.prState n))
  let c := (c.put PR_STATUS.ready (of (· = 2))).put PR_STATUS.busy (of fun st => decide (st = 1) || decide (st = 3))
  let c := c.each (List.range 16) fun c s => c.put (PR_KID.users s) (c.kidUsers s)
  match c.dram.prLog[c.fld PR_LOG_SEL.entry]? with
  | none => c
  | some e =>
    let c := (c.put2 PR_LOG_ADDR_LO.addr_lo PR_LOG_ADDR_HI.addr_hi e.addr).put PR_LOG_ADDR_HI.range e.range
    let c := ((c.put PR_LOG_ADDR_HI.kind e.kind).put PR_LOG_ADDR_HI.level e.level).put PR_LOG_ADDR_HI.valid 1
    c.put2 PR_LOG_STAMP_LO.stamp_lo PR_LOG_STAMP_HI.stamp_hi e.stamp

/-- The table window of HY_TAB_SEL (17 R402). -/
def Chip.showHy (c : Chip) : Chip :=
  let e := c.hyShown
  let c := (c.put2 HY_TAB_SERIAL_LO.lo HY_TAB_SERIAL_HI.hi e.serial).putB HY_TAB_STATE.reserve e.reserve
  ((c.put HY_TAB_STATE.state e.state).put HY_TAB_STATE.epoch e.epoch).putB HY_STATUS.dormant_veto c.trunkVeto

/-- The BIST-log entry BIST_LOG_SEL names (21 Table 21.6). -/
def Chip.showBist (c : Chip) : Chip :=
  match c.bist.log[c.fld BIST_LOG_SEL.entry]? with
  | none => c
  | some e =>
    let c := ((c.put BIST_LOG_UNIT.unit e.unit).put BIST_LOG_UNIT.number e.number).put BIST_LOG_ADDR.addr e.addr
    ((c.put BIST_LOG_BIT.bit e.bit).put BIST_LOG_BIT.repair e.repair).putB BIST_LOG_BIT.slice e.slice |>.put BIST_LOG_BIT.valid 1

/-- The measurement-log slot SEC_LOG_SEL names (22 R486). -/
def Chip.showSec (c : Chip) : Chip :=
  match Tab.get none c.sec.log (c.fld SEC_LOG_SEL.slot) with
  | none => c
  | some e =>
    let c := ((c.put SEC_LOG_INFO.mr e.mr).put SEC_LOG_INFO.source e.source).put SEC_LOG_INFO.region e.region
    let c := (c.put SEC_LOG_INFO.valid 1).each (List.range 12) fun c i => c.put (SEC_LOG_DIGEST.digest i) (e.digest / 2 ^ (32 * i))
    c.put2 SEC_LOG_STAMP_LO.stamp_lo SEC_LOG_STAMP_HI.stamp_hi e.stamp

/-- The debug level, the held access, the trace entry DBG_TRACE_SEL names and the watchdog's time left (25 Table 25.5). -/
def Chip.showDbg (c : Chip) : Chip :=
  let c := (c.put DBG_STATUS.level (c.fld SEC_STATUS.debug)).putB DBG_STATUS.held c.dbg.held.isSome
  let c := c.put WDG_REMAIN.us (c.wdgRemain / usMT)
  match Tab.get none c.dbg.trace (c.fld DBG_TRACE_SEL.entry) with
  | none => c
  | some (op, ack, addr, stamp) =>
    let c := ((c.put DBG_TRACE_INFO.op op).put DBG_TRACE_INFO.ack ack).put DBG_TRACE_INFO.addr (addr / 4)
    c.put2 DBG_TRACE_STAMP_LO.stamp_lo DBG_TRACE_STAMP_HI.stamp_hi stamp

/-- The register file as a read of a block sees it: fields that show state kept elsewhere filled in. -/
def Chip.shown (c : Chip) (f : Found) (a : Nat) : Chip :=
  match f.block with
  | .mp => c.showMp
  | .lq => c.showLq f a
  | .fab => c.putB (FAB_STATUS.reflex_held f.unit) (c.reflexHeld f.unit)
  | .pgr => c.putB (PGR_STATUS.dormant_veto f.unit) (c.denVeto f.unit)
  | .cl => c.showCl f.unit
  | .dmc => c.putB (DMC_PPR_STATUS.avail f.unit) (c.pprAvail f.unit)
  | .ecc => c.showEcc f.unit
  | .pr => c.showPr
  | .hif => c.putB HIF_STATUS.run_veto c.runVeto
  | .hy => c.showHy
  | .cw => c.putB CW_STATUS.dormant_veto c.cwVeto
  | .rg => c.put (RG_KERB_DATA.data f.unit) (Tab.get 0 (c.region f.unit).kerb (c.fld (RG_KERB_SEL.word f.unit)))
  | .sw => c.put SW_CUR_LAP.us c.curLap
  | .bist => c.showBist
  | .sec => c.showSec
  | .pwr => c.put PWR_VETO.rows c.vetoRows
  | .dbg => c.showDbg
  | .gc => c.put ID_QUARTERS.ready (maskOf ((List.range 4).filter fun q => c.flag (QC_STATUS.ready q)))
  | .str | .qc | .bm | .bmrep | .pch | .apg | .fl | .dmcmap | .prr | .nocj | .noc | .ring | .dma | .ev | .trk | .cwm | .ws | .wse
  | .cfg | .cfgq | .qb | .od | .odq | .dtr | .noch => c

/-- The word the register at `a` shows now. -/
def Chip.liveWord (c : Chip) (f : Found) (a : Nat) : Nat := (c.shown f a).wordAt f a
/-- The word shown at an address, 0 where it is unassigned (R14). -/
def Chip.live (c : Chip) (a : Nat) : Nat := match regFind a with | some f => c.liveWord f a | none => 0

/-- The number of a source among the captures (R15). -/
def srcNum : Src → Nat
  | .host => 0
  | .firmware => 1
  | .twivel => 2
/-- The capture a source holds of the word at `a`. -/
def Chip.capture (c : Chip) (src : Src) (a v : Nat) : Chip :=
  { c with csr := { c.csr with caps := Tab.set none c.csr.caps (srcNum src * 2 ^ 26 + a) (some v) } }
/-- The captured word, the register's reset value until the source reads the value's _LO word (R15). -/
def Chip.captured (c : Chip) (src : Src) (f : Found) (a : Nat) : Nat :=
  (Tab.get none c.csr.caps (srcNum src * 2 ^ 26 + a)).getD (c.resetWord f a)

/-- A read of a _LO word captures the words above it for its source (R15, 02 R65). -/
def Chip.captureAll (c : Chip) (src : Src) (f : Found) (a : Nat) : Chip :=
  match f.row.kind with
  | .lo2 => c.capture src (a + 4) (c.live (a + 4))
  | .lo3 => (c.capture src (a + 4) (c.live (a + 4))).capture src (a + 8) (c.live (a + 8))
  | .plain | .mid | .hi | .top => c

/-- The number and end of a Waystation end register (19 Table 19.3). -/
def wsEnd (f : Found) (a : Nat) : Nat × Nat := (f.unit, (a % 0x100) / 0x40 - 1)

/-- What a read returns without its side effects (25 R533): the capture of a word above _LO; a lock's owner as no party reads it. -/
def Chip.peekWord (c : Chip) (src : Src) (f : Found) (a : Nat) : Nat :=
  match f.row.kind with
  | .hi | .mid | .top => c.captured src f a
  | .plain | .lo2 | .lo3 =>
    match f.block with
    | .cl => if a = (CL_LM_DATA.data f.unit).addr then c.lmPeek f.unit else c.liveWord f a
    | .ws => if a = (WS_LOCK.lock f.unit).addr then c.wsLockValue f.unit (99, 0) else c.liveWord f a
    | .wse =>
      let (n, x) := wsEnd f a
      if a = (WS_RXDATA.word n x).addr then c.wsPeek n x else c.liveWord f a
    | _ => c.liveWord f a

/-- What a read returns: of a lock, to the party that reads (19 R431). -/
def Chip.readWord (c : Chip) (src : Src) (f : Found) (a : Nat) : Nat :=
  if f.block = .ws ∧ a = (WS_LOCK.lock f.unit).addr then c.wsLockValue f.unit (partyOf src) else c.peekWord src f a

/-- The RC fields of the register clear (Table 0.4). -/
def Chip.clearRc (c : Chip) (f : Found) (a : Nat) : Chip :=
  c.each (c.fieldsAt f a) fun c p => if p.1.acc = .rc then c.readClear p.2 else c

/-- The side effects of a read: captures, RC fields, and those of the registers that have their own. -/
def Chip.readEffect (c : Chip) (src : Src) (f : Found) (a : Nat) : Chip :=
  let c := (c.captureAll src f a).clearRc f a
  match f.block with
  | .cl => if a = (CL_LM_DATA.data f.unit).addr then c.lmRead f.unit else c
  | .ecc => if a = (ECC_CE_CNT.count f.unit).addr then c.put (ECC_FIRST_CE_HI.valid f.unit) 0 else c
  | .sw => if a = SW_CE_CNT.count.addr then c.put SW_FIRST_INFO.valid 0 else c
  | .ws => if a = (WS_LOCK.lock f.unit).addr then c.wsLockRead f.unit (partyOf src) else c
  | .wse =>
    let (n, x) := wsEnd f a
    if a = (WS_RXDATA.word n x).addr then c.wsRead n x else c
  | _ => c

end Sys2Proof.Machine
end

