-- ==== Sys2Proof/Machine/CsrAct.lean ====
section
/-! DEFINITION. What the write of a register does beside, or in place of, setting its fields: the commands and the registers with a
rule of their own, block by block. A command register with several bits set acts on them lowest bit first. -/

namespace Sys2Proof.Machine

/-- A W1C write of a bit that a record's valid bit follows. -/
def Chip.dropValid (c : Chip) (clear : Bool) (f : Fld) : Chip := c.doIf clear (·.put f 0)

/-- Milepost (02 Table 2.6). -/
def Chip.actMp (c : Chip) (a v : Nat) : Option Chip :=
  if a = MP_CTRL.en.addr then some (c.mpCtrlWrite v)
  else if a = MP_UPSTREAM.trunk.addr then some (c.setUpstream (MP_UPSTREAM.trunk.of v) (MP_UPSTREAM.valid.of v))
  else if a = MP_CMD.set.addr then some ((c.doIf (bit v 0) (·.mpSet)).doIf (bit v 1) (·.resync))
  else none

/-- The launch queue (03 Table 3.10). -/
def Chip.actLq (c : Chip) (x : CsrEnv) (a v : Nat) : Option Chip :=
  if a = LQ_NEW_PUSH.push.addr then some (c.doIf (bit v 0) (·.lqPush))
  else if a = LQ_CANCEL.id.addr then some (c.lqCancel v)
  else if a = LQ_CTRL.en.addr then some (c.lqCtrlWrite v)
  else if a = LQ_SUM_COUNT.count.addr then
    let n := LQ_SUM_COUNT.count.of v
    some (c.putLegal LQ_SUM_COUNT.count LQ_ERR.bad_value (decide (n = 0) || (List.range 17).any fun k => decide (n = 2 ^ k)) n)
  else if a = LQ_CMD.commit_now.addr then
    some (((c.doIf (bit v 0) (·.commit (bits v 4 4) true)).doIf (bit v 8) (·.abortNow)).doIf (bit v 9)
      (·.crossingNow x.ls x.cals x.resp))
  else none

/-- Quarter control but for the quarter reset (05 Table 5.4). -/
def Chip.actQc (c : Chip) (q i a v : Nat) : Option Chip :=
  if a = (QC_CMD.quarter_reset q).addr then
    some ((((c.doIf (bit v 1) (·.clkRestart q)).doIf (bit v 2) (·.capNow q)).doIf (bit v 3) (·.capFree q)).doIf (bit v 4)
      (·.capResume q))
  else if a = (QC_CPLL_CFG.n q i).addr then some (c.cpllWrite q i v)
  else if a = (QC_GCK_SEL.src q i).addr then some (c.gckWrite q i v)
  else none

/-- Block memory (06 Table 6.4). -/
def Chip.actBm (c : Chip) (r a v : Nat) : Option Chip :=
  if a = (BM_CMD.clear_block r).addr then
    some ((c.doIf (bit v 0) (·.clearBlock r (bits v 8 8))).doIf (bit v 1) (·.clearFirst r))
  else none

/-- Pin groups (07 Table 7.9). -/
def Chip.actPgr (c : Chip) (g a v : Nat) : Option Chip :=
  if a = (PGR_CTRL.enable g).addr then some (c.pgrCtrlWrite g v)
  else if a = (PGR_CMD.to_idle g).addr then some ((c.doIf (bit v 0) (·.cmdToIdle g)).doIf (bit v 1) (·.calNow g))
  else none

/-- Streamers and APG ports (08 Tables 8.12, 8.14). -/
def Chip.actStr (c : Chip) (n a v : Nat) : Option Chip :=
  if a = (STR_CMD.reprime n).addr then some (c.doIf (bit v 0) (·.strReprime n)) else none
def Chip.actApg (c : Chip) (g a v : Nat) : Option Chip :=
  if a = (APG_CTRL.gck g).addr then some (c.apgCtrlWrite g false v)
  else if a = (APG_STEP.step g).addr then some (c.apgCtrlWrite g true v)
  else none

/-- Clusters (10 Table 10.10, R252, R253). -/
def Chip.actCl (c : Chip) (j a v : Nat) : Option Chip :=
  let off := a - clBase j
  if a = (CL_CMD.start j).addr then
    some (((((c.doIf (bit v 0) (·.clStart j)).doIf (bit v 1) (·.clResume j)).doIf (bit v 2) (·.clStop j)).doIf (bit v 3)
      (·.clLoad j)).doIf (bit v 4) (·.clPend j 0))
  else if a = (CL_LM_DATA.data j).addr then some (c.lmWrite j v)
  else if off = 0 ∨ (0x100 ≤ off ∧ off < 0x140) ∨ (0x200 ≤ off ∧ off < 0x380) then some (c.clRegWrite j off v)
  else none

/-- DRAM controllers and the extent map (11 Tables 11.9, 11.10). -/
def Chip.actDmc (c : Chip) (k i a v : Nat) : Option Chip :=
  if a = (DMC_CMD.retrain k).addr then some ((c.doIf (bit v 0) (·.retrain k)).doIf (bit v 1) (·.pprStart k))
  else if a = (DMC_SP_CFG.rate k i).addr then some (c.spCfgWrite k i v)
  else none
def Chip.actMap (c : Chip) (q a v : Nat) : Option Chip :=
  if a = DMC_MAP_CMD.apply.addr + 0x00800000 * q then some (c.doIf (bit v 0) (·.mapApply q)) else none

/-- Protected ranges (13 Table 13.7). -/
def Chip.actPr (c : Chip) (a v : Nat) : Option Chip :=
  if a = PR_KID_CMD.slot.addr then
    some ((c.doIf (bit v 12) (·.kidActivate (bits v 0 4) (bits v 4 8))).doIf (bit v 13) (·.kidRetire (bits v 0 4)))
  else if a = PR_CMD_LOG.clear_log.addr then some (c.doIf (bit v 0) (·.prClearLog))
  else none
def Chip.actPrr (c : Chip) (n a v : Nat) : Option Chip :=
  if a = (PR_CMD.zeroise n).addr then some ((c.doIf (bit v 0) (·.zeroise n)).doIf (bit v 1) (·.rekey n (bits v 4 4))) else none

/-- Junctions (14 Table 14.9): the bits of absent ports are reserved. -/
def Chip.actNoc (c : Chip) (j a v : Nat) : Option Chip :=
  if a = (NOC_JSHADOW.port_en j).addr then
    some ((c.put (NOC_JSHADOW.port_en j) (v &&& nocPorts j)).put (NOC_JSHADOW.vc3_share j) ((NOC_JSHADOW.vc3_share j).of v))
  else if a = (NOC_JCMD.swap j).addr then some (c.doIf (bit v 0) (·.swap j))
  else none

/-- Rings (15 R350): nothing of an enabled ring's base changes. -/
def Chip.actRing (c : Chip) (r a v : Nat) : Option Chip :=
  if a = (RING_CFG.kind r).addr then some (c.ringCfgWrite r v)
  else if a = (RING_BASE_LO.base_lo r).addr then some (if c.ringOn r then c.put (RING_ERR.bad_value r) 1 else c.hold a v)
  else if a = (RING_BASE_HI.base_hi r).addr then
    some (if c.ringOn r then c.put (RING_ERR.bad_value r) 1
      else (c.ringBaseWrite r false (c.heldWord (RING_BASE_LO.base_lo r).addr 0)).ringBaseWrite r true v)
  else none

/-- DMA channels (15 Table 15.11). -/
def Chip.actDma (c : Chip) (n a v : Nat) : Option Chip :=
  if a = (DMA_CTRL.en n).addr then some (c.dmaCtrl n v)
  else if a = (DMA_CMD.abort n).addr then
    some ((((c.doIf (bit v 0) (·.dmaAbort n)).doIf (bit v 1) (·.dmaRestart n)).doIf (bit v 2) (·.dmaSkip n)).doIf (bit v 3)
      (·.t2Start n))
  else none

/-- The event router and the MSI-X table (16 Table 16.4). -/
def Chip.actEv (c : Chip) (i a v : Nat) : Option Chip :=
  if a = (EV_ROUTE.vector i).addr then some (c.evRouteWrite i v)
  else if a = (MSIX_CTL.masked i).addr then some (c.msixSet (.vector (Fin.ofNat 2048 i) (bit v 0)))
  else if a = (MSIX_ADDR_LO.addr_lo i).addr then some (c.put (MSIX_ADDR_LO.addr_lo i) (v / 4 * 4))
  else none

/-- Trunk ports and the hierarchy (17 Tables 17.7, 17.9). -/
def Chip.actTrk (c : Chip) (x : CsrEnv) (u a v : Nat) : Option Chip :=
  if a = (TRK_CTRL.en u).addr then some (c.trkCtrlWrite u v)
  else if a = (TRK_CMD.retrain u).addr then
    some ((((c.doIf (bit v 0) (·.trkRetrain u)).doIf (bit v 1) (·.testStart u)).doIf (bit v 2)
      (·.testStop u x.errs x.compared)).doIf (bit v 3) (·.inject u))
  else none
def Chip.actHy (c : Chip) (a v : Nat) : Option Chip :=
  if a = HY_CTRL.manager.addr then some (c.hyCtrlWrite v)
  else if a = HY_SELF.tile.addr then some (c.doIf c.isManager (·.put HY_SELF.tile (HY_SELF.tile.of v)))
  else if a = HY_TAB_SERIAL_LO.lo.addr then some (c.hyTabWrite 0 v)
  else if a = HY_TAB_SERIAL_HI.hi.addr then some (c.hyTabWrite 1 v)
  else if a = HY_TAB_STATE.reserve.addr then some (c.hyTabWrite 2 v)
  else none

/-- The Causeway port (18 Table 18.6). -/
def Chip.actCw (c : Chip) (a v : Nat) : Option Chip :=
  if a = CW_CMD.tx_reset.addr then some ((c.doIf (bit v 0) (·.cwTxReset)).doIf (bit v 1) (·.cwExit))
  else if a = CW_TX_PUSH.prio.addr then some (c.cwPush v)
  else none
def Chip.actCwm (c : Chip) (m a v : Nat) : Option Chip :=
  if a = (CW_MEMBER.tile m).addr then some (c.cwMemberWrite m 0 v) else some (c.cwMemberWrite m 1 v)

/-- Waystations: registers of the Waystation, and of an end, which only the party bound to it writes (19 R423). -/
def Chip.actWs (c : Chip) (src : Src) (n a v : Nat) : Option Chip :=
  if a = (WS_CFG.en n).addr then some (c.wsCfgWrite n v)
  else if a = (WS_LOCK.lock n).addr then some (c.wsLockWrite n (partyOf src) v)
  else if a = (WS_CMD.lock_break n).addr then
    some ((c.doIf (bit v 0) (·.wsBreak n)).doIf (bit v 1) (·.wsFlush n (partyOf src)))
  else none
def Chip.actWse (c : Chip) (src : Src) (n x a v : Nat) : Option Chip :=
  if !c.wsAllowed n x src then some (c.put (WS_ERR.refused n) 1)
  else if a = (WS_TX.word n x).addr then some (c.wsTx n x src v)
  else if a = (WS_SEND.bells n x).addr then some (c.wsSend n x src v)
  else if a = (WS_CTRL.wait n x).addr then
    some (((c.put (WS_CTRL.wait n x) (v % 2)).put (WS_CTRL.empty_irq_en n x) (v / 2)).wsShow n)
  else none

/-- Configuration (20 Table 20.9). -/
def Chip.actCfg (c : Chip) (a v : Nat) : Option Chip :=
  if a = CFG_CMD.load.addr then
    some (((c.doIf (bit v 0) (·.cfgLoad)).doIf (bit v 1) (·.cfgAbort (bits v 4 2) 17)).doIf (bit v 2) (·.cfgReadback))
  else none

/-- Sweeper and BIST (21 Tables 21.5, 21.6). -/
def Chip.actSw (c : Chip) (a v : Nat) : Option Chip :=
  if a = SW_CTRL.en.addr then some (c.swCtrlWrite v)
  else if a = SW_CMD.restart_lap.addr then some ((c.doIf (bit v 0) (·.swRestart)).doIf (bit v 1) (·.clearSuspect))
  else none
def Chip.actBist (c : Chip) (a v : Nat) : Option Chip :=
  if a = BIST_CMD.slice.addr then
    some ((((c.doIf (bit v 0) (·.bistSlice)).doIf (bit v 1) (·.dramFull)).doIf (bit v 2) (·.pprApply)).doIf (bit v 3) (·.bistClear))
  else none

/-- Security (22 Table 22.5). -/
def Chip.actSec (c : Chip) (x : CsrEnv) (a v : Nat) : Option Chip :=
  if a = SEC_CMD.extend.addr then
    some (((((c.doIf (bit v 0) (·.secExtend)).doIf (bit v 1) (·.unlock x.sigOk)).doIf (bit v 2) (·.relock)).doIf (bit v 3)
      (·.newChallenge x.nonce)).doIf (bit v 4) (·.recover x.check.val x.header x.body x.config))
  else none

/-- Power (23 Table 23.9): qmax with code 3 for a quarter, and a critical temperature below the warning, are reserved. -/
def Chip.actPwr (c : Chip) (x : CsrEnv) (a v : Nat) : Option Chip :=
  if a = PWR_CMD.wake_now.addr then
    some ((((c.doIf (bit v 0) (·.wakeNow)).doIf (bit v 1) (·.sealNow x.ls)).doIf (bit v 2) (·.restoreStart)).doIf (bit v 3)
      (·.vaultRelease))
  else if a = PWR_CTRL.signpost_en.addr then
    let q := PWR_CTRL.qmax.of v
    let c := (c.put PWR_CTRL.signpost_en v).putLegal PWR_CTRL.max_state PWR_ERR.bad_value (PWR_CTRL.max_state.of v < 5)
      (PWR_CTRL.max_state.of v)
    some (c.putLegal PWR_CTRL.qmax PWR_ERR.bad_value ((List.range 4).all fun i => bits q (2 * i) 2 ≠ 3) q)
  else if a = PWR_TEMP_CRIT.crit.addr then
    some (c.putLegal PWR_TEMP_CRIT.crit PWR_ERR.bad_value (c.fldS PWR_TEMP_WARN.warn ≤ signedOf 16 v) v)
  else none

/-- Odometer (24 Table 24.3). -/
def Chip.actOd (c : Chip) (a v : Nat) : Option Chip :=
  if a = OD_CMD.measure_now.addr then some (c.each ((List.range 4).filter fun q => bit v q) (·.measureNow ·)) else none

/-- Debug, watchdog and Detours (25 Table 25.5). -/
def Chip.actDbg (c : Chip) (src : Src) (x : CsrEnv) (a v : Nat) : Option Chip :=
  if a = DBG_CMD.halt_core.addr then
    let j := c.fld DBG_CL_SEL.cluster
    let c := ((c.doIf (bit v 0) (·.haltCore)).doIf (bit v 1) (·.resumeCore)).doIf (bit v 2) (·.stepCore x.pc.toNat)
    some ((((c.doIf (bit v 3) (·.haltCl j)).doIf (bit v 4) (·.clResume j)).doIf (bit v 5) (·.stepCl j)).doIf (bit v 6) (·.sdReset))
  else if a = WDG_CTRL.en.addr then some (c.wdgCtrlWrite v)
  else if a = WDG_KICK.kick.addr then some (c.wdgKick src)
  else none
def Chip.actDtr (c : Chip) (src : Src) (d a v : Nat) : Option Chip := some (c.dtrWrite src d ((a - (DTR_ADDR.addr d).addr) / 4) v)

/-- The registers whose write is an action or has a rule of its own; `none` for every other. -/
def Chip.csrAct (c : Chip) (src : Src) (x : CsrEnv) (f : Found) (a v : Nat) : Option Chip :=
  let u := f.unit
  match f.block with
  | .mp => c.actMp a v
  | .lq => c.actLq x a v
  | .fab => if a = (FAB_CMD.clear_flags u).addr then some (c.clearFlags u (bits v 0 4)) else none
  | .qc => c.actQc u f.idx a v
  | .bm => c.actBm u a v
  | .bmrep => some (c.bmRepair u v (decide (a = (BM_COLREP.col0 u).addr)))
  | .pgr => c.actPgr u a v
  | .str => c.actStr u a v
  | .apg => c.actApg u a v
  | .fl =>
    if a = (FL_CMD.harvest_all u).addr then some (c.doIf (bit v 0) fun c => (c.flDue u fun _ => true).flJudge u)
    else if a = (FL_ACK_PTR_HI.ack_hi u).addr then
      some (c.flAckWrite u (c.heldWord (FL_ACK_PTR_LO.ack_lo u).addr 0 + 2 ^ 32 * v))
    else none
  | .cl => c.actCl u a v
  | .dmc => c.actDmc u f.idx a v
  | .dmcmap => c.actMap u a v
  | .ecc => if a = (ECC_CMD.clear_log u).addr then some (c.doIf (bit v 0) (·.eccClear u)) else none
  | .pr => c.actPr a v
  | .prr => c.actPrr u a v
  | .nocj => c.actNoc u a v
  | .noch => c.actNoc (256 + u) a v
  | .ring => c.actRing u a v
  | .dma => c.actDma u a v
  | .ev => c.actEv f.idx a v
  | .trk => c.actTrk x u a v
  | .hy => c.actHy a v
  | .cw => c.actCw a v
  | .cwm => c.actCwm u a v
  | .ws => c.actWs src u a v
  | .wse => c.actWse src u (wsEnd f a).2 a v
  | .cfg => c.actCfg a v
  | .sw => c.actSw a v
  | .bist => c.actBist a v
  | .sec => c.actSec x a v
  | .pwr => c.actPwr x a v
  | .od => c.actOd a v
  | .dbg => c.actDbg src x a v
  | .dtr => c.actDtr src u a v
  | .pch | .hif | .noc | .cfgq | .rg | .qb | .odq | .gc => none

/-- What follows a write that set a register's fields: levels, tolerance and records that depend on them. -/
def Chip.csrAfter (c : Chip) (f : Found) (a : Nat) : Chip :=
  let u := f.unit
  match f.block with
  | .mp => c.doIf (decide (a = MP_ALIGN_LIMIT.limit.addr)) (·.judgeTol)
  | .lq => c.lqRefresh
  | .fab => c.dropValid (!c.flag (FAB_ERR.match_parity u)) (FAB_MATCH_PERR.valid u)
  | .pgr => c.doIf (decide (a = (PGR_ABORT.inhibit u).addr)) (·.showInhibit u)
  | .pch =>
    if a = (PCH_CTRL.idle u).addr then
      let st := c.gstate (u / 16)
      if st = 1 ∨ st = 2 then c.present u (idleCode c u) c.now
      else if st = 4 then c.present u (abortCode c u) c.now
      else c
    else c
  | .str =>
    let r := c.fld (STR_FAULT_RESP.resp u)
    let e := if r = 3 then STR_ERR.poison u else if r = 0 then STR_ERR.taint u else STR_ERR.fetch_err u
    (c.dropValid (!c.flag (STR_ERR.prog_err u)) (STR_PROG_ERR.valid u)).dropValid (!c.flag e) (STR_FAULT_HI.valid u)
  | .fl => c.dropValid (!c.flag (FL_ERR.bm_write u) && !c.flag (FL_ERR.buf_write u) && !c.flag (FL_ERR.harvest_poison u))
      (FL_FAULT_HI.valid u)
  | .cl => c.dropValid (!c.flag (CL_ERR.xfer_err u) && !c.flag (CL_ERR.ucode_load u)) (CL_FAULT_HI.valid u)
  | .pr => c.dropValid (!c.flag PR_ERR.tollgate) PR_TG_LAST_HI.valid
  | .noc => c.dropValid (!c.flag NOC_ERR.timeout) NOC_TIMEOUT_LAST.valid
  | .hif => c.dropValid (!c.flag HIF_ERR.bar2_denied && !c.flag HIF_ERR.bar2_timeout && !c.flag HIF_ERR.bar2_poison)
      HIF_BAR2_LAST_HI.valid
  | .dma => c.dropValid (!c.flag (DMA_ERR.halted u)) (DMA_FAULT_HI.valid u)
  | .gc => c.dropValid (!c.flag GC_ERR.decode) GC_DECODE.valid
  | _ => c

/-- The bit a reserved code sets (R13). -/
def badBit (f : Found) : Option Fld :=
  let u := f.unit
  match f.block with
  | .mp => some MP_ERR.bad_value
  | .lq => some LQ_ERR.bad_value
  | .qc => some (QC_CLK_ERR.bad_value u)
  | .bm => some (BM_RERR.bad_value u)
  | .bmrep => some (BM_RERR.bad_value (u / 160))
  | .pgr => some (PGR_ERR.bad_value u)
  | .pch => some (PCH_ERR.bad_value u)
  | .str => some (STR_ERR.bad_value u)
  | .apg => some (APG_ERR.bad_value u)
  | .fl => some (FL_ERR.bad_value u)
  | .cl => some (CL_ERR.bad_value u)
  | .dmc => some (DMC_ERR.bad_value u)
  | .dmcmap => some (DMC_ERR.bad_value (9 * u))
  | .ecc => some (ECC_ERR.bad_value u)
  | .pr | .prr => some PR_ERR.bad_value
  | .nocj => some (NOC_JERR.bad_value u)
  | .noch => some (NOC_JERR.bad_value (256 + u))
  | .noc => some NOC_ERR.bad_value
  | .hif => some HIF_ERR.bad_value
  | .ring => some (RING_ERR.bad_value u)
  | .dma => some (DMA_ERR.bad_value u)
  | .ev => some EV_ERR.bad_value
  | .trk => some (TRK_ERR.bad_value u)
  | .hy => some HY_ERR.bad_value
  | .cw | .cwm => some CW_ERR.bad_value
  | .ws | .wse => some (WS_ERR.bad_value u)
  | .cfg | .cfgq => some CFG_ERR.bad_value
  | .sw => some SW_ERR.bad_value
  | .bist => some BIST_ERR.bad_value
  | .sec => some SEC_ERR.bad_value
  | .pwr => some PWR_ERR.bad_value
  | .od => some OD_ERR.bad_value
  | .dbg | .dtr => some DBG_ERR.bad_value
  | .gc => some GC_ERR.bad_value
  | .fab | .rg | .qb | .odq => none

/-- A write of one field by its access type (R11, R13): a reserved code is not taken. -/
def Chip.writeField (c : Chip) (f : Found) (v : Nat) (p : FieldRow × Fld) : Chip :=
  let x := p.2.of v
  let ok := decide (p.1.least ≤ x) && decide (x < p.1.legal)
  let refuse (c : Chip) : Chip := match badBit f with | some b => c.put b 1 | none => c
  match p.1.acc with
  | .rw => if ok then c.put p.2 x else refuse c
  | .stg => if ok then c.putStg p.2 x else refuse c
  | .wo => c.put p.2 x
  | .w1c => c.w1c p.2 v
  | .w1s => c.w1s p.2 v
  | .ro | .rc => c
/-- A write of every field of a register. -/
def Chip.writeFields (c : Chip) (f : Found) (a v : Nat) : Chip := c.each (c.fieldsAt f a) fun c p => c.writeField f v p

/-- A held word takes effect with the last word of its value (R15, 02 R65). -/
def Chip.applyHeld (c : Chip) (a : Nat) : Chip :=
  match regFind a with
  | some f => c.writeFields f a (c.heldWord a (c.resetWord f a))
  | none => c

/-- A write of a register found in the map. -/
def Chip.csrWrite (c : Chip) (src : Src) (x : CsrEnv) (f : Found) (a v : Nat) : Chip :=
  match c.csrAct src x f a v with
  | some c => c
  | none =>
    match f.row.kind with
    | .plain => (c.writeFields f a v).csrAfter f a
    | .lo2 | .lo3 | .mid => c.hold a v
    | .hi => ((c.applyHeld (a - 4)).writeFields f a v).csrAfter f a
    | .top => (((c.applyHeld (a - 8)).applyHeld (a - 4)).writeFields f a v).csrAfter f a

end Sys2Proof.Machine
end

