-- ==== Sys2Proof/Machine/Csr.lean ====
section
/-! DEFINITION. CSR accesses: what answers them, decode errors, accesses that wait for a wake, and the commands of a register access
(00 R10 to R15, 14 R336 and R339, 27 R566 to R570). -/

namespace Sys2Proof.Machine

/-- What an access meets on its way: its register, a loss (R336), the wait of a sleeping domain (R339, R566), or a tile that is off. -/
inductive Gate where
  | open | lost | wait | off
deriving DecidableEq, Repr

/-- The quarter whose endpoint answers an address, none for the hub (27 R565, R570). -/
def csrQuarter (a : Nat) : Option Nat := if a < 0x02000000 then none else some ((a - 0x02000000) / 0x00800000)

/-- R336, R339, R566. -/
def Chip.csrGate (c : Chip) (src : Src) (a : Nat) : Gate :=
  if c.fld PWR_STATUS.state = 4 then .off
  else if c.fld PWR_STATUS.state = 3 then (if src = .host then .wait else .off)
  else
    match csrQuarter a with
    | none => .open
    | some q =>
      if 4 ≤ q then .open
      else if c.offline q ∨ c.portState (64 * q + 63) 5 ≠ 0 then .lost
      else if c.qstate q ≠ 0 then .wait
      else .open

/-- The domain an access that waits wakes: its quarter, or the tile. -/
def Chip.csrDomain (c : Chip) (a : Nat) : Nat := if c.tileUp then (csrQuarter a).getD 4 else 4

/-- A decode error (R14, R568): kept while no record is, counted always. Kinds: 1 a read, 2 a write, of an unassigned offset; 3 a write
whose byte enables are not all set. -/
def Chip.decodeErr (c : Chip) (src : Src) (kind a : Nat) : Chip :=
  let c :=
    if c.flag GC_DECODE.valid then c
    else
      ((c.put GC_DECODE.offset (a / 4)).put GC_DECODE.kind kind).putB GC_DECODE.debug (decide (src = .twivel)) |>.put GC_DECODE.valid 1
  let word := c.fld GC_DECODE.offset * 4 + c.fld GC_DECODE.kind * 2 ^ 27 + c.fld GC_DECODE.debug * 2 ^ 29 + 2 ^ 31
  (c.incSat GC_DECODE_CNT.count).errEvt GC_ERR.decode 10 0 [word]

/-- Bits drawn before a read of cluster local memory (10 R235, R253). -/
def Chip.csrUpset (c : Chip) (x : CsrEnv) (f : Found) (a : Nat) : Chip :=
  if f.block = .cl ∧ a = (CL_LM_DATA.data f.unit).addr then c.lmUpset f.unit [(c.lmAt f.unit).1] [x.flips] else c
/-- A read that its endpoint serves: the value, and the machine after it. -/
def Chip.csrRead (c : Chip) (src : Src) (x : CsrEnv) (a : Nat) : Chip × Nat :=
  match regFind a with
  | some f => let c := c.csrUpset x f a; (c.readEffect src f a, c.readWord src f a)
  | none => (c.decodeErr src 1 a, 0)
/-- A write that its endpoint serves. The two resets act on the DRAM too. -/
def State.csrStore (s : State) (src : Src) (x : CsrEnv) (a v : Nat) : State :=
  match regFind a with
  | none => s.upd (·.decodeErr src 2 a)
  | some f =>
    if a = GC_CMD.tile_reset.addr then s.gcCmdWrite v x.boot
    else
      let s := if f.block = .qc ∧ a = (QC_CMD.quarter_reset f.unit).addr ∧ bit v 0 then s.quarterReset f.unit else s
      s.upd (·.csrWrite src x f a v)

/-- An access served at its endpoint. -/
def State.csrServed (s : State) (w : CsrWait) : State :=
  match w.data with
  | some v => s.csrStore w.src w.env w.addr v
  | none => s.upd fun c => let r := c.csrRead w.src w.env w.addr; r.1.emit (.csr w.src w.addr r.2)
/-- An access answered CLOSED (R336): a read returns 0, a write is lost. -/
def Chip.csrLost (c : Chip) (w : CsrWait) : Chip :=
  let c := c.doIf (decide (w.src = .host)) (·.put NOC_ERR.csr_closed 1)
  if w.data.isNone then c.emit (.csr w.src w.addr 0) else c
/-- An access waits (R339, 23 R500): its domain wakes with cause 3. -/
def Chip.csrPark (c : Chip) (w : CsrWait) : Chip :=
  let dom := c.csrDomain w.addr
  let c := if c.pwr.waking.contains dom then c else c.startWake dom 3
  let c := if dom < 4 then c.stir dom else c
  { c with csr := { c.csr with waiting := c.csr.waiting ++ [w] } }
/-- An access on its way. -/
def State.csrAccess (s : State) (w : CsrWait) : State :=
  match s.chip.csrGate w.src w.addr with
  | .open => s.csrServed w
  | .lost => s.upd (·.csrLost w)
  | .wait => s.upd (·.csrPark w)
  | .off => s
/-- Accesses that waited go on, in the order they came. -/
def State.csrServe (s : State) : State :=
  let ws := s.chip.csr.waiting
  (s.upd fun c => { c with csr := { c.csr with waiting := [] } }).each ws fun s w => s.csrAccess w

/-- The byte address of a word of the CSR space. -/
def csrAddr (a : BitVec 24) : Nat := 4 * a.toNat

/-- REGISTER_WRITE (R11): the fields take the written bits by their access types. -/
def execRegisterWrite (a : BitVec 24) (src : Src) (v : Word) (x : CsrEnv) (s : State) : Res :=
  .next (s.csrAccess ⟨src, csrAddr a, some v.toNat, x⟩)
/-- HI_WRITE_APPLY (R15): the whole value takes effect with the held word. -/
def execHiWriteApply (a : BitVec 24) (src : Src) (v : Word) (x : CsrEnv) (s : State) : Res :=
  .next (s.csrAccess ⟨src, csrAddr a, some v.toNat, x⟩)
/-- TOP_WRITE_APPLY (02 R65). -/
def execTopWriteApply (a : BitVec 24) (src : Src) (v : Word) (x : CsrEnv) (s : State) : Res :=
  .next (s.csrAccess ⟨src, csrAddr a, some v.toNat, x⟩)
/-- LO_READ_CAPTURE (R15): the words above are captured for the reader. -/
def execLoReadCapture (a : BitVec 24) (src : Src) (x : CsrEnv) (s : State) : Res :=
  .next (s.csrAccess ⟨src, csrAddr a, none, x⟩)
/-- RC_READ (R11): the value is returned, and the RC fields clear. -/
def execRcRead (a : BitVec 24) (src : Src) (x : CsrEnv) (s : State) : Res :=
  .next (s.csrAccess ⟨src, csrAddr a, none, x⟩)
/-- UNASSIGNED_ACCESS (R14): a read of, or a write to, an unassigned offset, and a write with a byte enable clear, which is discarded.
A read of an assigned offset and a whole write of one are none. -/
def Chip.strayAccess (c : Chip) (a : Nat) (src : Src) (w : Option (Word × BitVec 4)) : Chip :=
  if c.csrGate src a ≠ .open then c
  else
    match w with
    | none => if (regFind a).isNone then (c.decodeErr src 1 a).emit (.csr src a 0) else c
    | some (_, be) =>
      if (regFind a).isNone then c.decodeErr src 2 a
      else if be.toNat ≠ 15 then c.decodeErr src 3 a
      else c
/-- UNASSIGNED_ACCESS (R14). -/
def execUnassignedAccess (a : BitVec 24) (src : Src) (w : Option (Word × BitVec 4)) (s : State) : Res :=
  s.on (·.strayAccess (csrAddr a) src w)

/-- QUARTER_RELEASE (05 R138): the quarter's endpoint answers again. -/
def execQuarterRelease (q : Fin 4) (s : State) : Res := .next (s.upd (·.quarterRelease q.val)).csrServe
/-- WAKE_DONE (23 R497): accesses that waited for the wake are served. -/
def execWakeDone (dom : Fin 5) (cals : List GroupCal) (x : PowerUp) (s : State) : Res :=
  .next (s.upd (·.wakeDone dom.val cals x)).csrServe

end Sys2Proof.Machine
end

