-- ==== Sys2Proof/Machine/Twivel.lean ====
section
/-! DEFINITION. The Twivel port (25 R528 to R534, Tables 25.1 to 25.4): frames, the held access, the trace ring. -/

namespace Sys2Proof.Machine

/-- Numbers of the frame operations (Table 25.1). -/
def twvPeek : Nat := 0
def twvTake : Nat := 1
def twvWrite : Nat := 2

/-- What the port may reach at the present debug level (Table 25.3): in LOCKED the debug block and the security registers a challenge
needs; of DBG_CMD, below FULL, no bit but sd_reset. -/
def Chip.twvAllowed (c : Chip) (op a v : Nat) : Bool :=
  let level := c.fld SEC_STATUS.debug
  let among (l : List Fld) : Bool := l.any fun f => decide (f.addr = a)
  if 2 ≤ level then true
  else if op = twvPeek then
    decide (level = 1) || decide (0x00100000 ≤ a ∧ a < 0x00101000) ||
      among (SEC_STATUS.debug :: (List.range 8).map SEC_DBG_CHAL.nonce)
  else
    among ([DBG_CTRL.max_wait, DBG_ERR.fault, DBG_TRACE_SEL.entry, SEC_DBG_LEVEL.level, SEC_CMD.extend] ++
      (List.range 24).map SEC_DBG_RESP.sig) ||
      (decide (a = DBG_CMD.halt_core.addr) && (decide (op = twvTake) || decide (v = 64 ∨ v = 0)))

/-- A FAULT acknowledgement (Table 25.2), which DBG_FAULT reports. -/
def Chip.twvFault (c : Chip) (a cause : Nat) (resp : Option Nat) : Chip :=
  let c := c.put DBG_FAULT.cause cause
  let c := match resp with | some r => c.put DBG_FAULT.resp r | none => c
  (c.errEvt DBG_ERR.fault 220 0 [cause, a]).emit (.twivel 4 0)
/-- The acknowledgement of an outcome. -/
def Chip.twvAck (c : Chip) (a : Nat) : TwvEnd → Chip
  | .ok data => c.emit (.twivel 1 data)
  | .fault cause resp => c.twvFault a cause resp

/-- An entry of the trace ring (R534): op, acknowledgement as sent, address, and the stamp of completion. -/
def Chip.twvTrace (c : Chip) (op ack a : Nat) : Chip :=
  let n := c.fld DBG_TRACE_COUNT.count
  (c.onDbg fun d => { d with trace := Tab.set none d.trace (n % 64) (some (op, ack, a, recStamp c.now)) }).incWrap DBG_TRACE_COUNT.count

/-- The acknowledgement code of an outcome. -/
def TwvEnd.ack : TwvEnd → Nat
  | .ok _ => 1
  | .fault _ _ => 4

/-- The response the junction gives an access that is neither lost nor asleep: OK, or DECODE for an unassigned offset. -/
def twvEnd (a data : Nat) : TwvEnd := if (regFind a).isSome then .ok data else .fault 6 (some 1)

/-- The access itself (R533): a peek without side effects but the port's own capture (00 R15), a take and a write as firmware. -/
def State.twvPerform (s : State) (op a v : Nat) (x : CsrEnv) : State × TwvEnd :=
  if s.chip.csrGate .twivel a = .lost then (s, .fault 6 (some 4))
  else if op = twvWrite then (s.csrStore .twivel x a v, twvEnd a 0)
  else
    match regFind a with
    | none => (s.upd (·.decodeErr .twivel 1 a), twvEnd a 0)
    | some f =>
      if op = twvPeek then (s.upd (·.captureAll .twivel f a), .ok (s.chip.peekWord .twivel f a))
      else
        let r := s.chip.csrRead .twivel x a
        ({ s with chip := r.1 }, .ok r.2)

/-- An access is held, and what sleeps in its way is woken: a quarter, or the tile with wake cause 7 (Table 25.4). -/
def Chip.twvHold (c : Chip) (op a v : Nat) : Chip :=
  let c := c.onDbg fun d => { d with held := some { op, addr := a, data := v } }
  let c :=
    if c.fld PWR_STATUS.state = 3 then c.startWake 4 7
    else if c.csrGate .twivel a = .wait then (c.startWake (c.csrDomain a) 3).stir (c.csrDomain a)
    else c
  c.emit (.twivel 2 0)

/-- A PEEK, TAKE or WRITE frame whose parity is right (R530). `quick`: the access completes within max_wait cycles. -/
def State.twvFrame (s : State) (op a v : Nat) (quick : Bool) (x : CsrEnv) : State :=
  let c := s.chip
  if c.fld PWR_STATUS.state = 4 then s
  else if c.dbg.held.isSome then s.upd (·.twvFault a 4 none)
  else if !c.twvAllowed op a v then s.upd (·.twvFault a 3 none)
  else if c.fld PWR_STATUS.state = 3 ∧ !c.flag DBG_CTRL.wake_ok then s.upd (·.twvFault a 5 none)
  else if c.fld PWR_STATUS.state = 3 ∨ c.csrGate .twivel a = .wait ∨ !quick then s.upd (·.twvHold op a v)
  else
    let r := s.twvPerform op a v x
    r.1.upd fun c => (c.twvTrace op r.2.ack a).twvAck a r.2

/-- TWIVEL_PEEK (R533). -/
def execTwivelPeek (a : BitVec 24) (quick : Bool) (x : CsrEnv) (s : State) : Res := .next (s.twvFrame twvPeek (csrAddr a) 0 quick x)
/-- TWIVEL_TAKE (R533). -/
def execTwivelTake (a : BitVec 24) (quick : Bool) (x : CsrEnv) (s : State) : Res := .next (s.twvFrame twvTake (csrAddr a) 0 quick x)
/-- TWIVEL_WRITE (R533). -/
def execTwivelWrite (a : BitVec 24) (v : Word) (quick : Bool) (x : CsrEnv) (s : State) : Res :=
  .next (s.twvFrame twvWrite (csrAddr a) v.toNat quick x)

/-- A RESULT frame (R530): the held outcome, which it delivers, WAIT while it is not known, BAD_OP with nothing held. In DORMANT it is
a frame like any other (Table 25.4). The data of a write's outcome is a free value. -/
def Chip.twvResult (c : Chip) : Chip :=
  if c.fld PWR_STATUS.state = 4 then c
  else if c.fld PWR_STATUS.state = 3 then
    if c.flag DBG_CTRL.wake_ok then (c.startWake 4 7).emit (.twivel 2 0) else c.twvFault 0 5 none
  else
    match c.dbg.held with
    | none => c.twvFault 0 2 none
    | some h =>
      match h.done with
      | none => c.emit (.twivel 2 0)
      | some e =>
        let c := c.onDbg fun d => { d with held := none }
        if h.op = twvWrite ∧ e.ack = 1 then { c with free := c.free + 1 }.twvAck h.addr (.ok (Config.resultWord c.free % 2 ^ 32))
        else c.twvAck h.addr e
/-- TWIVEL_RESULT (R530). -/
def execTwivelResult (s : State) : Res := s.on (·.twvResult)

/-- A frame with wrong parity, or a reserved op (Table 25.2). Of any other frame it says nothing. -/
def Chip.twvBad (c : Chip) (op a : Nat) (parity : Bool) : Chip :=
  if c.fld PWR_STATUS.state = 4 then c
  else if parity then c.twvFault a 1 none
  else if 4 ≤ op then c.twvFault a 2 none
  else c
/-- TWIVEL_BAD_OP (R529). -/
def execTwivelBadOp (op : BitVec 4) (a : BitVec 24) (parity : Bool) (s : State) : Res :=
  s.on (·.twvBad op.toNat (csrAddr a) parity)

/-- A held access completes once what it waits for has woken (R530); an outcome a protocol reset gave up is discarded (R531). -/
def State.twvDone (s : State) (x : CsrEnv) : State :=
  match s.chip.dbg.held with
  | none => s
  | some h =>
    if h.done.isSome ∨ !s.chip.tileUp ∨ s.chip.csrGate .twivel h.addr = .wait then s
    else
      let r := s.twvPerform h.op h.addr h.data x
      r.1.upd fun c => (c.twvTrace h.op 2 h.addr).onDbg fun d =>
        { d with held := d.held.bind fun h => if h.drop then none else some { h with done := some r.2 } }
/-- TWIVEL_ACCESS_DONE (R530). -/
def execTwivelAccessDone (x : CsrEnv) (s : State) : Res := .next (s.twvDone x)

/-- TWIVEL_PROTOCOL_RESET (R531): a known outcome is discarded, one to come will be. -/
def execTwivelProtocolReset (s : State) : Res := s.on fun c => c.onDbg fun d =>
  { d with held := d.held.bind fun h => if h.done.isSome then none else some { h with drop := true } }

end Sys2Proof.Machine
end

