-- ==== Sys2Proof/Machine/Dispatch.lean ====
section
/-! DEFINITION. One arm per command: a direct call of its meaning. -/

namespace Sys2Proof.Machine

def exec (i : Instr) (s : State) : Host.Outcome State Fault Refusal :=
  match i with
  | .registerWrite a src v x => Sys2Proof.Machine.execRegisterWrite a src v x s
  | .unassignedAccess a src w => Sys2Proof.Machine.execUnassignedAccess a src w s
  | .loReadCapture a src x => Sys2Proof.Machine.execLoReadCapture a src x s
  | .hiWriteApply a src v x => Sys2Proof.Machine.execHiWriteApply a src v x s
  | .topWriteApply a src v x => Sys2Proof.Machine.execTopWriteApply a src v x s
  | .rcRead a src x => Sys2Proof.Machine.execRcRead a src x s
  | .refCycle upset steer => Sys2Proof.Machine.execRefCycle upset steer s
  | .syncTimer u => Sys2Proof.Machine.execSyncTimer u s
  | .sync u x t1 hops => Sys2Proof.Machine.execSync u x t1 hops s
  | .delayReqSend => Sys2Proof.Machine.execDelayReqSend s
  | .delayReq u x => Sys2Proof.Machine.execDelayReq u x s
  | .followUp u x t4 => Sys2Proof.Machine.execFollowUp u x t4 s
  | .exchangeMissing => Sys2Proof.Machine.execExchangeMissing s
  | .holdoverTick => Sys2Proof.Machine.execHoldoverTick s
  | .mpCtrlWrite v => Sys2Proof.Machine.execMpCtrlWrite v s
  | .mpUpstreamWrite v => Sys2Proof.Machine.execMpUpstreamWrite v s
  | .mpSet => Sys2Proof.Machine.execMpSet s
  | .mpResync => Sys2Proof.Machine.execMpResync s
  | .absorbComplete cals resp => Sys2Proof.Machine.execAbsorbComplete cals resp s
  | .refInLoss => Sys2Proof.Machine.execRefInLoss s
  | .ocxoLoss ls => Sys2Proof.Machine.execOcxoLoss ls s
  | .launchPush v => Sys2Proof.Machine.execLaunchPush v s
  | .launchCancel v => Sys2Proof.Machine.execLaunchCancel v s
  | .mark => Sys2Proof.Machine.execMark s
  | .startLeg => Sys2Proof.Machine.execStartLeg s
  | .commit => Sys2Proof.Machine.execCommit s
  | .halt => Sys2Proof.Machine.execHalt s
  | .abort => Sys2Proof.Machine.execAbort s
  | .capture => Sys2Proof.Machine.execCapture s
  | .trigger => Sys2Proof.Machine.execTrigger s
  | .crossing ls cals resp => Sys2Proof.Machine.execCrossing ls cals resp s
  | .commitNow n => Sys2Proof.Machine.execCommitNow n s
  | .abortNow => Sys2Proof.Machine.execAbortNow s
  | .crossingNow ls cals resp => Sys2Proof.Machine.execCrossingNow ls cals resp s
  | .groupSwitch gp => Sys2Proof.Machine.execGroupSwitch gp s
  | .launch u seq ack ep id t action arg scope target => Sys2Proof.Machine.execLaunch u seq ack ep id t action arg scope target s
  | .cancel u seq ack id => Sys2Proof.Machine.execCancel u seq ack id s
  | .report u seq ack tile id code => Sys2Proof.Machine.execReport u seq ack tile id code s
  | .matchPortWrite r cluster lb entry valid mask value edge => Sys2Proof.Machine.execMatchPortWrite r cluster lb entry valid mask value edge s
  | .matchLookup r lb key edge upset => Sys2Proof.Machine.execMatchLookup r lb key edge upset s
  | .avenueContention r avenue active duration onset => Sys2Proof.Machine.execAvenueContention r avenue active duration onset s
  | .clearFlags r v => Sys2Proof.Machine.execClearFlags r v s
  | .cpllConfigWrite q p v => Sys2Proof.Machine.execCpllConfigWrite q p v s
  | .gckSelectWrite q g v => Sys2Proof.Machine.execGckSelectWrite q g v s
  | .cpllLock q p => Sys2Proof.Machine.execCpllLock q p s
  | .cpllLockLost q p => Sys2Proof.Machine.execCpllLockLost q p s
  | .clkRestart q => Sys2Proof.Machine.execClkRestart q s
  | .quarterReset q => Sys2Proof.Machine.execQuarterReset q s
  | .quarterRelease q => Sys2Proof.Machine.execQuarterRelease q s
  | .capNow q => Sys2Proof.Machine.execCapNow q s
  | .captureEdge q edge vals => Sys2Proof.Machine.execCaptureEdge q edge vals s
  | .captureTimeout q => Sys2Proof.Machine.execCaptureTimeout q s
  | .capFree q => Sys2Proof.Machine.execCapFree q s
  | .capResume q => Sys2Proof.Machine.execCapResume q s
  | .coldStart x => Sys2Proof.Machine.execColdStart x s
  | .tileReset b => Sys2Proof.Machine.execTileReset b s
  | .gcTileReset v b => Sys2Proof.Machine.execGcTileReset v b s
  | .pcieReset kind => Sys2Proof.Machine.execPcieReset kind s
  | .bmPortRead b port addr edge flips => Sys2Proof.Machine.execBmPortRead b port addr edge flips s
  | .bmPortWrite b port addr v edge flips => Sys2Proof.Machine.execBmPortWrite b port addr v edge flips s
  | .bmWriteback b => Sys2Proof.Machine.execBmWriteback b s
  | .clearBlock r ix => Sys2Proof.Machine.execClearBlock r ix s
  | .clearFirst r => Sys2Proof.Machine.execClearFirst r s
  | .bmRepairWrite b col v => Sys2Proof.Machine.execBmRepairWrite b col v s
  | .vectorStart g crc => Sys2Proof.Machine.execVectorStart g crc s
  | .driveEdge n => Sys2Proof.Machine.execDriveEdge n s
  | .compareStrobe g cmph cmpl rctl win => Sys2Proof.Machine.execCompareStrobe g cmph cmpl rctl win s
  | .legEnd g => Sys2Proof.Machine.execLegEnd g s
  | .pgrEnableWrite g v => Sys2Proof.Machine.execPgrEnableWrite g v s
  | .toIdle g => Sys2Proof.Machine.execToIdle g s
  | .calNow g => Sys2Proof.Machine.execCalNow g s
  | .calMeasure g => Sys2Proof.Machine.execCalMeasure g s
  | .calMeasureDone g temp trims => Sys2Proof.Machine.execCalMeasureDone g temp trims s
  | .calStale g temp => Sys2Proof.Machine.execCalStale g temp s
  | .streamerLineResponse n addr resp data => Sys2Proof.Machine.execStreamerLineResponse n addr resp data s
  | .reprime n => Sys2Proof.Machine.execReprime n s
  | .strNop n => Sys2Proof.Machine.execStrNop n s
  | .strVec n => Sys2Proof.Machine.execStrVec n s
  | .strLoop n => Sys2Proof.Machine.execStrLoop n s
  | .strEndl n => Sys2Proof.Machine.execStrEndl n s
  | .strMatch n => Sys2Proof.Machine.execStrMatch n s
  | .strEndm n => Sys2Proof.Machine.execStrEndm n s
  | .strBrf n => Sys2Proof.Machine.execStrBrf n s
  | .strJmp n => Sys2Proof.Machine.execStrJmp n s
  | .strEnd n => Sys2Proof.Machine.execStrEnd n s
  | .strReservedOp n => Sys2Proof.Machine.execStrReservedOp n s
  | .apgPush g sym count ts base last void poison => Sys2Proof.Machine.execApgPush g sym count ts base last void poison s
  | .apgCtrlWrite g step v => Sys2Proof.Machine.execApgCtrlWrite g step v s
  | .taintNotice who req line f => Sys2Proof.Machine.execTaintNotice who req line f s
  | .intakeEmit q => Sys2Proof.Machine.execIntakeEmit q s
  | .flRecordResponse q resp => Sys2Proof.Machine.execFlRecordResponse q resp s
  | .flOrwriteResponse q k resp => Sys2Proof.Machine.execFlOrwriteResponse q k resp s
  | .dirtyLineAge q => Sys2Proof.Machine.execDirtyLineAge q s
  | .harvestAll q => Sys2Proof.Machine.execHarvestAll q s
  | .harvestReadResponse q k resp data => Sys2Proof.Machine.execHarvestReadResponse q k resp data s
  | .flAckWrite q v => Sys2Proof.Machine.execFlAckWrite q v s
  | .clNop j => Sys2Proof.Machine.execClNop j s
  | .clMac j flips => Sys2Proof.Machine.execClMac j flips s
  | .clMsu j flips => Sys2Proof.Machine.execClMsu j flips s
  | .clMul j flips => Sys2Proof.Machine.execClMul j flips s
  | .clClr j => Sys2Proof.Machine.execClClr j s
  | .clSt j => Sys2Proof.Machine.execClSt j s
  | .clAccsv j => Sys2Proof.Machine.execClAccsv j s
  | .clAccld j flips => Sys2Proof.Machine.execClAccld j flips s
  | .clHist j flips => Sys2Proof.Machine.execClHist j flips s
  | .clSig j flips => Sys2Proof.Machine.execClSig j flips s
  | .clAdda j flips => Sys2Proof.Machine.execClAdda j flips s
  | .clLdi j => Sys2Proof.Machine.execClLdi j s
  | .clAlu j => Sys2Proof.Machine.execClAlu j s
  | .clAgset j => Sys2Proof.Machine.execClAgset j s
  | .clAgget j => Sys2Proof.Machine.execClAgget j s
  | .clLdx j flips => Sys2Proof.Machine.execClLdx j flips s
  | .clStx j => Sys2Proof.Machine.execClStx j s
  | .clLoop j => Sys2Proof.Machine.execClLoop j s
  | .clLpop j => Sys2Proof.Machine.execClLpop j s
  | .clLpush j => Sys2Proof.Machine.execClLpush j s
  | .clJmp j => Sys2Proof.Machine.execClJmp j s
  | .clBr j => Sys2Proof.Machine.execClBr j s
  | .clReti j => Sys2Proof.Machine.execClReti j s
  | .clIn j => Sys2Proof.Machine.execClIn j s
  | .clOut j flips => Sys2Proof.Machine.execClOut j flips s
  | .clXfer j => Sys2Proof.Machine.execClXfer j s
  | .clWaitx j => Sys2Proof.Machine.execClWaitx j s
  | .clTime j => Sys2Proof.Machine.execClTime j s
  | .clMsg j => Sys2Proof.Machine.execClMsg j s
  | .clWait j => Sys2Proof.Machine.execClWait j s
  | .clHalt j => Sys2Proof.Machine.execClHalt j s
  | .clIllegal j => Sys2Proof.Machine.execClIllegal j s
  | .clInterrupt j => Sys2Proof.Machine.execClInterrupt j s
  | .clFabricPush j lanes poison => Sys2Proof.Machine.execClFabricPush j lanes poison s
  | .clFabricPop j => Sys2Proof.Machine.execClFabricPop j s
  | .clRegionIrq j line level => Sys2Proof.Machine.execClRegionIrq j line level s
  | .clXferResponse j k resp data => Sys2Proof.Machine.execClXferResponse j k resp data s
  | .clCmdStart j => Sys2Proof.Machine.execClCmdStart j s
  | .clCmdResume j => Sys2Proof.Machine.execClCmdResume j s
  | .clCmdHalt j => Sys2Proof.Machine.execClCmdHalt j s
  | .clCmdIrq j => Sys2Proof.Machine.execClCmdIrq j s
  | .clCmdLoadUcode j => Sys2Proof.Machine.execClCmdLoadUcode j s
  | .clUcodeLoadDone j words fail => Sys2Proof.Machine.execClUcodeLoadDone j words fail s
  | .clUcodeRefetch j resp data => Sys2Proof.Machine.execClUcodeRefetch j resp data s
  | .clLmDataRead j src flips => Sys2Proof.Machine.execClLmDataRead j src flips s
  | .clLmDataWrite j v => Sys2Proof.Machine.execClLmDataWrite j v s
  | .clRegWrite j off v => Sys2Proof.Machine.execClRegWrite j off v s
  | .dramRead who id addr len urgent => Sys2Proof.Machine.execDramRead who id addr len urgent s
  | .dramWrite who id addr len data bad urgent => Sys2Proof.Machine.execDramWrite who id addr len data bad urgent s
  | .dramPartial who id addr len data be bad urgent => Sys2Proof.Machine.execDramPartial who id addr len data be bad urgent s
  | .dramOrWrite who id addr len mask urgent => Sys2Proof.Machine.execDramOrWrite who id addr len mask urgent s
  | .checkRequest k => Sys2Proof.Machine.execCheckRequest k s
  | .bankService k ch bank flips cflips => Sys2Proof.Machine.execBankService k ch bank flips cflips s
  | .checkRingTimeout k => Sys2Proof.Machine.execCheckRingTimeout k s
  | .refreshTick k ch rank => Sys2Proof.Machine.execRefreshTick k ch rank s
  | .refreshRatePoll k rates => Sys2Proof.Machine.execRefreshRatePoll k rates s
  | .powerdownIdle k phase => Sys2Proof.Machine.execPowerdownIdle k phase s
  | .trainingCheckpoint k ends pass => Sys2Proof.Machine.execTrainingCheckpoint k ends pass s
  | .retrain k => Sys2Proof.Machine.execRetrain k s
  | .autoRetrain k temp => Sys2Proof.Machine.execAutoRetrain k temp s
  | .spCfgWrite k n v => Sys2Proof.Machine.execSpCfgWrite k n v s
  | .setpointSwitchDone k => Sys2Proof.Machine.execSetpointSwitchDone k s
  | .ppr k => Sys2Proof.Machine.execPpr k s
  | .pprDone k ok => Sys2Proof.Machine.execPprDone k ok s
  | .mapApply q => Sys2Proof.Machine.execMapApply q s
  | .mapApplyDone => Sys2Proof.Machine.execMapApplyDone s
  | .initFillExtent => Sys2Proof.Machine.execInitFillExtent s
  | .eccWriteback k flips cflips => Sys2Proof.Machine.execEccWriteback k flips cflips s
  | .patrolVisit k ch flips cflips => Sys2Proof.Machine.execPatrolVisit k ch flips cflips s
  | .eccClearLog k => Sys2Proof.Machine.execEccClearLog k s
  | .kidActivate slot kid => Sys2Proof.Machine.execKidActivate slot kid s
  | .kidGenerated slot => Sys2Proof.Machine.execKidGenerated slot s
  | .kidRetire slot => Sys2Proof.Machine.execKidRetire slot s
  | .zeroise n => Sys2Proof.Machine.execZeroise n s
  | .zeroiseDone n => Sys2Proof.Machine.execZeroiseDone n s
  | .rekey n slot => Sys2Proof.Machine.execRekey n slot s
  | .rekeyDone n bad => Sys2Proof.Machine.execRekeyDone n bad s
  | .tagCheckDone k ix res => Sys2Proof.Machine.execTagCheckDone k ix res s
  | .prClearLog => Sys2Proof.Machine.execPrClearLog s
  | .junctionPacket j port head payload => Sys2Proof.Machine.execJunctionPacket j port head payload s
  | .linkCrcError j port again => Sys2Proof.Machine.execLinkCrcError j port again s
  | .requestTimeout j n tag => Sys2Proof.Machine.execRequestTimeout j n tag s
  | .portClose d => Sys2Proof.Machine.execPortClose d s
  | .portClosed d => Sys2Proof.Machine.execPortClosed d s
  | .portReopen d => Sys2Proof.Machine.execPortReopen d s
  | .swap j => Sys2Proof.Machine.execSwap j s
  | .swapPortDone j port => Sys2Proof.Machine.execSwapPortDone j port s
  | .bar2Read id o n ans => Sys2Proof.Machine.execBar2Read id o n ans s
  | .bar2Write o bytes ans => Sys2Proof.Machine.execBar2Write o bytes ans s
  | .bar2Timeout id => Sys2Proof.Machine.execBar2Timeout id s
  | .winBaseWrite v => Sys2Proof.Machine.execWinBaseWrite v s
  | .ringCfgWrite r v => Sys2Proof.Machine.execRingCfgWrite r v s
  | .doorbellPi r v => Sys2Proof.Machine.execDoorbellPi r v s
  | .doorbellCi r v => Sys2Proof.Machine.execDoorbellCi r v s
  | .descFetch r ans => Sys2Proof.Machine.execDescFetch r ans s
  | .descNop n => Sys2Proof.Machine.execDescNop n s
  | .h2t n => Sys2Proof.Machine.execH2t n s
  | .t2h n => Sys2Proof.Machine.execT2h n s
  | .t2t n => Sys2Proof.Machine.execT2t n s
  | .fail n => Sys2Proof.Machine.execFail n s
  | .descReservedOp n => Sys2Proof.Machine.execDescReservedOp n s
  | .dmaDataResponse n slot ix ans => Sys2Proof.Machine.execDmaDataResponse n slot ix ans s
  | .descWriteback r => Sys2Proof.Machine.execDescWriteback r s
  | .drainWait n q => Sys2Proof.Machine.execDrainWait n q s
  | .dmaAbort n => Sys2Proof.Machine.execDmaAbort n s
  | .dmaRestart n => Sys2Proof.Machine.execDmaRestart n s
  | .dmaSkip n => Sys2Proof.Machine.execDmaSkip n s
  | .t2Start n => Sys2Proof.Machine.execT2Start n s
  | .dmaCtrlWrite n v => Sys2Proof.Machine.execDmaCtrlWrite n v s
  | .irqHoldoff r => Sys2Proof.Machine.execIrqHoldoff r s
  | .linkUp speed width => Sys2Proof.Machine.execLinkUp speed width s
  | .d3hotEntry => Sys2Proof.Machine.execD3hotEntry s
  | .d3hotExit => Sys2Proof.Machine.execD3hotExit s
  | .busMasterEnable on => Sys2Proof.Machine.execBusMasterEnable on s
  | .getVersion => Sys2Proof.Machine.execGetVersion s
  | .getCapabilities => Sys2Proof.Machine.execGetCapabilities s
  | .negotiateAlgorithms => Sys2Proof.Machine.execNegotiateAlgorithms s
  | .getMeasurements index sign nonce => Sys2Proof.Machine.execGetMeasurements index sign nonce s
  | .challenge slot nonce => Sys2Proof.Machine.execChallenge slot nonce s
  | .getDigests => Sys2Proof.Machine.execGetDigests s
  | .getCertificate slot offset len => Sys2Proof.Machine.execGetCertificate slot offset len s
  | .spdmUnsupported => Sys2Proof.Machine.execSpdmUnsupported s
  | .eventPacket => Sys2Proof.Machine.execEventPacket s
  | .eventFlush r => Sys2Proof.Machine.execEventFlush r s
  | .evRouteWrite e v => Sys2Proof.Machine.execEvRouteWrite e v s
  | .msixUnmask x => Sys2Proof.Machine.execMsixUnmask x s
  | .eventFwd u seq ack num tile epoch cause flags rseq stamp payload => Sys2Proof.Machine.execEventFwd u seq ack num tile epoch cause flags rseq stamp payload s
  | .trkCtrlWrite u v => Sys2Proof.Machine.execTrkCtrlWrite u v s
  | .ckDetect u serial => Sys2Proof.Machine.execCkDetect u serial s
  | .trkTrainingEnd u e cable => Sys2Proof.Machine.execTrkTrainingEnd u e cable s
  | .trkRetry u => Sys2Proof.Machine.execTrkRetry u s
  | .blockLockLoss u lane => Sys2Proof.Machine.execBlockLockLoss u lane s
  | .trkErrorWindow u corrected => Sys2Proof.Machine.execTrkErrorWindow u corrected s
  | .recoveryTimeout u => Sys2Proof.Machine.execRecoveryTimeout u s
  | .trkRetrain u => Sys2Proof.Machine.execTrkRetrain u s
  | .testStart u => Sys2Proof.Machine.execTestStart u s
  | .testStop u errs compared => Sys2Proof.Machine.execTestStop u errs compared s
  | .trkTestTimeout u errs compared => Sys2Proof.Machine.execTrkTestTimeout u errs compared s
  | .inject u => Sys2Proof.Machine.execInject u s
  | .injectTick u => Sys2Proof.Machine.execInjectTick u s
  | .resendTimer u => Sys2Proof.Machine.execResendTimer u s
  | .idle u ack => Sys2Proof.Machine.execIdle u ack s
  | .hello u seq ack serial epoch tile hops role => Sys2Proof.Machine.execHello u seq ack serial epoch tile hops role s
  | .enrolReq u seq ack serial epoch path alt nonce mask => Sys2Proof.Machine.execEnrolReq u seq ack serial epoch path alt nonce mask s
  | .enrolGrant u seq ack serial tile hops d cable => Sys2Proof.Machine.execEnrolGrant u seq ack serial tile hops d cable s
  | .enrolRefuse u seq ack serial code => Sys2Proof.Machine.execEnrolRefuse u seq ack serial code s
  | .quoteReq u seq ack serial nonce mask => Sys2Proof.Machine.execQuoteReq u seq ack serial nonce mask s
  | .quote u seq ack serial last bytes verified d => Sys2Proof.Machine.execQuote u seq ack serial last bytes verified d s
  | .quoteTimeout serial => Sys2Proof.Machine.execQuoteTimeout serial s
  | .lost u seq ack tile serial => Sys2Proof.Machine.execLost u seq ack tile serial s
  | .sleep u seq ack => Sys2Proof.Machine.execSleep u seq ack s
  | .powerfail u seq ack tile mark => Sys2Proof.Machine.execPowerfail u seq ack tile mark s
  | .mailbox u seq ack n flags credits epoch word bells => Sys2Proof.Machine.execMailbox u seq ack n flags credits epoch word bells s
  | .control u seq ack payload seg => Sys2Proof.Machine.execControl u seq ack payload seg s
  | .testReq u seq ack v => Sys2Proof.Machine.execTestReq u seq ack v s
  | .trkBadMessage u kind timed => Sys2Proof.Machine.execTrkBadMessage u kind timed s
  | .failover cable => Sys2Proof.Machine.execFailover cable s
  | .downPortLost u => Sys2Proof.Machine.execDownPortLost u s
  | .trkWake u => Sys2Proof.Machine.execTrkWake u s
  | .hyTabWrite word v => Sys2Proof.Machine.execHyTabWrite word v s
  | .cwPush v => Sys2Proof.Machine.execCwPush v s
  | .cwBusIdle draw => Sys2Proof.Machine.execCwBusIdle draw s
  | .cwSlot other => Sys2Proof.Machine.execCwSlot other s
  | .cwCollision => Sys2Proof.Machine.execCwCollision s
  | .cwFrameSent => Sys2Proof.Machine.execCwFrameSent s
  | .cwJabber mt => Sys2Proof.Machine.execCwJabber mt s
  | .cwBusStuck mt => Sys2Proof.Machine.execCwBusStuck mt s
  | .actionFrame x => Sys2Proof.Machine.execActionFrame x s
  | .beaconFrame x rx => Sys2Proof.Machine.execBeaconFrame x rx s
  | .noteFrame x => Sys2Proof.Machine.execNoteFrame x s
  | .cwReservedFrame x ftype => Sys2Proof.Machine.execCwReservedFrame x ftype s
  | .cwBeaconTimer => Sys2Proof.Machine.execCwBeaconTimer s
  | .strangerWindow => Sys2Proof.Machine.execStrangerWindow s
  | .txReset => Sys2Proof.Machine.execTxReset s
  | .qExit => Sys2Proof.Machine.execQExit s
  | .cwMemberWrite m word v => Sys2Proof.Machine.execCwMemberWrite m word v s
  | .wsTx n x src v => Sys2Proof.Machine.execWsTx n x src v s
  | .wsSend n x src bells => Sys2Proof.Machine.execWsSend n x src bells s
  | .wsRxdata n x src => Sys2Proof.Machine.execWsRxdata n x src s
  | .wsLockRead n src => Sys2Proof.Machine.execWsLockRead n src s
  | .wsLockWrite n src v => Sys2Proof.Machine.execWsLockWrite n src v s
  | .lockBreak n => Sys2Proof.Machine.execLockBreak n s
  | .wsFlush n src => Sys2Proof.Machine.execWsFlush n src s
  | .wsCfgWrite n v => Sys2Proof.Machine.execWsCfgWrite n v s
  | .cfgLoad => Sys2Proof.Machine.execCfgLoad s
  | .cfgChunk p d => Sys2Proof.Machine.execCfgChunk p d s
  | .cfgClamp p => Sys2Proof.Machine.execCfgClamp p s
  | .cfgRelease p imgs => Sys2Proof.Machine.execCfgRelease p imgs s
  | .cfgAbort q => Sys2Proof.Machine.execCfgAbort q s
  | .cfgReadback => Sys2Proof.Machine.execCfgReadback s
  | .sweepVisit q upset avenueBad => Sys2Proof.Machine.execSweepVisit q upset avenueBad s
  | .sweepReload result => Sys2Proof.Machine.execSweepReload result s
  | .sweepLapEnd differs => Sys2Proof.Machine.execSweepLapEnd differs s
  | .sweepLapLate => Sys2Proof.Machine.execSweepLapLate s
  | .sweepWatchdog => Sys2Proof.Machine.execSweepWatchdog s
  | .restartLap => Sys2Proof.Machine.execRestartLap s
  | .clearSuspect => Sys2Proof.Machine.execClearSuspect s
  | .bistSlice => Sys2Proof.Machine.execBistSlice s
  | .bistPeriodic => Sys2Proof.Machine.execBistPeriodic s
  | .bistSliceDone fails => Sys2Proof.Machine.execBistSliceDone fails s
  | .dramFull => Sys2Proof.Machine.execDramFull s
  | .dramFullDone rows us => Sys2Proof.Machine.execDramFullDone rows us s
  | .pprApply => Sys2Proof.Machine.execPprApply s
  | .bistClearLog => Sys2Proof.Machine.execBistClearLog s
  | .extend => Sys2Proof.Machine.execExtend s
  | .newChallenge nonce => Sys2Proof.Machine.execNewChallenge nonce s
  | .unlock sigOk => Sys2Proof.Machine.execUnlock sigOk s
  | .relock => Sys2Proof.Machine.execRelock s
  | .recover check header body config => Sys2Proof.Machine.execRecover check header body config s
  | .lockoutEnd => Sys2Proof.Machine.execLockoutEnd s
  | .tamper flag => Sys2Proof.Machine.execTamper flag s
  | .keyImport fuse tagOk key => Sys2Proof.Machine.execKeyImport fuse tagOk key s
  | .quoteService n x => Sys2Proof.Machine.execQuoteService n x s
  | .signpostJudge => Sys2Proof.Machine.execSignpostJudge s
  | .signpostWake => Sys2Proof.Machine.execSignpostWake s
  | .wakeDone dom cals x => Sys2Proof.Machine.execWakeDone dom cals x s
  | .wakeNow => Sys2Proof.Machine.execWakeNow s
  | .sealNow ls => Sys2Proof.Machine.execSealNow ls s
  | .restore => Sys2Proof.Machine.execRestore s
  | .restoreDone pages => Sys2Proof.Machine.execRestoreDone pages s
  | .vaultRelease => Sys2Proof.Machine.execVaultRelease s
  | .vaultEraseDone spare => Sys2Proof.Machine.execVaultEraseDone spare s
  | .railFault rail ls => Sys2Proof.Machine.execRailFault rail ls s
  | .thermalWarn temp => Sys2Proof.Machine.execThermalWarn temp s
  | .thermalCrit temp ls => Sys2Proof.Machine.execThermalCrit temp ls s
  | .thermalClear temp => Sys2Proof.Machine.execThermalClear temp s
  | .inputLoss ls => Sys2Proof.Machine.execInputLoss ls s
  | .inputRideThrough us => Sys2Proof.Machine.execInputRideThrough us s
  | .busUndervoltage mv ls => Sys2Proof.Machine.execBusUndervoltage mv ls s
  | .inputReturn us => Sys2Proof.Machine.execInputReturn us s
  | .operation v ls => Sys2Proof.Machine.execOperation v ls s
  | .clearFaults => Sys2Proof.Machine.execClearFaults s
  | .capability => Sys2Proof.Machine.execCapability s
  | .statusWord => Sys2Proof.Machine.execStatusWord s
  | .statusInput => Sys2Proof.Machine.execStatusInput s
  | .statusTemperature => Sys2Proof.Machine.execStatusTemperature s
  | .readVin => Sys2Proof.Machine.execReadVin s
  | .readIin => Sys2Proof.Machine.execReadIin s
  | .readPin => Sys2Proof.Machine.execReadPin s
  | .readTemperature1 => Sys2Proof.Machine.execReadTemperature1 s
  | .pmbusRevision => Sys2Proof.Machine.execPmbusRevision s
  | .mfrId => Sys2Proof.Machine.execMfrId s
  | .mfrModel => Sys2Proof.Machine.execMfrModel s
  | .mfrSerial => Sys2Proof.Machine.execMfrSerial s
  | .pmbusUnsupported code => Sys2Proof.Machine.execPmbusUnsupported code s
  | .odMeasure q => Sys2Proof.Machine.execOdMeasure q s
  | .measureNow q => Sys2Proof.Machine.execMeasureNow q s
  | .odMeasureDone q reps rings temp dlm => Sys2Proof.Machine.execOdMeasureDone q reps rings temp dlm s
  | .odOverdue q => Sys2Proof.Machine.execOdOverdue q s
  | .odStore => Sys2Proof.Machine.execOdStore s
  | .twivelPeek a quick x => Sys2Proof.Machine.execTwivelPeek a quick x s
  | .twivelTake a quick x => Sys2Proof.Machine.execTwivelTake a quick x s
  | .twivelWrite a v quick x => Sys2Proof.Machine.execTwivelWrite a v quick x s
  | .twivelResult => Sys2Proof.Machine.execTwivelResult s
  | .twivelBadOp op a parity => Sys2Proof.Machine.execTwivelBadOp op a parity s
  | .twivelAccessDone x => Sys2Proof.Machine.execTwivelAccessDone x s
  | .twivelProtocolReset => Sys2Proof.Machine.execTwivelProtocolReset s
  | .haltCore => Sys2Proof.Machine.execHaltCore s
  | .coresHalted pc => Sys2Proof.Machine.execCoresHalted pc s
  | .resumeCore => Sys2Proof.Machine.execResumeCore s
  | .stepCore pc => Sys2Proof.Machine.execStepCore pc s
  | .haltCl => Sys2Proof.Machine.execHaltCl s
  | .resumeCl => Sys2Proof.Machine.execResumeCl s
  | .stepCl => Sys2Proof.Machine.execStepCl s
  | .sdReset => Sys2Proof.Machine.execSdReset s
  | .wdgKick src => Sys2Proof.Machine.execWdgKick src s
  | .wdgExpire => Sys2Proof.Machine.execWdgExpire s
  | .detourBreak a pc => Sys2Proof.Machine.execDetourBreak a pc s
  | .dtrWrite src d w v => Sys2Proof.Machine.execDtrWrite src d w v s
  | .refInReturn => Sys2Proof.Machine.execRefInReturn s
  | .completionTimeout n slot ix => Sys2Proof.Machine.execCompletionTimeout n slot ix s
  | .hostLinkTraining => Sys2Proof.Machine.execHostLinkTraining s
  | .recoveryRequest u => Sys2Proof.Machine.execRecoveryRequest u s
  | .readbackDone q ok => Sys2Proof.Machine.execReadbackDone q ok s
  | .sealComplete ok b => Sys2Proof.Machine.execSealComplete ok b s
  | .sweeperCopyVote copy => Sys2Proof.Machine.execSweeperCopyVote copy s

end Sys2Proof.Machine
end

