-- ==== Sys2Proof/Safety.lean ====
section
/-! DEFINITION. The words the statements use: sound states, steps that go on, commands that complete, and what a command leaves. -/

namespace Sys2Proof

open Machine

/-- The tile DRAM is in its one canonical form. -/
def Sound (s : State) : Prop := Memory.wf s.mem = true

/-- The step answers a next state: neither a fault nor a refusal. -/
def GoesOn (s : State) : Prop := ∃ t, step s = .next t

/-- The command answers a next state, of which `P` holds. -/
def Completes (i : Instr) (s : State) (P : State → Prop) : Prop := ∃ t, exec i s = .next t ∧ P t

/-- Every field of a register outside the address ranges `l` reads as before. -/
def RegsWithin (l : List (Nat × Nat)) (c d : Chip) : Prop :=
  ∀ f : Fld, f.lo < 32 → f.addr % 4 = 0 → (∀ r ∈ l, ¬(r.1 ≤ f.addr ∧ f.addr < r.2)) → d.fld f = c.fld f

/-- Every byte of tile DRAM reads as before. -/
def SameBytes (s t : State) : Prop := ∀ a, Memory.byte t.mem a = Memory.byte s.mem a

/-- A reliable message numbered `seq` is the next in order on ACTIVE port `u`, which waits for no acknowledgement (17 R391). -/
def Heard (s : State) (u seq : Nat) : Prop :=
  s.chip.portActive u = true ∧ (s.chip.port u).window = [] ∧ seq = (s.chip.port u).expect

/-- Streamer `n` feeds a leg `l` of group `g` that goes on, and executes instruction `i` next (08 R192). -/
def StreamerAt (s : State) (n g : Nat) (l : Leg) (i : SInstr) : Prop :=
  s.chip.fld (STR_STATUS.state n) = 3 ∧ s.chip.strGroup n = some g ∧ (s.chip.group g).leg = some l ∧ l.ending = 0 ∧
  (s.chip.str n).left = 0 ∧ (s.chip.str n).idle < 63 ∧ (s.chip.str n).instrAt (s.chip.strPc n) = some i

/-- Cluster `j` runs, clocked and with no interrupt to take first, and its next instruction is the legal word `w` (10 R240). -/
def ClusterAt (s : State) (j w : Nat) : Prop :=
  2 ≤ s.chip.clState j ∧ s.chip.clClocked j = true ∧ s.chip.clTakeable j = false ∧
  s.chip.flag (CL_STATUS.ucode_valid j) = true ∧ Tab.get 0 (s.chip.cl j).ucode (s.chip.fld (CL_PC.pc j)) = w ∧ clLegal w = true

/-- That instruction is followed in order: no branch falls due, no loop ends there, no halt is asked for. -/
def ClusterStraight (s : State) (j : Nat) : Prop :=
  (s.chip.cl j).redirs.lookup ((s.chip.cl j).slot + 1) = none ∧ (s.chip.cl j).haltReq = false ∧
  ∀ l < 8, s.chip.fld (CL_LOOP_HI.end_ j l) ≠ s.chip.fld (CL_PC.pc j)

/-- The instruction has issued and the next one in order follows. -/
def ClusterNext (s t : State) (j : Nat) : Prop :=
  t.chip.fld (CL_PC.pc j) = (s.chip.fld (CL_PC.pc j) + 1) % 4096 ∧ (t.chip.cl j).slot = (s.chip.cl j).slot + 1

/-- The instruction of cluster `j` has trapped into its handler (10 R251). -/
def ClusterTrapped (s t : State) (j cause : Nat) : Prop :=
  t.chip.fld (CL_TRAP.cause j) = cause ∧ t.chip.fld (CL_TRAP.pc j) = s.chip.fld (CL_PC.pc j) ∧
  t.chip.flag (CL_TRAP.fatal j) = false ∧ t.chip.fld (CL_IRA.ira j) = s.chip.fld (CL_PC.pc j) ∧
  t.chip.fld (CL_PC.pc j) = 0xF00 ∧ t.chip.flag (CL_ERR.trap j) = true ∧ t.chip.clState j = 3

/-- A trap of cluster `j` is not fatal here (10 R251). -/
def ClusterTraps (s : State) (j : Nat) : Prop :=
  (s.chip.cl j).handler = false ∧ (s.chip.cl j).redirs = [] ∧ (s.chip.cl j).haltReq = false ∧
  s.chip.fld (CL_PC.pc j) ≠ 0xF00 ∧ s.chip.fld (CL_PC.pc j) ≠ 0xF40

/-- Port `p` (4 for a FULL load) runs load `l`, which names one region of its quarter or all 64 (20 R445). -/
def LoadAt (s : State) (p : Nat) (l : CfgLoad) : Prop :=
  s.chip.load p = some l ∧ l.region < 64 ∧ (l.full = true ↔ p = 4) ∧ (l.full = false → p = l.region / 16) ∧
  l.was.map (·.1) = l.regions

/-- Load `l` of port `p` has failed (20 R450): its regions as before in VERIFY, UNLOADED after K; reason and address shown. -/
def LoadFailed (s t : State) (p : Nat) (l : CfgLoad) (why bad : Nat) : Prop :=
  t.mem = s.mem ∧ t.chip.load p = none ∧ t.chip.flag CFG_ERR.load_failed = true ∧
  (∀ e ∈ l.was, t.chip.rgState e.1 = if l.clamp.isSome then 0 else e.2 % 8) ∧
  (∀ r ∈ l.regions, t.chip.fld (RG_ABORT.reason r) = why ∧ t.chip.flag (RG_ABORT.valid r) = true) ∧
  ∀ q ∈ loadQuarters p, t.chip.fld (CFG_RESULT.code q) = 3 ∧ t.chip.fld (CFG_RESULT.reason q) = why ∧
    t.chip.flag (CFG_RESULT.clamped q) = l.clamp.isSome ∧ t.chip.fld (CFG_BAD_ADDR.addr q) = bad % 2 ^ 32

/-- The line at `a` is plain tile DRAM that requests reach: placed in a quarter that is there, in no extent being applied, in no
protected range and no metadata area (11 R260 to R262, 13 R303). -/
def PlainLine (s : State) (a : Nat) : Prop :=
  a < 2 ^ 41 ∧ a % 64 = 0 ∧ s.chip.offline (s.chip.place a).q = false ∧ extentOf a ∉ s.chip.dram.applying ∧
  s.chip.metaOf a = none ∧ s.chip.rangeOf a = none ∧ s.chip.layerAt a = none ∧ s.chip.fld BIST_STATUS.state ≠ 3

/-- Controller `k` is ACTIVE, nothing waits at its junction, the power-up fill has ended and no range is being turned off. -/
def DramOpen (s : State) (k : Nat) : Prop :=
  s.chip.fld (DMC_STATUS.state k) = 2 ∧ (s.chip.ctl k).gate = [] ∧ s.chip.flag DMC_MAP_STATUS.init_busy = false ∧
  ∀ e ∈ s.chip.dram.prs, e.2.closing = none

end Sys2Proof
end

