-- ==== Sys2Proof/Certificates/Slice0/Obligations.lean ====
section
/-! DEFINITION. The statements for the provers, chapter by chapter of the manual. -/

open Sys2Proof Sys2Proof.Machine

/-- O1. A step runs the command at the front of the queue. -/
def Obligations.StepRunsFront : Prop :=
  (∀ (s : State) (i : Instr) (rest : List Instr), s.pending = i :: rest → step s = exec i { s with pending := rest }) ∧
  (∀ s : State, s.pending = [] → step s = .next s)

/-- O2. No command faults or is refused, and a command leaves the queue to the step. -/
def Obligations.EveryCommandGoesOn : Prop :=
  ∀ (i : Instr) (s : State), Completes i s fun t => t.pending = s.pending

/-- O3. Register accesses act by their access types, are recorded where unassigned, and wait or are lost where the endpoint sleeps or is closed. -/
def Obligations.RegisterAccess : Prop :=
  (∀ (s : State) (a : BitVec 24) (src : Src) (v : Word) (x : CsrEnv), let c := s.chip
    let b := csrAddr a
    let n := v.toNat
    let writes (P : State → Prop) : Prop := Completes (.registerWrite a src v x) s fun t => t.mem = s.mem ∧ t.chip.out = c.out ∧
      t.chip.inflight = c.inflight ∧ P t
    let answers (i : Instr) (w : Nat) (P : State → Prop) : Prop := Completes i s fun t => t.mem = s.mem ∧
      t.chip.out = c.out ++ [.csr src b w] ∧ P t
    c.csrGate src b = .open →
    (b = PWR_MARGIN.us.addr → writes fun t => t.chip.fld PWR_MARGIN.us = n % 2 ^ 16 ∧ RegsWithin [(b, b + 4)] c t.chip) ∧
    (b = PWR_LOSS.debounce_ms.addr →
      (1 ≤ n % 32 → n % 32 ≤ 20 → writes fun t => t.chip.fld PWR_LOSS.debounce_ms = n % 32 ∧ RegsWithin [(b, b + 4)] c t.chip) ∧
      (n % 32 = 0 ∨ 20 < n % 32 → writes fun t => t.chip.flag PWR_ERR.bad_value = true ∧
        RegsWithin [(PWR_ERR.bad_value.addr, PWR_ERR.bad_value.addr + 4)] c t.chip)) ∧
    (b = PWR_ERR.late_wake.addr → writes fun t => RegsWithin [(b, b + 4)] c t.chip ∧
      t.chip.flag PWR_ERR.late_wake = (c.flag PWR_ERR.late_wake && !bit n 5) ∧
      t.chip.flag PWR_ERR.input_warn = (c.flag PWR_ERR.input_warn && !bit n 0) ∧
      t.chip.flag PWR_ERR.bad_value = (c.flag PWR_ERR.bad_value && !bit n 8)) ∧
    (b = PWR_SEAL_TIME.us.addr → exec (.registerWrite a src v x) s = .next s) ∧
    (b = (FL_LIMIT.limit 0).addr → writes fun t => t.chip.active = c.active ∧
      (16 ≤ n % 256 → n % 256 ≤ 128 → t.chip.stg (FL_LIMIT.limit 0) = n % 256) ∧
      (n % 256 < 16 ∨ 128 < n % 256 → t.chip.staged = c.staged ∧ t.chip.flag (FL_ERR.bad_value 0) = true)) ∧
    (b = PWR_RESTORE_BASE_LO.base_lo.addr → writes fun t => RegsWithin [] c t.chip ∧
      Tab.get none t.chip.csr.held b = some n) ∧
    (b = PWR_RESTORE_BASE_HI.base_hi.addr → Completes (.hiWriteApply a src v x) s fun t => t.mem = s.mem ∧
      t.chip.fld PWR_RESTORE_BASE_HI.base_hi = n % 2 ^ 9 ∧
      t.chip.fld PWR_RESTORE_BASE_LO.base_lo = (Tab.get none c.csr.held (b - 4)).getD 0 / 2 ^ 20 % 2 ^ 12) ∧
    (b = LQ_NEW_T_TOP.t_top.addr → Completes (.topWriteApply a src v x) s fun t => t.mem = s.mem ∧
      t.chip.fld LQ_NEW_T_TOP.t_top = n % 2 ^ 8 ∧
      t.chip.fld LQ_NEW_T_HI.t_hi = (Tab.get none c.csr.held (b - 4)).getD 0 % 2 ^ 32 ∧
      t.chip.fld LQ_NEW_T_LO.t_lo = (Tab.get none c.csr.held (b - 8)).getD 0 % 2 ^ 32) ∧
    (b = MP_NOW_LO.now_lo.addr → answers (.loReadCapture a src x) (c.now % 2 ^ 32) fun t =>
      Tab.get none t.chip.csr.caps (srcNum src * 2 ^ 26 + (b + 4)) = some (c.now / 2 ^ 32 % 2 ^ 32) ∧
      Tab.get none t.chip.csr.caps (srcNum src * 2 ^ 26 + (b + 8)) = some (c.now / 2 ^ 64 % 2 ^ 8) ∧ t.chip.regs = c.regs) ∧
    (b = MP_NOW_HI.now_hi.addr → answers (.rcRead a src x) ((Tab.get none c.csr.caps (srcNum src * 2 ^ 26 + b)).getD 0) fun t =>
      t.chip.regs = c.regs) ∧
    (b = PWR_LATE_CNT.count.addr → answers (.rcRead a src x) (c.fld PWR_LATE_CNT.count) fun t =>
      t.chip.fld PWR_LATE_CNT.count = 0 ∧ RegsWithin [(b, b + 4)] c t.chip) ∧
    (b = PWR_MARGIN.us.addr → answers (.rcRead a src x) (c.fld PWR_MARGIN.us) fun t => t.chip.regs = c.regs)) ∧
  (∀ (s : State) (a : BitVec 24) (src : Src) (v : Word) (x : CsrEnv) (be : BitVec 4), let c := s.chip
    let b := csrAddr a
    let recorded (t : State) (kind : Nat) : Prop := t.mem = s.mem ∧ t.chip.flag GC_DECODE.valid = true ∧ t.chip.flag GC_ERR.decode = true ∧
      t.chip.fld GC_DECODE_CNT.count = satN 32 (c.fld GC_DECODE_CNT.count + 1) ∧
      (c.flag GC_DECODE.valid = true → t.chip.fld GC_DECODE.offset = c.fld GC_DECODE.offset ∧ t.chip.fld GC_DECODE.kind = c.fld GC_DECODE.kind) ∧
      (c.flag GC_DECODE.valid = false → t.chip.fld GC_DECODE.offset = a.toNat ∧ t.chip.fld GC_DECODE.kind = kind ∧
        t.chip.flag GC_DECODE.debug = decide (src = .twivel))
    c.csrGate src b = .open →
    (regFind b = none → (Completes (.unassignedAccess a src none) s fun t => recorded t 1 ∧ t.chip.out = c.out ++ [.csr src b 0]) ∧
      (Completes (.unassignedAccess a src (some (v, be))) s fun t => recorded t 2 ∧ t.chip.out = c.out) ∧
      Completes (.registerWrite a src v x) s fun t => recorded t 2 ∧ t.chip.out = c.out) ∧
    (regFind b ≠ none → be ≠ 15 → Completes (.unassignedAccess a src (some (v, be))) s fun t => recorded t 3 ∧ t.chip.out = c.out) ∧
    (regFind b ≠ none → exec (.unassignedAccess a src none) s = .next s ∧ exec (.unassignedAccess a src (some (v, 15))) s = .next s)) ∧
  (∀ (s : State) (a : BitVec 24) (src : Src) (v : Word) (x : CsrEnv) (q : Fin 4), let c := s.chip
    let b := csrAddr a
    let w : CsrWait := ⟨src, b, some v.toNat, x⟩
    let there : Prop := 0x02000000 + q.val * 0x800000 ≤ b ∧ b < 0x02000000 + (q.val + 1) * 0x800000
    (c.fld PWR_STATUS.state = 4 → exec (.registerWrite a src v x) s = .next s ∧ exec (.rcRead a src x) s = .next s) ∧
    (c.fld PWR_STATUS.state = 3 → c.pwr.sealing = none → Completes (.registerWrite a .host v x) s fun t => t.mem = s.mem ∧
      t.chip.csr.waiting = c.csr.waiting ++ [⟨.host, b, some v.toNat, x⟩] ∧ 4 ∈ t.chip.pwr.waking) ∧
    (c.tileUp = true → there → c.offline q = true → (Completes (.registerWrite a src v x) s fun t => t.mem = s.mem ∧ t.chip.out = c.out ∧
        t.chip.csr = c.csr ∧ t.chip.flag NOC_ERR.csr_closed = (decide (src = .host) || c.flag NOC_ERR.csr_closed)) ∧
      Completes (.rcRead a src x) s fun t => t.mem = s.mem ∧ t.chip.out = c.out ++ [.csr src b 0]) ∧
    (c.tileUp = true → there → c.offline q = false → c.portState (64 * q.val + 63) 5 = 0 → c.qstate q ≠ 0 → c.pwr.sealing = none →
      Completes (.registerWrite a src v x) s fun t => t.mem = s.mem ∧ t.chip.csr.waiting = c.csr.waiting ++ [w] ∧
        q.val ∈ t.chip.pwr.waking ∧ Tab.get 0 t.chip.pwr.busyAt q = c.now ∧
        (q.val ∉ c.pwr.waking → t.chip.fld PWR_STATUS.wake_cause = 3)))

/-- O4. Every step keeps the tile DRAM in its one canonical form. -/
def Obligations.StepKeepsSound : Prop :=
  ∀ s t : State, Sound s → step s = .next t → Sound t

/-- O5. The tile after power-on is sound, idle and unwritten, and its registers read their reset values. -/
def Obligations.ResetIsSound : Prop :=
  Sound State.reset ∧ State.reset.pending = [] ∧ State.reset.mem = [] ∧ State.reset.chip.out = [] ∧ State.reset.chip.now = 0 ∧
  State.reset.chip.lq.entries = [] ∧ State.reset.chip.inflight = [] ∧ State.reset.chip.pwr.mark = none ∧
  (∀ f : Fld, State.reset.chip.fld f = f.reset % 2 ^ f.width ∧ State.reset.chip.act f = f.reset % 2 ^ f.width ∧
    State.reset.chip.stg f = f.reset % 2 ^ f.width) ∧
  (let r (f : Fld) (v : Nat) : Prop := State.reset.chip.fld f = v
   r PWR_CTRL.qmax 0xAA ∧ r PWR_CTRL.max_state 3 ∧ r PWR_MARGIN.us 10 ∧ r PWR_TEMP_WARN.warn 0x140 ∧ r PWR_TEMP_CRIT.crit 0x168 ∧
   r DBG_CTRL.max_wait 0x100 ∧ r WDG_PERIOD.ms 0x3E8 ∧ r OD_MARGIN_MIN.min 0xC8 ∧ r OD_INTERVAL.s 0x258 ∧ r MP_ALIGN_LIMIT.limit 20 ∧
   r MP_SERVO.ki_shift 6 ∧ (∀ q < 4, State.reset.chip.act (FL_LIMIT.limit q) = 128))

/-- O6. The Milepost counter advances once per REF cycle by the value of its rate word. -/
def Obligations.MilepostCounts : Prop :=
  (∀ s : State, s.chip.mp.absorb = none → Completes (.refCycle none none) s fun t =>
    t.chip.now = (s.chip.now + (s.chip.mp.frac + (nominalRate + s.chip.mp.freq + s.chip.slewStep).toNat) / 2 ^ 32) % 2 ^ 72 ∧
    t.chip.mp.frac = (s.chip.mp.frac + (nominalRate + s.chip.mp.freq + s.chip.slewStep).toNat) % 2 ^ 32 ∧
    t.chip.mp.slew = s.chip.mp.slew - s.chip.slewStep ∧ t.chip.mp.freq = s.chip.mp.freq) ∧
  (∀ (s : State) (k : Fin 3), s.chip.mp.absorb = none → Completes (.refCycle (some k) none) s fun t =>
    t.chip.flag MP_ERR.counter_fault = true ∧
    t.chip.now = (s.chip.now + (s.chip.mp.frac + (nominalRate + s.chip.mp.freq + s.chip.slewStep).toNat) / 2 ^ 32) % 2 ^ 72)

/-- O7. Outside an absorption the rate word stays within 100 ppm of the frequency term, and an absorption slows it to no less than one sixteenth of nominal. -/
def Obligations.RateWordBounds : Prop :=
  (∀ c : Chip, c.mp.absorb = none → c.mp.freq.natAbs ≤ ppmRate 100 → c.fld MP_CTRL.slew_limit ≤ 100 →
    9998 * nominalRate ≤ 10000 * c.rateWord ∧ 10000 * c.rateWord ≤ 10002 * nominalRate) ∧
  (∀ c : Chip, c.mp.absorb.isSome → c.mp.freq.natAbs ≤ ppmRate 100 →
    absorbRate ≤ c.rateWord ∧ c.rateWord ≤ nominalRate + ppmRate 100) ∧
  (∀ (s t : State) (u : Fin 8) (x t4 : Nat), s.chip.mp.freq.natAbs ≤ ppmRate 100 →
    exec (.followUp u x t4) s = .next t → t.chip.mp.freq.natAbs ≤ ppmRate 100)

/-- O8. Between wraps of the counter a REF cycle never leaves it where it was or behind. -/
def Obligations.CounterNeverTurnsBack : Prop :=
  ∀ (s t : State) (k : Option (Fin 3)), s.chip.mp.freq.natAbs ≤ ppmRate 100 → s.chip.fld MP_CTRL.slew_limit ≤ 100 →
    s.chip.mp.frac < 2 ^ 32 → s.chip.now + 20000 < 2 ^ 72 → exec (.refCycle k none) s = .next t →
    s.chip.now + 640 ≤ t.chip.now ∧ t.chip.now ≤ s.chip.now + 10243

/-- O9. The messages of a time-transfer exchange, its judgement, and the third exchange missed in a row. -/
def Obligations.TimeTransfer : Prop :=
  (∀ (s : State) (u : Fin 8), s.chip.fld (TRK_CTRL.role u) = 2 → s.chip.flag (TRK_STATUS.enrolled u) → s.chip.portActive u →
    Completes (.syncTimer u) s fun t => ∃ a hops st tol, t.chip.out = s.chip.out ++
      [.trunk u .sync 0 a [s.chip.mp.xnum, s.chip.now, hops, st, tol, s.chip.fld MP_EPOCH.epoch]]) ∧
  (∀ (s : State) (u : Fin 8) (x t1 hops : Nat), s.chip.disciplined u → hops < 5 →
    Completes (.sync u x t1 hops) s fun t =>
      t.chip.mp.xchg = some ⟨u, x, t1, s.chip.now, none, s.chip.fldS (MP_TRUNK_ASYM.asym u)⟩ ∧
      t.chip.fld MP_STATUS.hops = hops + 1) ∧
  (∀ (s : State) (p x t1 t2 : Nat) (asym : Int), s.chip.mp.xchg = some ⟨p, x, t1, t2, none, asym⟩ →
    s.chip.now ≤ t2 + 100 * usMT → s.chip.portActive p →
    Completes .delayReqSend s fun t => t.chip.mp.xchg = some ⟨p, x, t1, t2, some s.chip.now, asym⟩ ∧
      ∃ a, t.chip.out = s.chip.out ++ [.trunk p .delayReq 0 a [x]]) ∧
  (∀ (s : State) (u : Fin 8) (x : Nat), Tab.get none s.chip.mp.syncSent u = some x → s.chip.portActive u →
    Completes (.delayReq u x) s fun t => ∃ a, t.chip.out = s.chip.out ++ [.trunk u .followUp 0 a [x, s.chip.now]]) ∧
  (∀ (s : State) (u : Fin 8) (x t1 t2 t3 t4 : Nat) (asym : Int),
    s.chip.mp.xchg = some ⟨u, x, t1, t2, some t3, asym⟩ → s.chip.disciplined u → s.chip.mp.meanEmpty →
    Completes (.followUp u x t4) s fun t =>
      t.chip.fld MP_PATH_DELAY.delay = patternOf 32 (clampS 32 (exchangeDelay t1 t2 t3 t4)) ∧
      t.chip.mp.theta = exchangeTheta t1 t2 t3 t4 asym ∧ t.chip.mp.meanEmpty = false ∧ t.chip.mp.xchg = none) ∧
  (∀ s : State, s.chip.disciplined (s.chip.fld MP_UPSTREAM.trunk) → Completes .exchangeMissing s fun t =>
    t.chip.fld MP_REJECT_CNT.count = min (s.chip.fld MP_REJECT_CNT.count + 1) (2 ^ 32 - 1) ∧
    (s.chip.mp.missRun = 2 → s.chip.fld MP_STATUS.state ≠ 3 → s.chip.mp.absorb = none →
      t.chip.fld MP_STATUS.state = 3 ∧ t.chip.flag MP_ERR.upstream_lost = true ∧ t.chip.mp.freq = s.chip.mp.freq))

/-- O10. Writes and commands of Milepost, holdover, and the end of an absorption. -/
def Obligations.MilepostSetAndHold : Prop :=
  (∀ (s : State) (v : Word), MP_CTRL.source.of v.toNat < 3 → 1 ≤ MP_CTRL.slew_limit.of v.toNat →
    MP_CTRL.slew_limit.of v.toNat ≤ 100 → Completes (.mpCtrlWrite v) s fun t =>
      t.chip.fld MP_CTRL.source = MP_CTRL.source.of v.toNat ∧ t.chip.fld MP_CTRL.en = MP_CTRL.en.of v.toNat ∧
      t.chip.fld MP_CTRL.slew_limit = MP_CTRL.slew_limit.of v.toNat) ∧
  (∀ (s : State) (v : Word), s.chip.fld MP_UPSTREAM.trunk ≠ MP_UPSTREAM.trunk.of v.toNat →
    Completes (.mpUpstreamWrite v) s fun t => t.chip.fld MP_UPSTREAM.trunk = MP_UPSTREAM.trunk.of v.toNat ∧
      t.chip.fld MP_UPSTREAM.valid = MP_UPSTREAM.valid.of v.toNat ∧ t.chip.mp.meanEmpty = true) ∧
  (∀ s : State, let T := s.chip.fld3 MP_SET_LO.set_lo MP_SET_HI.set_hi MP_SET_TOP.set_top
    s.chip.isManager → Completes .mpSet s fun t =>
      (T < s.chip.now → t.chip.flag MP_ERR.set_backward = true ∧ t.chip.mp = s.chip.mp) ∧
      (s.chip.now ≤ T → T ≤ s.chip.now + 1024 →
        t.chip.mp.slew = ((T : Int) - s.chip.now) * 2 ^ 32 ∧ t.chip.now = s.chip.now) ∧
      (s.chip.now + 1024 < T → T < s.chip.now + 2 ^ 63 → s.chip.openWin = false →
        t.chip.pendingStep = (T : Int) - s.chip.now ∧ t.chip.flag MP_STATUS.pending = true ∧ t.chip.mp.slew = 0 ∧
        t.chip.now = s.chip.now)) ∧
  (∀ s : State, s.chip.flag MP_CTRL.en → Completes .mpResync s fun t =>
    t.chip.mp.meanEmpty = true ∧ t.chip.mp.openWin = true ∧ t.chip.mp.xchg = none ∧ t.chip.now = s.chip.now) ∧
  (∀ s : State, s.chip.fld MP_STATUS.state = 3 → Completes .holdoverTick s fun t =>
    t.chip.fld MP_HOLD_EST.est = satN 32 ((s.chip.mp.holdAcc + s.chip.fld MP_HOLD_PPT.ppt * 1024) / 1000000)) ∧
  (∀ s : State, s.chip.isManager → s.chip.flag MP_CTRL.en → s.chip.fld MP_CTRL.source = 1 →
    s.chip.fld MP_STATUS.state ≠ 3 → Completes .refInLoss s fun t =>
      t.chip.fld MP_STATUS.state = 3 ∧ t.chip.mp.freq = s.chip.mp.freq) ∧
  (∀ s : State, s.chip.isManager → s.chip.flag MP_CTRL.en → s.chip.fld MP_CTRL.source = 1 →
    s.chip.fld MP_STATUS.state = 3 → Completes .refInReturn s fun t => t.chip.fld MP_STATUS.state = 1) ∧
  (∀ (s : State) (a : Absorb) (cals : List GroupCal) (r : Resp), s.chip.mp.absorb = some a → a.left = 0 → a.back < 4 →
    s.chip.lq.crossing = none → Completes (.absorbComplete cals r) s fun t =>
      t.chip.mp.absorb = none ∧ t.chip.fld MP_STATUS.state = a.back ∧
      t.chip.fld2 MP_LASTSTEP_LO.step_lo MP_LASTSTEP_HI.step_hi = patternOf 64 (-(a.size : Int)))

/-- O11. What a push, a cancel and the launch messages do to the queue. -/
def Obligations.LaunchInsertion : Prop :=
  (∀ (s : State) (v : Word), let c := s.chip
    let T := c.fld3 LQ_NEW_T_LO.t_lo LQ_NEW_T_HI.t_hi LQ_NEW_T_TOP.t_top
    let a := c.fld LQ_NEW_ACTION.type
    let g := c.fld LQ_NEW_ARG.arg
    bit v.toNat 0 → c.fld LQ_NEW_ACTION.scope = 0 →
    Completes (.launchPush v) s fun t =>
      (badAction a g = false → c.namesOffline a g = false → c.lq.entries.length < 1024 → ∃ r,
        t.chip.lq.entries = c.lq.entries ++ [⟨T, a, g, c.lq.nextId, c.lq.nextOrd, none, r, none⟩] ∧
        t.chip.fld LQ_NEW_ID.id = c.lq.nextId % 2 ^ 32 ∧
        t.chip.fld LQ_NEW_RESULT.disp = if T < c.now + c.fld LQ_GUARD.guard then 2 else 1) ∧
      (badAction a g = false → c.namesOffline a g = false → 1024 ≤ c.lq.entries.length →
        t.chip.lq.entries = c.lq.entries ∧ t.chip.fld LQ_NEW_RESULT.disp = 3 ∧ t.chip.flag LQ_ERR.queue_full = true) ∧
      (badAction a g = true ∨ c.namesOffline a g = true →
        t.chip.lq.entries = c.lq.entries ∧ t.chip.fld LQ_NEW_RESULT.disp = 4 ∧ t.chip.flag LQ_ERR.bad_action = true)) ∧
  (∀ (s : State) (v : Word), bit v.toNat 0 → s.chip.fld LQ_NEW_ACTION.scope ≠ 0 → s.chip.isManager = false →
    Completes (.launchPush v) s fun t =>
      t.chip.lq.entries = s.chip.lq.entries ∧ t.chip.fld LQ_NEW_RESULT.disp = 4 ∧ t.chip.flag LQ_ERR.bad_action = true ∧
      t.chip.out = s.chip.out) ∧
  (∀ (s : State) (v : Word) (e : LqEntry), s.chip.isManager = false → s.chip.findId v.toNat = some e →
    Completes (.launchCancel v) s fun t =>
      t.chip.lq.entries = s.chip.lq.entries.filter (fun x => x.order ≠ e.order) ∧ t.chip.fld LQ_NEW_RESULT.disp = 5) ∧
  (∀ (s : State) (v : Word), s.chip.findId v.toNat = none → Completes (.launchCancel v) s fun t =>
      t.chip.lq.entries = s.chip.lq.entries ∧ t.chip.fld LQ_NEW_RESULT.disp = 0) ∧
  (∀ (s : State) (u : Fin 8) (ack ep id T a g sc tg : Nat), let c := s.chip
    c.portActive u → Completes (.launch u (c.port u).expect ack ep id T a g sc tg) s fun t =>
      (c.lq.seen.contains (ep, id) = true → t.chip.lq.entries = c.lq.entries ∧ t.chip.flag LQ_ERR.dup_seen = true) ∧
      (c.lq.seen.contains (ep, id) = false → c.scopeMatches sc tg = true → badAction a g = false →
        c.namesOffline a g = false → c.lq.entries.length < 1024 →
        ∃ r, t.chip.lq.entries = c.lq.entries ++ [⟨T, a, g, id, c.lq.nextOrd, some ep, r, none⟩])) ∧
  (∀ (s : State) (u : Fin 8) (ack id : Nat) (e : LqEntry), s.chip.portActive u →
    firstEntry (s.chip.lq.entries.filter fun x => x.id = id && x.sys.isSome) = some e →
    Completes (.cancel u (s.chip.port u).expect ack id) s fun t =>
      t.chip.lq.entries = s.chip.lq.entries.filter fun x => x.order ≠ e.order) ∧
  (∀ (s : State) (u : Fin 8) (ack tile id code : Nat), s.chip.portActive u → s.chip.isManager →
    id = s.chip.fld LQ_SYS_ID.id → code = 1 ∨ code = 2 →
    Completes (.report u (s.chip.port u).expect ack tile id code) s fun t =>
      t.chip.fld LQ_SYS_ACK.acks = min (s.chip.fld LQ_SYS_ACK.acks + 1) (2 ^ 13 - 1) ∧
      t.chip.fld LQ_SYS_ACK.refusals = s.chip.fld LQ_SYS_ACK.refusals)

/-- O12. A due launch executes on time, LATE or is rejected, by its lateness. -/
def Obligations.LaunchExecution : Prop :=
  (∀ e : LqEntry, e.instant = e.ready.map fun r => max (max e.t (r + 32768)) (e.rel.getD 0)) ∧
  (∀ (s : State) (e : LqEntry) (i : Nat) (ls : List Levels) (cals : List GroupCal) (r : Resp) (x : Instr),
    s.chip.lqDue = some e → e.instant = some i → s.chip.fld LQ_LATE_TOL.tol < i - e.t →
    (e.action, x) ∈ [(0, Instr.mark), (1, .startLeg), (2, .commit), (3, .halt), (4, .abort), (5, .capture), (6, .trigger),
      (7, .crossing ls cals r)] →
    Completes x s fun t => t.chip.lq.entries = s.chip.lq.entries.filter (fun y => y.order ≠ e.order) ∧
      t.chip.fld LQ_CNT_REJECT.count = min (s.chip.fld LQ_CNT_REJECT.count + 1) (2 ^ 32 - 1) ∧
      t.chip.flag LQ_ERR.late_reject = true ∧ t.chip.groups = s.chip.groups) ∧
  (∀ (s : State) (e : LqEntry) (i : Nat) (x : Instr),
    s.chip.lqDue = some e → e.instant = some i → e.t ≤ i → i - e.t ≤ s.chip.fld LQ_LATE_TOL.tol → s.chip.inTol = true →
    (e.action, x) ∈ [(0, Instr.mark), (6, .trigger)] →
    Completes x s fun t => t.chip.lq.entries = s.chip.lq.entries.filter (fun y => y.order ≠ e.order) ∧
      (i = e.t → t.chip.fld LQ_CNT_EXEC.count = min (s.chip.fld LQ_CNT_EXEC.count + 1) (2 ^ 32 - 1)) ∧
      (i ≠ e.t → t.chip.fld LQ_CNT_LATE.count = min (s.chip.fld LQ_CNT_LATE.count + 1) (2 ^ 32 - 1) ∧
        t.chip.fld LQ_LAST_LATE.late = i - e.t) ∧
      (x = .mark → (⟨55, 0, i % 2 ^ 56, [e.arg]⟩ : Raised) ∈ t.chip.inflight) ∧
      (x = .trigger → ∀ q ∈ maskQuarters (bits e.arg 4 4), Out.trigger q (bits e.arg 0 4) i ∈ t.chip.out))

/-- O13. A commit set is all or nothing, and a crossing cuts every leg and opens the next batch. -/
def Obligations.CommitsAndCrossings : Prop :=
  (∀ (s : State) (n : Fin 16), s.chip.setGroups n = [] → Completes (.commitNow n) s fun t =>
    t.chip.fld LQ_COMMIT_STATUS.state = 2 ∧ t.chip.active = s.chip.active ∧ t.chip.staged = s.chip.staged) ∧
  (∀ (s : State) (n : Fin 16) (g b : Nat) (gs : List Nat), s.chip.setGroups n = g :: gs → s.chip.tileUp →
    (g :: gs).find? (s.chip.groupBad (g :: gs)) = some b → Completes (.commitNow n) s fun t =>
      t.chip.fld LQ_COMMIT_STATUS.state = 3 ∧ t.chip.fld LQ_COMMIT_STATUS.bad_group = b % 256 ∧
      t.chip.flag LQ_ERR.commit_refused = true ∧ t.chip.active = s.chip.active ∧ t.chip.staged = s.chip.staged) ∧
  (∀ (s : State) (n : Fin 16) (g : Nat) (f : Fld), s.chip.setGroups n = [g] → s.chip.tileUp → g < 64 →
    s.chip.groupBad [g] g = false → s.chip.gstate g ≠ 3 → s.chip.lq.commits = [] →
    Completes (.commitNow n) s fun t => t.chip.fld LQ_COMMIT_STATUS.state = 2 ∧
      t.chip.act f = if groupHas g (f.key / 8) then s.chip.stg f else s.chip.act f) ∧
  (∀ (s : State) (n : Fin 16) (g : Nat), s.chip.setGroups n = [g] → s.chip.tileUp → g < 64 →
    s.chip.groupBad [g] g = false → s.chip.gstate g = 3 → s.chip.lq.commits = [] → Completes (.commitNow n) s fun t =>
      t.chip.fld LQ_COMMIT_STATUS.state = 1 ∧ t.chip.active = s.chip.active ∧
      t.chip.pendingSnap g = some (s.chip.snapshot g)) ∧
  (∀ (s : State) (g : Fin 136) (k : Commit), g.val < 64 → s.chip.lq.commits = [k] → k.groups = [(g.val, s.chip.snapshot g)] →
    k.last = true → Completes (.groupSwitch g) s fun t => t.chip.fld LQ_COMMIT_STATUS.state = 2 ∧ t.chip.lq.commits = []) ∧
  (∀ (s : State) (e : LqEntry) (i g : Nat) (f : Fld), let c := s.chip
    c.lqDue = some e → e.action = 2 → e.instant = some i → i - e.t ≤ c.fld LQ_LATE_TOL.tol → c.inTol = true → g < 64 →
    c.setGroups (e.arg % 16) = [g] → c.groupBad [g] g = false → c.gstate g ≠ 3 → c.lq.commits = [] →
    Completes .commit s fun t => t.chip.fld LQ_COMMIT_STATUS.state = 2 ∧
      t.chip.lq.entries = c.lq.entries.filter (fun y => y.order ≠ e.order) ∧
      t.chip.act f = if groupHas g (f.key / 8) then c.stg f else c.act f) ∧
  (∀ (s : State) (e : LqEntry) (i : Nat) (ls : List Levels) (cals : List GroupCal) (r : Resp), let c := s.chip
    let batch := c.fld LQ_BATCH.batch
    let crossed (t : State) (x : Nat) : Prop := t.mem = s.mem ∧ t.chip.fld LQ_BATCH.batch = (batch + 1) % 2 ^ 32 ∧
      t.chip.fld LQ_STATUS.xstate = 0 ∧ t.chip.lq.crossing = none ∧ t.chip.marks = [] ∧ t.chip.lq.batch.openStamp = c.now ∧
      (∀ g < 64, (t.chip.group g).leg = none) ∧ ⟨46, 0, recStamp x, [batch]⟩ ∈ t.chip.inflight ∧
      t.chip.fld (LQ_LAST_SUM.sum 0) = batch ∧ (c.fld LQ_SUM_COUNT.count = 0 → t.chip.flag LQ_ERR.no_summary = true)
    let clear : Prop := c.pendingStep = 0 ∧ c.mp.absorb = none ∧ c.lq.waiting = 0
    (c.tileUp = false ∨ c.pwr.mark ≠ none → exec (.crossingNow ls cals r) s = .next s) ∧
    (c.tileUp = true → c.pwr.mark = none → c.lq.crossing ≠ none → exec (.crossingNow ls cals r) s =
      .next { s with chip := { c with lq := { c.lq with waiting := c.lq.waiting + 1 } } }) ∧
    (c.tileUp = true → c.pwr.mark = none → c.lq.crossing = none → clear →
      Completes (.crossingNow ls cals r) s fun t => crossed t c.now) ∧
    (c.lqDue = some e → e.action = 7 → e.instant = some i → i - e.t ≤ c.fld LQ_LATE_TOL.tol → c.inTol = true → clear →
      Completes (.crossing ls cals r) s fun t => crossed t i ∧ ∀ y ∈ t.chip.lq.entries, y.order ≠ e.order))

/-- O14. Match writes and lookups, avenue contention, reflex flags cleared. -/
def Obligations.FabricCommands : Prop :=
  (∀ (s : State) (r : Fin 64) (cl : Fin 1536) (lb : Fin 8) (en : BitVec 6) (ok : Bool) (m v : BitVec 40) (w : Nat),
    let x := s.chip.region r
    let l := 8 * cl.val + lb.val
    Completes (.matchPortWrite r cl lb en ok m v w) s fun t =>
      (Tab.get 0 x.lbMode l ≠ 0 → en.toNat ≤ 55 → (x.entry l en.toNat).writes.length ≤ 3 →
        (∀ k, w + 2 ≤ k → ((t.chip.region r).entry l en.toNat).at_ k = ⟨ok, m.toNat, v.toNat, true⟩) ∧
        (∀ k, k < w + 2 → ((t.chip.region r).entry l en.toNat).at_ k =
          (x.entry l en.toNat).at_ k)) ∧
      (Tab.get 0 x.lbMode l = 0 ∨ 55 < en.toNat →
        t.chip.flag (FAB_ERR.port_discard r) = true ∧ t.chip.regions = s.chip.regions)) ∧
  (∀ (s : State) (r : Fin 64) (lb : Fin 12288) (key : BitVec 160) (edge : Nat), let x := s.chip.region r
    Tab.get 0 x.lbMode lb = 1 → (∀ e < 56, ((x.entry lb e).at_ edge).parity = true) →
    Completes (.matchLookup r lb key edge []) s fun t =>
      ((∀ e < 56, x.matches 1 lb key.toNat edge e = false) →
        t.chip.out = s.chip.out ++ [.fabric r 2 [lb, 0, 0, 63, 0]]) ∧
      (∀ h < 56, (∀ e < 56, x.matches 1 lb key.toNat edge e = decide (e = h)) →
        t.chip.out = s.chip.out ++ [.fabric r 2 [lb, 1, 0, h, 2 ^ (h / 7)]])) ∧
  (∀ (s : State) (r : Fin 64) (av : Fin 640) (a b d on : Nat), a < b → b < 48 →
    (s.chip.region r).disabled.contains av.val = false → Completes (.avenueContention r av [a, b] d on) s fun t =>
      (512 ≤ d → t.chip.flag (FAB_ERR.contention r) = true ∧ t.chip.flag (FAB_STATUS.faulted r) = true ∧
        (t.chip.region r).disabled.contains av.val = true ∧
        (s.chip.flag (FAB_CONT_AVENUE.valid r) = false → t.chip.fld (FAB_CONT_AVENUE.avenue r) = av ∧
          t.chip.fld (FAB_CONT_AVENUE.pos_a r) = a ∧ t.chip.fld (FAB_CONT_AVENUE.pos_b r) = b)) ∧
      (d < 512 → t = s)) ∧
  (∀ (s : State) (r : Fin 64) (v : BitVec 4), Completes (.clearFlags r v) s fun t => ∀ f < 4,
    bit (t.chip.fld (FAB_REFLEX_FLAGS.flags r)) f = (bit (s.chip.fld (FAB_REFLEX_FLAGS.flags r)) f && !bit v.toNat f))

/-- O15. Settings of the clock PLLs and clock trees, lock and loss of lock. -/
def Obligations.ClockCommands : Prop :=
  (∀ (s : State) (q p : Fin 4) (v : Word), let c := s.chip
    let n := (QC_CPLL_CFG.n q p).of v.toNat
    let m := (QC_CPLL_CFG.m_minus1 q p).of v.toNat + 1
    let d := (QC_CPLL_CFG.p_minus1 q p).of v.toNat + 1
    let ok := (20 ≤ n ∧ n ≤ 160 ∧ 2 ≤ d ∧ 2000 * m ≤ 100 * n ∧ 100 * n ≤ 4000 * m) ∧
      ∀ g < 16, c.fld (QC_GCK_SEL.src q g) = p.val + 1 → 100 * n ≤ 1000 * m * d * 2 ^ c.fld (QC_GCK_SEL.div q g)
    Completes (.cpllConfigWrite q p v) s fun t =>
      (ok → t.chip.fld (QC_CPLL_CFG.n q p) = n ∧ t.chip.fld (QC_CPLL_CFG.m_minus1 q p) + 1 = m ∧
        t.chip.fld (QC_CPLL_CFG.p_minus1 q p) + 1 = d) ∧
      (¬ok → t.chip.fld (QC_CPLL_CFG.n q p) = c.fld (QC_CPLL_CFG.n q p) ∧ t.chip.flag (QC_CLK_ERR.bad_value q) = true ∧
        t.chip.fld (QC_CPLL_CFG.p_minus1 q p) = c.fld (QC_CPLL_CFG.p_minus1 q p))) ∧
  (∀ (s : State) (q : Fin 4) (g : Fin 16) (v : Word), let src := (QC_GCK_SEL.src q g).of v.toNat
    Completes (.gckSelectWrite q g v) s fun t =>
      (src = 0 ∨ src = 5 → t.chip.fld (QC_GCK_SEL.src q g) = src ∧
        t.chip.fld (QC_GCK_SEL.div q g) = (QC_GCK_SEL.div q g).of v.toNat) ∧
      (1 ≤ src → src ≤ 4 → let (n, m, k) := s.chip.cpllSetting q (src - 1)
        100 * n ≤ 1000 * (m + 1) * (k + 1) * 2 ^ (QC_GCK_SEL.div q g).of v.toNat →
        t.chip.fld (QC_GCK_SEL.src q g) = src) ∧
      (6 ≤ src → t.chip.fld (QC_GCK_SEL.src q g) = s.chip.fld (QC_GCK_SEL.src q g) ∧
        t.chip.flag (QC_CLK_ERR.bad_value q) = true)) ∧
  (∀ (s : State) (q p : Fin 4), (s.chip.cpll q p).state = 1 → Completes (.cpllLock q p) s fun t =>
    bit (t.chip.fld (QC_STATUS.locked q)) p = true ∧ (t.chip.cpll q p).state = 2) ∧
  (∀ (s : State) (q p : Fin 4), (s.chip.cpll q p).state = 2 → Completes (.cpllLockLost q p) s fun t =>
    (∀ g < 16, bit (t.chip.fld (QC_STATUS.gck_stopped q)) g =
      (bit (s.chip.fld (QC_STATUS.gck_stopped q)) g || decide (s.chip.fld (QC_GCK_SEL.src q g) = p.val + 1))) ∧
    bit (t.chip.fld (QC_CLK_ERR.lock_lost q)) p = true ∧ bit (t.chip.fld (QC_STATUS.locked q)) p = false ∧
    ∃ e ∈ t.chip.inflight, e.num = 24 + q) ∧
  (∀ (s : State) (q : Fin 4), Completes (.clkRestart q) s fun t => t.chip.fld (QC_STATUS.gck_stopped q) = 0)

/-- O16. State capture. -/
def Obligations.CaptureCommands : Prop :=
  (∀ (s : State) (q : Fin 4), s.chip.fld (QC_CAP_STATUS.state q) = 0 → (s.chip.quarter q).capture = none →
    Completes (.capNow q) s fun t =>
      (s.chip.quarterRun q = true → (t.chip.quarter q).capture = some s.chip.now) ∧
      (s.chip.quarterRun q = false → t.chip.flag (QC_CLK_ERR.cap_refused q) = true ∧ (t.chip.quarter q).capture = none)) ∧
  (∀ (s : State) (e : LqEntry) (i : Nat), s.chip.lqDue = some e → e.instant = some i → e.action = 5 → e.t ≤ i →
    i - e.t ≤ s.chip.fld LQ_LATE_TOL.tol → s.chip.inTol = true → Completes .capture s fun t =>
      ∀ q ∈ maskQuarters (bits e.arg 0 4), s.chip.fld (QC_CAP_STATUS.state q) = 0 → (s.chip.quarter q).capture = none →
        (t.chip.quarter q).capture = some i) ∧
  (∀ (s : State) (q : Fin 4) (t0 edge : Nat) (vals : List (Nat × List (Nat × Nat))),
    (s.chip.quarter q).capture = some t0 → t0 ≤ edge → edge ≤ t0 + usMT →
    s.chip.gckRuns q (s.chip.fld (QC_CAP_CTRL.gck q)) → Completes (.captureEdge q edge vals) s fun t =>
      t.chip.fld (QC_CAP_STATUS.state q) = 1 + s.chip.fld (QC_CAP_CTRL.mode q) ∧
      (∀ r < 16, bit (t.chip.fld (QC_CAP_STATUS.captured q)) r = (bit (s.chip.fld (QC_CAP_REGIONS.regions q)) r &&
        (s.chip.region (16 * q + r)).loaded && !(s.chip.region (16 * q + r)).loading)) ∧
      t.chip.fld2 (QC_CAP_STAMP_LO.stamp_lo q) (QC_CAP_STAMP_HI.stamp_hi q) = edge % 2 ^ 56 ∧
      (t.chip.quarter q).capture = none) ∧
  (∀ (s : State) (q : Fin 4) (t0 : Nat), (s.chip.quarter q).capture = some t0 → t0 + usMT ≤ s.chip.now →
    Completes (.captureTimeout q) s fun t => (t.chip.quarter q).capture = none ∧
      t.chip.flag (QC_CLK_ERR.cap_refused q) = true ∧
      t.chip.fld (QC_CAP_STATUS.state q) = s.chip.fld (QC_CAP_STATUS.state q)) ∧
  (∀ (s : State) (q : Fin 4), s.chip.fld (QC_CAP_STATUS.state q) = 2 → Completes (.capResume q) s fun t =>
    t.chip.fld (QC_CAP_STATUS.state q) = 1 ∧ (t.chip.quarter q).held = [] ∧
    (t.chip.quarter q).shadow = (s.chip.quarter q).shadow) ∧
  (∀ (s : State) (q : Fin 4), Completes (.capFree q) s fun t =>
    t.chip.fld (QC_CAP_STATUS.state q) = 0 ∧ t.chip.fld (QC_CAP_STATUS.captured q) = 0 ∧ (t.chip.quarter q).shadow = [] ∧
    (t.chip.quarter q).held = [])

/-- O17. What the resets leave. -/
def Obligations.ResetCommands : Prop :=
  (∀ (s : State) (q : Fin 4), Completes (.quarterReset q) s fun t =>
    ((s.chip.quarter q).resetting = true → t = s) ∧
    ((s.chip.quarter q).resetting = false → t.chip.flag (QC_STATUS.ready q) = false ∧ (t.chip.quarter q).resetting = true ∧
      (∀ g < 16, t.chip.fld (QC_GCK_SEL.src q g) = 0) ∧ (∀ p < 4, t.chip.fld (QC_CPLL_CFG.n q p) = 32) ∧
      t.chip.fld (QC_STATUS.gck_stopped q) = 0)) ∧
  (∀ (s : State) (q : Fin 4), (s.chip.quarter q).resetting → s.chip.inRecovery = false → s.chip.tileUp →
    s.chip.offline q = false → (∀ k ∈ ctlsOf q, s.chip.fld (DMC_STATUS.state k) ≠ 7) → s.chip.csr.waiting = [] →
    Completes (.quarterRelease q) s fun t => t.chip.flag (QC_STATUS.ready q) = true ∧ (t.chip.quarter q).resetting = false ∧
      t.chip.qstate q = 0) ∧
  (∀ (s : State) (b : Boot), Completes (.tileReset b) s fun t =>
    (s.chip.pwr.mark.isSome ∨ s.chip.tileUp = false → t = s) ∧
    (s.chip.pwr.mark = none → s.chip.tileUp = true → t.chip.lq.entries = [] ∧ t.chip.now = s.chip.now ∧
      t.chip.fld MP_EPOCH.epoch = s.chip.fld MP_EPOCH.epoch ∧ t.chip.csr = {})) ∧
  (∀ (s : State) (v : Word) (b : Boot),
    (bits v.toNat 16 16 = 0xA5C3 → bit v.toNat 0 → exec (.gcTileReset v b) s = exec (.tileReset b) s) ∧
    (bits v.toNat 16 16 ≠ 0xA5C3 → Completes (.gcTileReset v b) s fun t => t.chip.flag GC_ERR.bad_value = true ∧
      t.chip.lq = s.chip.lq ∧ SameBytes s t)) ∧
  (∀ (s : State) (x : PowerUp), x.epochOk → Completes (.coldStart x) s fun t =>
    t.chip.now = 0 ∧ t.chip.lq.entries = [] ∧ t.chip.fld LQ_BATCH.batch = 0 ∧ t.mem = [] ∧
    t.chip.fld MP_EPOCH.epoch = (if s.chip.fld MP_EPOCH.epoch = 0xFFFF then 1 else s.chip.fld MP_EPOCH.epoch + 1) ∧
    t.chip.fld PWR_STATUS.state = 0)

/-- O18. What a port of a block memory writes, it reads. -/
def Obligations.BlockMemoryReadback : Prop :=
  ∀ (s : State) (b : Fin 10240) (port : Fin 2) (a e e' : Nat) (v : BitVec 144), let x := s.chip.block b
    let w := x.width port
    s.chip.bmClocked b → x.mode = 0 → x.prot = 0 → w ∈ [1, 2, 4, 8, 16, 32, 64] → x.lastW = none →
    x.bad (x.word (a % x.depth w * w / 64)) ≤ 1 →
    Completes (.bmPortWrite b port a v e []) s fun t =>
      SameBytes s t ∧ t.chip.lq = s.chip.lq ∧ (∀ b', b' ≠ b.val → t.chip.block b' = s.chip.block b') ∧
      Completes (.bmPortRead b port a e' []) t fun u =>
        u.chip.out = t.chip.out ++ [.fabric (b / 160) 3 [b % 160, port, v.toNat % 2 ^ w, 0, 0, 0]] ∧
        SameBytes s u ∧ u.chip.lq = s.chip.lq ∧ (∀ b', b' ≠ b.val → u.chip.block b' = s.chip.block b')

/-- O19. Corrected and uncorrectable words of a SEC-DED block. -/
def Obligations.BlockMemoryErrors : Prop :=
  (∀ (s : State) (b : Fin 10240) (port : Fin 2) (a e : Nat), let x := s.chip.block b
    s.chip.bmClocked b → x.mode = 0 → x.prot = 0 → x.width port = 64 → a < 4096 → x.lastW = none → (x.word a).valid →
    Completes (.bmPortRead b port a e []) s fun t =>
      (onesN 72 (x.word a).flips = 1 →
        .fabric (b / 160) 3 [b % 160, port, (x.word a).data, 0, 0, 0] ∈ t.chip.out ∧
        t.chip.fld (BM_CE_CNT.count (b / 160)) = satN 32 (s.chip.fld (BM_CE_CNT.count (b / 160)) + 1) ∧
        (s.chip.flag (BM_RCTL.wb_en (b / 160)) → a ∈ (t.chip.block b).fixes)) ∧
      (2 ≤ onesN 72 (x.word a).flips →
        .fabric (b / 160) 3 [b % 160, port, ((x.word a).data ^^^ (x.word a).flips) % 2 ^ 64, 1, 0, 0] ∈ t.chip.out ∧
        t.chip.fld (BM_UE_CNT.count (b / 160)) = satN 32 (s.chip.fld (BM_UE_CNT.count (b / 160)) + 1) ∧
        t.chip.flag (BM_RERR.ue (b / 160)) = true)) ∧
  (∀ (s : State) (b : Fin 10240) (port : Fin 2) (a e : Nat) (v : BitVec 144), let x := s.chip.block b
    let w := x.width port
    let i := a % x.depth w * w / 64
    s.chip.bmClocked b → x.mode = 0 → x.prot = 0 → w ∈ [1, 2, 4, 8, 16, 32] → x.lastW = none → (x.word i).valid →
    2 ≤ onesN 72 (x.word i).flips → Completes (.bmPortWrite b port a v e []) s fun t =>
      (t.chip.block b).word i = x.word i ∧ t.chip.flag (BM_RERR.rmw_refused (b / 160)) = true) ∧
  (∀ (s : State) (b : Fin 10240) (a : Nat) (l : List Nat), let x := s.chip.block b
    x.fixes = a :: l → x.prot = 0 → (x.word a).valid → onesN 72 (x.word a).flips = 1 →
    Completes (.bmWriteback b) s fun t => (t.chip.block b).fixes = l ∧ ((t.chip.block b).word a).flips = 0 ∧
      (t.chip.block b).value ((t.chip.block b).word a) = x.value (x.word a))

/-- O20. Clears and repair entries of the block memories. -/
def Obligations.BlockMemoryRegisters : Prop :=
  (∀ (s : State) (r : Fin 64) (i : Byte), Completes (.clearBlock r i) s fun t =>
    SameBytes s t ∧
    (i.toNat < 160 → (s.chip.block (160 * r + i.toNat)).prot ≠ 1 → (s.chip.block (160 * r + i.toNat)).filled = false →
      (∀ a, (t.chip.block (160 * r + i.toNat)).value ((t.chip.block (160 * r + i.toNat)).word a) = 0) ∧
      (∀ b, b ≠ 160 * r + i.toNat → t.chip.block b = s.chip.block b)) ∧
    (160 ≤ i.toNat → t.chip.blocks = s.chip.blocks ∧ t.chip.flag (BM_RERR.bad_value r) = true)) ∧
  (∀ (s : State) (r : Fin 64), Completes (.clearFirst r) s fun t =>
    t.chip.flag (BM_FIRST_ERR.valid r) = false ∧ t.chip.fld (BM_FIRST_ERR.kind r) = 0 ∧ t.chip.blocks = s.chip.blocks ∧
    SameBytes s t) ∧
  (∀ (s : State) (b : Fin 10240) (col : Bool) (v : Word), let c := s.chip
    Completes (.bmRepairWrite b col v) s fun t =>
    ((c.region (b / 160)).loaded = true → t.chip.flag (BM_RERR.bad_value (b / 160)) = true ∧
      t.chip.fld (BM_ROWREP.row0 b) = c.fld (BM_ROWREP.row0 b) ∧ t.chip.fld (BM_COLREP.col0 b) = c.fld (BM_COLREP.col0 b)) ∧
    ((c.region (b / 160)).loaded = false → col = true → c.flag (BM_COLREP.fused b) = false →
      t.chip.fld (BM_COLREP.col0 b) = (if (BM_COLREP.col0 b).of v.toNat < 576 then (BM_COLREP.col0 b).of v.toNat
        else c.fld (BM_COLREP.col0 b)) ∧
      t.chip.fld (BM_COLREP.col0_en b) = (BM_COLREP.col0_en b).of v.toNat) ∧
    ((c.region (b / 160)).loaded = false → col = false → c.flag (BM_ROWREP.fused b) = false →
      t.chip.fld (BM_ROWREP.row0 b) = (BM_ROWREP.row0 b).of v.toNat ∧
      t.chip.fld (BM_ROWREP.row1_en b) = (BM_ROWREP.row1_en b).of v.toNat))

/-- O21. Enable, to_idle, START_LEG, HALT and the aborts move pin groups as Table 7.8 says. -/
def Obligations.PinGroupStates : Prop :=
  (∀ (s : State) (g : Fin 64) (v : Word), Completes (.pgrEnableWrite g v) s fun t =>
    SameBytes s t ∧ (∀ h < 64, h ≠ g.val → t.chip.gstate h = s.chip.gstate h) ∧
    (bit v.toNat 0 = true → s.chip.gstate g = 0 → t.chip.gstate g = 1) ∧
    (bit v.toNat 0 = true → s.chip.gstate g ≠ 0 → t.chip.gstate g = s.chip.gstate g) ∧
    (bit v.toNat 0 = false → s.chip.gstate g ≠ 0 → t.chip.gstate g = 0 ∧ (t.chip.group g).leg = none ∧
      ∀ k < 16, t.chip.fld (PCH_STATUS.den (16 * g + k)) = 0 ∧ t.chip.fld (PCH_STATUS.drv (16 * g + k)) = 0)) ∧
  (∀ (s : State) (g : Fin 64), let h := s.chip.fld (PGR_STATUS.hold_cause g)
    Completes (.toIdle g) s fun t =>
      (s.chip.gstate g = 4 → h ≠ 2 → h ≠ 3 → t.chip.gstate g = 1 ∧ t.chip.fld (PGR_STATUS.hold_cause g) = 0) ∧
      (s.chip.gstate g = 4 → h = 2 ∨ h = 3 → t.chip.gstate g = 4 ∧ t.chip.flag (PGR_ERR.bad_value g) = true) ∧
      (s.chip.gstate g ≠ 4 → t = s)) ∧
  (∀ (s : State) (e : LqEntry) (i : Nat), s.chip.lqDue = some e → e.instant = some i → e.action = 1 → e.t ≤ i →
    i - e.t ≤ s.chip.fld LQ_LATE_TOL.tol → s.chip.inTol = true → Completes .startLeg s fun t =>
      ∀ g ∈ maskGroups (bits e.arg 0 4), s.chip.act (PGR_ARM.armed g) = 1 →
        (s.chip.gstate g = 2 → t.chip.gstate g = 3 ∧ ∃ l, (t.chip.group g).leg = some l ∧ l.t = i ∧ l.sum = 0 ∧
          l.count = 0 ∧ l.launch = e.id ∧ l.ending = 0) ∧
        (s.chip.gstate g ≠ 2 → t.chip.gstate g = s.chip.gstate g ∧ t.chip.flag (PGR_ERR.start_refused g) = true)) ∧
  (∀ (s : State) (e : LqEntry) (i : Nat), s.chip.lqDue = some e → e.instant = some i → e.action = 3 → e.t ≤ i →
    i - e.t ≤ s.chip.fld LQ_LATE_TOL.tol → s.chip.inTol = true → Completes .halt s fun t =>
      (⟨54, 0, i % 2 ^ 56, [bits e.arg 0 4]⟩ : Raised) ∈ t.chip.inflight ∧
      ∀ g ∈ maskGroups (bits e.arg 0 4), ∀ l, (s.chip.group g).leg = some l → l.ending = 0 →
        (t.chip.group g).leg = some { l with ending := 3 }) ∧
  (∀ (s : State) (e : LqEntry) (i : Nat), s.chip.lqDue = some e → e.instant = some i → e.action = 4 → e.t ≤ i →
    i - e.t ≤ s.chip.fld LQ_LATE_TOL.tol → s.chip.inTol = true → Completes .abort s fun t =>
      ∀ g < 64, (g ∈ maskGroups (bits e.arg 0 4) → s.chip.gstate g = 2 ∨ s.chip.gstate g = 3 →
          t.chip.gstate g = 4 ∧ t.chip.fld (PGR_STATUS.hold_cause g) = 7 ∧ (t.chip.group g).leg = none) ∧
        (g ∉ maskGroups (bits e.arg 0 4) ∨ s.chip.gstate g < 2 → t.chip.gstate g = s.chip.gstate g)) ∧
  (∀ s : State, Completes .abortNow s fun t =>
      (⟨53, 0, s.chip.now % 2 ^ 56, [0xF]⟩ : Raised) ∈ t.chip.inflight ∧
      ∀ g < 64, (s.chip.gstate g = 2 ∨ s.chip.gstate g = 3 → t.chip.gstate g = 4 ∧
          t.chip.fld (PGR_STATUS.hold_cause g) = 7) ∧
        (s.chip.gstate g < 2 → t.chip.gstate g = s.chip.gstate g))

/-- O22. Vectors are presented, skipped or refused on the grid of the leg. -/
def Obligations.VectorsOnTheGrid : Prop :=
  (∀ (s : State) (g : Fin 64) (n ts line : Nat) (l : Leg) (syms : List Nat) (taint : Bool), let c := s.chip
    c.feeder g = some n → (∀ k < 16, c.act (PCH_SRC.src (16 * g + k)) ≠ 1) → c.act (PGR_SRC.ts_src g) ≠ 1 →
    (c.group g).leg = some l → l.ending = 0 → (c.group g).stalls = [] → c.strPending n = false →
    c.strOffer n = .vector syms ts line taint → Completes (.vectorStart g false) s fun t =>
      let x := t.chip.group g
      let at_ (o : Nat) (a : Int) := roundMT (((l.t * 65536 + l.sum : Nat) : Int) + o * 65536 + a * 65536)
      (∃ l', x.leg = some l' ∧ l'.count = l.count + 1 ∧ l'.sum = l.sum + c.act (TS.period g ts) ∧ l'.t = l.t) ∧
      t.chip.fld2 (PGR_VEC_LO.vec_lo g) (PGR_VEC_HI.vec_hi g) = (l.count + 1) % 2 ^ 64 ∧
      (∀ k < 16, ∀ i < 4, let f := c.act (TS.fmt g ts)
        let a := c.act (pchAct (16 * g + k) f i)
        a ≠ 0 → ∃ e ∈ (x.chan k).sched, e.kind = 0 ∧
          e.at_ = at_ (c.act (TS.drive g ts i)) (signedOf 10 (c.act (PCH_ADJ.drv_adj (16 * g + k)))) ∧
          e.level = slotLevel a (c.mapEntry (16 * g + k) (syms.getD k 0)).1) ∧
      (c.act (TS.smode g ts) = 0 → ∀ k < 16, ∀ i < 2, bit (c.act (PCH_FMT.s_en (16 * g + k) (c.act (TS.fmt g ts)))) i = true →
        ∃ e ∈ x.strobes, ∃ y ∈ e.chans, y.k = k ∧ e.slot = i ∧
          y.at_ = at_ (c.act (if i = 0 then TS.s0 g ts else TS.s1 g ts)) (signedOf 10 (c.act (PCH_ADJ.cmp_adj (16 * g + k)))))) ∧
  (∀ (s : State) (g : Fin 64) (n : Nat) (l : Leg), let c := s.chip
    c.feeder g = some n → (∀ k < 16, c.act (PCH_SRC.src (16 * g + k)) ≠ 1) → c.act (PGR_SRC.ts_src g) ≠ 1 →
    (c.group g).leg = some l → l.ending = 0 → (c.group g).stalls = [] → c.strPending n = false →
    (c.strOffer n = .void → Completes (.vectorStart g false) s fun t =>
      (∃ l', (t.chip.group g).leg = some l' ∧ l'.count = l.count ∧ l'.sum = l.sum + l.period) ∧
      (∀ k, (t.chip.group g).chan k = (c.group g).chan k) ∧
      t.chip.fld (PGR_STALL_VEC.count g) = satN 32 (c.fld (PGR_STALL_VEC.count g) + 1) ∧
      t.chip.fld (STR_VOID_CNT.count n) = satN 32 (c.fld (STR_VOID_CNT.count n) + 1)) ∧
    (∀ a r, c.strOffer n = .poison a r → Completes (.vectorStart g false) s fun t =>
      t.chip.gstate g = 4 ∧ t.chip.fld (PGR_STATUS.hold_cause g) = 6 ∧ (t.chip.group g).leg = none ∧
      t.chip.fld (STR_STATUS.state n) = 4)) ∧
  (∀ (s : State) (g : Fin 64) (l : Leg), (s.chip.group g).leg = some l → Completes (.legEnd g) s fun t =>
    (l.ending = 0 → t = s) ∧
    (l.ending = 1 ∨ l.ending = 2 ∨ l.ending = 3 ∨ l.ending = 5 → t.chip.gstate g = 1 ∧ (t.chip.group g).leg = none ∧
      t.chip.act (PGR_ARM.armed g) = 0) ∧
    (l.ending = 2 → t.chip.lq.batch.legsCut = s.chip.lq.batch.legsCut + 1) ∧
    (l.ending = 4 → t.chip.gstate g = 4 ∧ t.chip.fld (PGR_STATUS.hold_cause g) = 1 ∧ (t.chip.group g).leg = none))

/-- O23. A scheduled edge is placed, overridden, released or dropped. -/
def Obligations.DriveEdges : Prop :=
  ∀ (s : State) (n : Fin 1024) (e : EdgeEv) (rest : List EdgeEv), let x := (s.chip.group (n / 16)).chan (n % 16)
    x.sched = e :: rest → e.kind = 0 → Completes (.driveEdge n) s fun t =>
      let y := (t.chip.group (n / 16)).chan (n % 16)
      y.sched = rest ∧ (∀ m < 1024, m ≠ n.val → t.chip.fld (PCH_STATUS.drv m) = s.chip.fld (PCH_STATUS.drv m) ∧
        t.chip.fld (PCH_STATUS.den m) = s.chip.fld (PCH_STATUS.den m)) ∧ SameBytes s t ∧
      ((∃ p, x.lastDrv = some p ∧ e.at_ < p + 106) → y.held = x.held ∧
        t.chip.fld (PCH_STATUS.drv n) = s.chip.fld (PCH_STATUS.drv n) ∧ t.chip.flag (PCH_ERR.edge_drop n) = true ∧
        t.chip.fld (PCH_DROP_CNT.count n) = satN 32 (s.chip.fld (PCH_DROP_CNT.count n) + 1) ∧ t.chip.out = s.chip.out) ∧
      ((∀ p, x.lastDrv = some p → p + 106 ≤ e.at_) → y.lastDrv = some e.at_ ∧
        (x.held = none → t.chip.out = s.chip.out ++ [.edge n 0 e.level e.at_]) ∧
        (∀ a f, x.held = some (a, f) → e.at_ < f → y.held = x.held ∧ t.chip.out = s.chip.out ++ [.edge n 0 e.level e.at_]) ∧
        (∀ f, x.held = some (1, f) → f ≤ e.at_ → y.held = none ∧ t.chip.out = s.chip.out ++ [.edge n 0 1 e.at_] ∧
          t.chip.fld (PCH_STATUS.drv n) = 1) ∧
        (∀ f, x.held = some (2, f) → f ≤ e.at_ → y.held = none ∧ t.chip.out = s.chip.out ++ [.edge n 0 0 e.at_] ∧
          t.chip.fld (PCH_STATUS.drv n) = 0) ∧
        (∀ f, x.held = some (3, f) → f ≤ e.at_ → y.held = none ∧ .edge n 0 e.level e.at_ ∈ t.chip.out ∧
          t.chip.fld (PCH_STATUS.den n) = 0))

/-- O24. A strobe compares the channel's levels with the vector's expect code. -/
def Obligations.CompareTable : Prop :=
  ∀ (s : State) (g : Fin 64) (e : StrobeEv) (rest : List StrobeEv) (y : StrobeCh) (ch cl : BitVec 16) (rc : Byte), let c := s.chip
    let n := 16 * g.val + y.k
    let x := (c.group g).chan y.k
    let h := bit ch.toNat y.k
    let l := bit cl.toNat y.k
    let first := x.prev = none
    (c.group g).strobes = e :: rest → e.window = false → e.chans = [y] → y.k < 16 → y.expect < 12 →
    (∀ p, x.lastStb = some p → p + 106 ≤ y.at_) → Completes (.compareStrobe g ch cl rc []) s fun t =>
      (t.chip.group g).strobes.length = rest.length ∧
      (∃ fail, .strobe n fail y.at_ ∈ t.chip.out ∧ (fail = 0 ↔
        y.expect = 0 ∨ y.expect = 9 ∨ (y.expect = 1 ∧ l = true ∧ h = false) ∨ (y.expect = 2 ∧ h = true ∧ l = false) ∨
        ((y.expect = 3 ∨ y.expect = 4) ∧ h = false ∧ l = false) ∨ (y.expect = 5 ∧ h ≠ l) ∨ (y.expect = 6 ∧ l = false) ∨
        (y.expect = 7 ∧ h = false) ∨ (y.expect = 8 ∧ (first ∨ (x.prev = some (ofBool h, ofBool l) ∧ ¬(h = true ∧ l = true)))) ∨
        (y.expect = 10 ∧ h = decide (y.data = 1) ∧ l = !h) ∨ (y.expect = 11 ∧ l = decide (y.data = 1) ∧ h = !l))) ∧
      (h = true → l = true → t.chip.fld (PCH_BOTH_CNT.count n) = satN 32 (c.fld (PCH_BOTH_CNT.count n) + 1) ∧
        t.chip.flag (PCH_ERR.cmp_both n) = true)

/-- O25. Calibration measures at any time and moves no edge under a leg. -/
def Obligations.PinCalibration : Prop :=
  (∀ (s : State) (g : Fin 64), Completes (.calNow g) s fun t =>
    (s.chip.gstate g ≠ 3 → (t.chip.group g).measuring = true ∧ t.chip.regs = s.chip.regs) ∧
    (s.chip.gstate g = 3 → t.chip.flag (PGR_ERR.cal_refused g) = true ∧ (t.chip.group g) = s.chip.group g)) ∧
  (∀ (s : State) (g : Fin 64), s.chip.tileUp → s.chip.qstate (g / 16) < 2 → Completes (.calMeasure g) s fun t =>
    (t.chip.group g).measuring = true ∧ t.chip.regs = s.chip.regs) ∧
  (∀ (s : State) (g : Fin 64) (temp : Int) (trims : List (Int × Int)), (s.chip.group g).measuring = true →
    Completes (.calMeasureDone g temp trims) s fun t =>
      (t.chip.group g).measuring = false ∧
      (s.chip.gstate g ≠ 3 → -2 ^ 15 ≤ temp → temp < 2 ^ 15 → t.chip.fldS (PGR_CAL_TEMP.temp g) = temp ∧
        t.chip.flag (PGR_STATUS.cal_stale g) = false ∧
        t.chip.fld2 (PGR_CAL_STAMP_LO.stamp_lo g) (PGR_CAL_STAMP_HI.stamp_hi g) = s.chip.now % 2 ^ 56) ∧
      (s.chip.gstate g = 3 → t.chip.regs = s.chip.regs ∧ (t.chip.group g).heldCal = some (temp, trims))) ∧
  (∀ (s : State) (g : Fin 64) (temp : Int), s.chip.gstate g = 3 →
    s.chip.fld (PGR_CAL_LIMIT.limit g) < (temp - s.chip.fldS (PGR_CAL_TEMP.temp g)).natAbs → Completes (.calStale g temp) s fun t =>
      t.chip.flag (PGR_STATUS.cal_stale g) = true ∧ t.chip.flag (PGR_ERR.cal_stale g) = true ∧ t.chip.gstate g = 3)

/-- O26. NOP, VEC, LOOP, ENDL, JMP, END and the program errors. -/
def Obligations.StreamerInstructions : Prop :=
  (∀ (s : State) (n : Fin 72) (g : Nat) (l : Leg) (i : SInstr), StreamerAt s n g l i →
    let c := s.chip
    let x := c.str n
    let pc := c.strPc n
    (i.op = 0 → Completes (.strNop n) s fun t => t.chip.strPc n = (pc + 16) % 2 ^ 41 ∧ (t.chip.str n).stack = x.stack ∧
      (t.chip.str n).left = 0 ∧ t.chip.groups = c.groups) ∧
    (i.op = 1 → i.addr % (2 * c.strWidth n) = 0 → Completes (.strVec n) s fun t =>
      t.chip.strPc n = (pc + 16) % 2 ^ 41 ∧ (t.chip.str n).left = i.count ∧ (t.chip.str n).vaddr = i.addr ∧
      (t.chip.str n).ts = (if i.setTs then i.ts else x.ts)) ∧
    (i.op = 2 → i.addr % 16 = 0 → x.stack.length < 16 → Completes (.strLoop n) s fun t =>
      (i.count = 0 → t.chip.strPc n = i.addr % 2 ^ 41 ∧ (t.chip.str n).stack = x.stack) ∧
      (i.count ≠ 0 → t.chip.strPc n = (pc + 16) % 2 ^ 41 ∧ ∃ f, (t.chip.str n).stack = f :: x.stack ∧
        f.isMatch = false ∧ f.count = i.count ∧ f.body = pc + 16 ∧ f.after = i.addr)) ∧
    (i.op = 3 → ∀ f rest, x.stack = f :: rest → f.isMatch = false → f.body % 16 = 0 → Completes (.strEndl n) s fun t =>
      (f.count ≤ 1 → t.chip.strPc n = (pc + 16) % 2 ^ 41 ∧ (t.chip.str n).stack = rest) ∧
      (2 ≤ f.count → t.chip.strPc n = f.body % 2 ^ 41 ∧
        (t.chip.str n).stack = { f with count := f.count - 1 } :: rest)) ∧
    (i.op = 7 → i.addr % 16 = 0 → Completes (.strJmp n) s fun t => t.chip.strPc n = i.addr % 2 ^ 41 ∧
      (t.chip.str n).stack = x.stack ∧ t.chip.groups = c.groups) ∧
    (i.op = 8 → Completes (.strEnd n) s fun t => (t.chip.group g).leg = some { l with ending := 1 } ∧
      (t.chip.str n).stack = x.stack)) ∧
  (∀ (s : State) (n : Fin 72) (g : Nat) (l : Leg) (i : SInstr) (o : Instr) (code : Nat), StreamerAt s n g l i →
    (8 < i.op ∧ o = .strReservedOp n ∧ code = 1) ∨ (i.op = 1 ∧ i.addr % (2 * s.chip.strWidth n) ≠ 0 ∧ o = .strVec n ∧ code = 4) ∨
      (i.op = 2 ∧ i.addr % 16 = 0 ∧ i.count ≠ 0 ∧ 16 ≤ (s.chip.str n).stack.length ∧ o = .strLoop n ∧ code = 2) ∨
      (i.op = 3 ∧ (s.chip.str n).stack = [] ∧ o = .strEndl n ∧ code = 3) ∨
      (i.op = 5 ∧ (s.chip.str n).stack = [] ∧ o = .strEndm n ∧ code = 3) ∨ (i.op = 7 ∧ i.addr % 16 ≠ 0 ∧ o = .strJmp n ∧ code = 4) →
    Completes o s fun t => t.chip.fld (STR_STATUS.state n) = 4 ∧ t.chip.flag (STR_ERR.prog_err n) = true ∧
      (t.chip.group g).leg = some { l with ending := 2 } ∧
      (s.chip.flag (STR_PROG_ERR.valid n) = false → t.chip.fld (STR_PROG_ERR.code n) = code))

/-- O27. MATCH, ENDM and BRF decide 16,384 MT before the boundary. -/
def Obligations.StreamerMatchLoops : Prop :=
  (∀ (s : State) (n : Fin 72) (g : Nat) (l : Leg) (i : SInstr), StreamerAt s n g l i → i.op = 4 → i.addr % 16 = 0 → i.count ≠ 0 →
    i.cond ≠ 3 → i.action ≠ 3 → (s.chip.str n).stack.length < 16 → Completes (.strMatch n) s fun t =>
      t.chip.strPc n = (s.chip.strPc n + 16) % 2 ^ 41 ∧ t.chip.fld (STR_MATCH_ITER.iter n) = 1 ∧
      ∃ f, (t.chip.str n).stack = f :: (s.chip.str n).stack ∧ f.isMatch = true ∧ f.iter = 1 ∧ f.count = i.count ∧
        f.cond = i.cond ∧ f.chmask = i.chmask ∧ f.after = i.addr) ∧
  (∀ (s : State) (n : Fin 72) (g : Nat) (l : Leg) (i : SInstr) (f : StrFrame) (rest : List StrFrame), StreamerAt s n g l i →
    i.op = 5 → (s.chip.str n).stack = f :: rest → f.isMatch = true → s.chip.willSkip g l.next = false →
    f.body % 16 = 0 → f.after % 16 = 0 → i.addr % 16 = 0 →
    let met := (f.cond = 2 ∧ bit (s.chip.fld (FAB_REFLEX_FLAGS.flags g)) f.flag = true ∧
        Tab.get 0 (s.chip.region g).flagAt f.flag + 16384 ≤ l.next) ∨
      (f.cond < 2 ∧ ∃ k a d fl t, (k, a, d, fl, t, true) ∈ f.close.iters ∧ 0 < a ∧ d = a ∧ t + 16384 ≤ l.next ∧
        (f.cond = 0 → fl = 0) ∧ (f.cond = 1 → 0 < fl))
    f.cond < 3 → Completes (.strEndm n) s fun t =>
      (met → t.chip.strPc n = f.after % 2 ^ 41 ∧ (t.chip.str n).stack = rest ∧
        (f.cond = 2 → bit (t.chip.fld (FAB_REFLEX_FLAGS.flags g)) f.flag = false)) ∧
      (¬met → f.iter < f.count → t.chip.strPc n = f.body % 2 ^ 41 ∧
        (t.chip.str n).stack = { f.close with iter := f.iter + 1 } :: rest ∧
        t.chip.fld (STR_MATCH_ITER.iter n) = (f.iter + 1) % 2 ^ 32) ∧
      (¬met → f.count ≤ f.iter → (t.chip.str n).stack = rest ∧ t.chip.flag (STR_ERR.match_timeout n) = true ∧
        t.chip.fld (STR_TIMEOUT_CNT.count n) = satN 32 (s.chip.fld (STR_TIMEOUT_CNT.count n) + 1) ∧
        (f.action = 0 → t.chip.strPc n = f.after % 2 ^ 41) ∧ (f.action = 1 → t.chip.strPc n = i.addr % 2 ^ 41) ∧
        (f.action = 2 → (t.chip.group g).leg = some { l with ending := 1 }))) ∧
  (∀ (s : State) (n : Fin 72) (g : Nat) (l : Leg) (i : SInstr), StreamerAt s n g l i → i.op = 6 → i.addr % 16 = 0 →
    s.chip.willSkip g l.next = false → Completes (.strBrf n) s fun t =>
      let set := bit (s.chip.fld (FAB_REFLEX_FLAGS.flags g)) i.flag = true ∧
        Tab.get 0 (s.chip.region g).flagAt i.flag + 16384 ≤ l.next
      (set → t.chip.strPc n = i.addr % 2 ^ 41 ∧ bit (t.chip.fld (FAB_REFLEX_FLAGS.flags g)) i.flag = false) ∧
      (¬set → t.chip.strPc n = (s.chip.strPc n + 16) % 2 ^ 41 ∧
        t.chip.fld (FAB_REFLEX_FLAGS.flags g) = s.chip.fld (FAB_REFLEX_FLAGS.flags g)))

/-- O28. Lines asked for fill the buffer; reprime starts over. -/
def Obligations.StreamerBuffer : Prop :=
  (∀ (s : State) (n : Fin 72) (a : Nat) (r : Resp) (d : Line), Completes (.streamerLineResponse n a r d) s fun t =>
    ((s.chip.str n).fetching.contains (a / 64 * 64) = false → t = s) ∧
    ((s.chip.str n).fetching.contains (a / 64 * 64) = true →
      (t.chip.str n).line a = some ⟨d.toNat, respCode r, false, false, false, 0, 0⟩ ∧ (t.chip.str n).stack = (s.chip.str n).stack ∧
      t.chip.strPc n = s.chip.strPc n ∧
      (s.chip.fld (STR_STATUS.state n) = 1 → t.chip.fld (STR_STATUS.state n) =
        if t.chip.strWants n = none ∨ 16384 ≤ (t.chip.str n).lines.length then 2 else 1) ∧
      (s.chip.fld (STR_STATUS.state n) ≠ 1 → t.chip.fld (STR_STATUS.state n) = s.chip.fld (STR_STATUS.state n)))) ∧
  (∀ (s : State) (n : Fin 72), let st := s.chip.fld (STR_STATUS.state n)
    Completes (.reprime n) s fun t =>
      (st = 0 ∨ st = 4 → t.chip.fld (STR_STATUS.state n) = 1 ∧ t.chip.strPc n = s.chip.strProg n ∧
        (t.chip.str n).stack = [] ∧ (t.chip.str n).lines = []) ∧
      (st ≠ 0 → st ≠ 4 → t.chip.flag (STR_ERR.bad_value n) = true ∧ t.chip.streams = s.chip.streams ∧
        t.chip.fld (STR_STATUS.state n) = st))

/-- O29. Pushes of an APG port are judged in the order of R202. -/
def Obligations.ApgPort : Prop :=
  (∀ (s : State) (g : Fin 64) (sym : BitVec 1024) (count : BitVec 5) (ts : Byte) (base : Word) (last void poison : Bool),
    let c := s.chip
    let q := Tab.get [] c.apgs g
    let k := count.toNat
    (c.region g).loading = false → (c.region g).frozen = false → c.gckRuns (g / 16) (c.fld (APG_CTRL.gck g)) = true →
    Completes (.apgPush g sym count ts base last void poison) s fun t =>
      (k = 0 → t = s) ∧
      (16 < k → Tab.get [] t.chip.apgs g = q ∧ t.chip.flag (APG_ERR.bad_count g) = true) ∧
      (1 ≤ k → k ≤ 16 → c.flag (APG_CTRL.en g) = false ∨ 8 ≤ q.length →
        Tab.get [] t.chip.apgs g = q ∧ t.chip.flag (APG_ERR.overflow g) = true) ∧
      (1 ≤ k → k ≤ 16 → c.flag (APG_CTRL.en g) = true → q.length < 8 →
        (∃ b, Tab.get [] t.chip.apgs g = q ++ [b] ∧ b.sym = sym.toNat ∧ b.count = k ∧ b.base = base.toNat ∧ b.edge = c.now) ∧
        t.chip.fld (APG_STATUS.fill g) = q.length + 1)) ∧
  (∀ (s : State) (g : Fin 64) (sym : BitVec 1024) (count : BitVec 5) (ts : Byte) (base : Word) (last void poison : Bool),
    s.chip.gckRuns (g / 16) (s.chip.fld (APG_CTRL.gck g)) = false →
    Completes (.apgPush g sym count ts base last void poison) s fun t => t = s) ∧
  (∀ (s : State) (g : Fin 64) (step : Bool) (v : Word), Completes (.apgCtrlWrite g step v) s fun t =>
    (s.chip.gstate g = 3 → t.chip.flag (APG_ERR.bad_value g) = true ∧
      t.chip.fld (APG_CTRL.en g) = s.chip.fld (APG_CTRL.en g) ∧ t.chip.fld (APG_STEP.step g) = s.chip.fld (APG_STEP.step g)) ∧
    (s.chip.gstate g ≠ 3 → step = true → t.chip.fld (APG_STEP.step g) = v.toNat) ∧
    (s.chip.gstate g ≠ 3 → step = false → t.chip.fld (APG_CTRL.gck g) = v.toNat % 16 ∧
      t.chip.flag (APG_CTRL.en g) = bit v.toNat 4))

/-- O30. The fail log emits results in stamp order, in the form of their group's mode. -/
def Obligations.FailLogEmission : Prop :=
  (∀ (l : List FlItem) (i : FlItem), firstItem l = some i → i ∈ l ∧ ∀ j ∈ l, i.stamp ≤ j.stamp) ∧
  (∀ (s : State) (q : Fin 4) (i : FlItem), firstItem (s.chip.log q).intake = some i → s.chip.now < i.stamp + 262144 →
    Completes (.intakeEmit q) s fun t => t = s) ∧
  (∀ (s : State) (q : Fin 4) (i : FlItem), let c := s.chip
    firstItem (c.log q).intake = some i → i.stamp + 262144 ≤ c.now → i.kind = 0 → c.fld (FL_STATUS.flow q) = 0 → i.taint = false →
    Completes (.intakeEmit q) s fun t => SameBytes s t ∧
      (i.mode ≠ 2 → ∀ j, j ∈ (t.chip.log q).intake ↔ j ∈ (c.log q).intake ∧ j ≠ i) ∧
      (i.mode = 1 → (t.chip.log q).records =
          (c.log q).records ++ [failRecord i (c.fld LQ_BATCH.batch) false false (c.fld (FL_SEQ.seq q))] ∧
        t.chip.fld (FL_SEQ.seq q) = (c.fld (FL_SEQ.seq q) + 1) % 2 ^ 32 ∧
        t.chip.fld (FL_REC_CNT.count q) = satN 32 (c.fld (FL_REC_CNT.count q) + 1)) ∧
      (i.mode = 3 → t.chip.fld (FL_CNT.count q (i.chan % 256)) = satN 32 (c.fld (FL_CNT.count q (i.chan % 256)) + 1) ∧
        (t.chip.log q).records = (c.log q).records) ∧
      (i.mode = 2 → i.chan / 256 = q.val → ∀ a, (if c.act (FL_BM_CFG.addr_src q (i.chan / 16 % 16)) = 0 then i.apg
          else some (i.vec % 2 ^ 32)) = some a →
        let k := i.chan / 16 % 16
        let w := 2 ^ c.act (FL_BM_CFG.lanes q k)
        let n := a * w + c.act (FL_BM_LANE.lane q (i.chan % 256 / 8) (i.chan % 8)) % w
        let base := c.act (FL_BM_BASE_LO.base_lo q k) + 2 ^ 32 * c.act (FL_BM_BASE_HI.base_hi q k)
        let byte := base + n / 8
        n / 8 < 2 ^ c.act (FL_BM_SIZE.log2 q k) → (∀ j ∈ (c.log q).intake, j.stamp = i.stamp → j = i) →
        (∃ d ∈ (c.log q).dirty, d.line = byte / 8 * 8 / 64 * 64) →
        .dramOr (.failLog q) (byte / 8 * 8) (2 ^ (byte % 8 * 8 + n % 8)) ∈ t.chip.out ∧
        (t.chip.log q).records = (c.log q).records))

/-- O31. Answers to record writes and OR-writes, and acknowledgements. -/
def Obligations.FailLogWrites : Prop :=
  (∀ (s : State) (q : Fin 4) (r : List Nat) (rs : List (List Nat)) (x : Resp), let c := s.chip
    (c.log q).records = r :: rs → Completes (.flRecordResponse q x) s fun t =>
      (x = .ok → t.chip.flWr q = (c.flWr q + r.length) % 2 ^ 64 ∧ ∃ l, (t.chip.log q).records = rs ++ l) ∧
      (x ≠ .ok → (c.log q).tries < 2 → (t.chip.log q).records = r :: rs ∧ (t.chip.log q).tries = (c.log q).tries + 1 ∧
        t.chip.flWr q = c.flWr q) ∧
      (x ≠ .ok → 2 ≤ (c.log q).tries → (c.log q).atSeal = none → (∃ l, (t.chip.log q).records = rs ++ l) ∧
        t.chip.flWr q = c.flWr q ∧ t.chip.flag (FL_ERR.buf_write q) = true ∧ t.chip.flag (FL_STATUS.interval_open q) = true)) ∧
  (∀ (s : State) (q : Fin 4) (k w m : Nat) (i : FlItem) (x : Resp), let c := s.chip
    (c.log q).ors[k]? = some (w, m, [i]) → c.fld (FL_STATUS.flow q) = 0 → (c.log q).atSeal = none →
    Completes (.flOrwriteResponse q k x) s fun t =>
      (t.chip.log q).ors = (c.log q).ors.eraseIdx k ∧
      (x = .ok → (t.chip.log q).records = (c.log q).records ∧ t.chip.fld (FL_REC_CNT.count q) = c.fld (FL_REC_CNT.count q)) ∧
      (x ≠ .ok → t.chip.flag (FL_ERR.bm_write q) = true ∧ (t.chip.log q).records =
        (c.log q).records ++ [failRecord i (c.fld LQ_BATCH.batch) false true (c.fld (FL_SEQ.seq q))])) ∧
  (∀ (s : State) (q : Fin 4) (v : BitVec 64), let c := s.chip
    Completes (.flAckWrite q v) s fun t =>
      (c.act (FL_CTRL.ack_src q) = 0 → t.chip.flAck q = c.flAck q ∧ t.chip.flag (FL_ERR.bad_value q) = true) ∧
      (c.act (FL_CTRL.ack_src q) = 1 → v.toNat < c.flAck q ∨ c.flWr q < v.toNat →
        t.chip.flAck q = c.flAck q ∧ t.chip.flag (FL_ERR.ack_err q) = true) ∧
      (c.act (FL_CTRL.ack_src q) = 1 → c.flAck q ≤ v.toNat → v.toNat ≤ c.flWr q → t.chip.flAck q = v.toNat))

/-- O32. Dirty lines are harvested, retried and marked poisoned as R222 says. -/
def Obligations.FailLogHarvest : Prop :=
  (∀ (s : State) (q : Fin 4) (old : Bool) (o : Instr), let c := s.chip
    let due (d : DirtyLine) := old = false ∨ d.due = true ∨ d.since + c.fld (FL_BM_AGE.ms q) * 1024000000 ≤ c.now
    let held (d : DirtyLine) := ∃ e ∈ (c.log q).ors, e.1 / 64 = d.line / 64
    (o = if old then .dirtyLineAge q else .harvestAll q) → Completes o s fun t =>
      ∀ d ∈ (c.log q).dirty, (due d → ¬held d → (∀ e ∈ (t.chip.log q).dirty, e.line = d.line → e.due = false) ∧
          .dramRead (.failLog q) d.line 64 ∈ t.chip.out ∧ ∃ h ∈ (t.chip.log q).harvests, h.line.line = d.line) ∧
        (¬due d ∨ held d → ∃ e ∈ (t.chip.log q).dirty, e.line = d.line)) ∧
  (∀ (s : State) (q : Fin 4) (k : Nat) (h : Harvest) (x : Resp) (d : Line), let c := s.chip
    (c.log q).harvests[k]? = some h → c.fld (FL_STATUS.flow q) = 0 → (c.log q).atSeal = none →
    Completes (.harvestReadResponse q k x d) s fun t =>
      (x = .ok → (t.chip.log q).harvests = (c.log q).harvests.eraseIdx k ∧ (t.chip.log q).records = (c.log q).records ++
        [harvestRecord h.line false (bytesLE 64 d.toNat) (c.fld LQ_BATCH.batch) (c.fld (FL_SEQ.seq q))]) ∧
      (x ≠ .ok → x ≠ .poison → h.tries < 2 → (t.chip.log q).harvests = (c.log q).harvests.set k { h with tries := h.tries + 1 } ∧
        t.chip.out = c.out ++ [.dramRead (.failLog q) h.line.line 64]) ∧
      (x = .poison ∨ (x ≠ .ok ∧ 2 ≤ h.tries) → t.chip.flag (FL_ERR.harvest_poison q) = true ∧
        (t.chip.log q).records = (c.log q).records ++
          [harvestRecord h.line true (List.replicate 64 0) (c.fld LQ_BATCH.batch) (c.fld (FL_SEQ.seq q))]))

/-- O33. The slice instructions do what Table 10.5 says in every slice. -/
def Obligations.ClusterSlices : Prop :=
  ∀ (s : State) (j : Fin 512) (w : Nat), ClusterAt s j w → ClusterStraight s j → s.chip.flag (CL_CTRL.poison_trap j) = false →
    let c := s.chip
    let x := c.cl j
    let ea := c.agAddr j (clAga w)
    let eb := c.agAddr j (clAgb w)
    let sat (v : Int) : Int := max (-2 ^ 71) (min (2 ^ 71 - 1) v)
    let A (k : Nat) : Int := signedOf 27 (x.elem k ea)
    let bank (k : Nat) : Nat := if bit w 0 then 0 else k
    let B (k : Nat) : Int := signedOf 24 (x.elem (bank k) eb)
    let pA (k : Nat) : Bool := (x.word (elemWord k ea)).bad
    let pB (k : Nat) : Bool := (x.word (elemWord (bank k) eb)).bad
    let old (k : Nat) : Bool := c.flag (CL_ACC_TOP.poison j k)
    let next (a : Nat) : Nat :=
      ((((c.fld (CL_AG_HI.ptr j a) : Nat) : Int) + c.fldS (CL_AG_HI.step j a)) %
        ((if c.fld (CL_AG_LO.len j a) = 0 then 2048 else c.fld (CL_AG_LO.len j a) : Nat) : Int)).toNat % 2048
    (clOp w = 0 → Completes (.clNop j) s fun t => ClusterNext s t j ∧ ∀ k < 16, t.chip.clAccBits j k = c.clAccBits j k) ∧
    (clOp w = 1 → Completes (.clMac j []) s fun t => ClusterNext s t j ∧
      t.chip.fld (CL_AG_HI.ptr j (clAga w)) = next (clAga w) ∧ t.chip.fld (CL_AG_HI.ptr j (clAgb w)) = next (clAgb w) ∧
      ∀ k < 16, t.chip.clAcc j k = sat (c.clAcc j k + A k * B k) ∧
        t.chip.flag (CL_ACC_TOP.poison j k) = (pA k || pB k || old k)) ∧
    (clOp w = 2 → Completes (.clMsu j []) s fun t => ClusterNext s t j ∧
      ∀ k < 16, t.chip.clAcc j k = sat (c.clAcc j k - A k * B k) ∧
        t.chip.flag (CL_ACC_TOP.poison j k) = (pA k || pB k || old k)) ∧
    (clOp w = 3 → Completes (.clMul j []) s fun t => ClusterNext s t j ∧
      ∀ k < 16, t.chip.clAcc j k = A k * B k ∧ t.chip.flag (CL_ACC_TOP.poison j k) = (pA k || pB k)) ∧
    (clOp w = 4 → Completes (.clClr j) s fun t => ClusterNext s t j ∧
      ∀ k < 16, t.chip.clAcc j k = 0 ∧ t.chip.flag (CL_ACC_TOP.poison j k) = false) ∧
    (clOp w = 10 → Completes (.clAdda j []) s fun t => ClusterNext s t j ∧ t.chip.fld (CL_AG_HI.ptr j (clAga w)) = next (clAga w) ∧
      ∀ k < 16, t.chip.clAcc j k = sat (c.clAcc j k + A k) ∧ t.chip.flag (CL_ACC_TOP.poison j k) = (pA k || old k)) ∧
    (clOp w = 9 → Completes (.clSig j []) s fun t => ClusterNext s t j ∧
      ∀ k < 16, t.chip.clAccBits j k % 2 ^ 32 = (bytesLE 4 (x.elem k ea)).foldl crc32cByte (c.clAccBits j k % 2 ^ 32) % 2 ^ 32 ∧
        t.chip.clAccBits j k / 2 ^ 32 = c.clAccBits j k / 2 ^ 32) ∧
    (clOp w = 7 → ea % 2 = 0 → Completes (.clAccld j []) s fun t => ClusterNext s t j ∧
      ∀ k < 16, t.chip.clAccBits j k =
        x.elem k ea + 2 ^ 32 * x.elem k (ea + 1) + 2 ^ 64 * (x.elem k (ea + 2) % 256))

/-- O34. ST, ACCSV, HIST and STX write local memory three slots on; rounding is to nearest, ties to even. -/
def Obligations.ClusterStores : Prop :=
  (∀ (acc : Int) (W sh : Nat), W ∈ [16, 24, 32, 48] → 1 ≤ sh → sh < 64 → let v := convertAcc acc W sh 2
    (-2 ^ (W - 1) ≤ v.1 ∧ v.1 < 2 ^ (W - 1)) ∧
    (v.2 = false → 2 * (acc - v.1 * 2 ^ sh) ≤ 2 ^ sh ∧ -2 ^ sh ≤ 2 * (acc - v.1 * 2 ^ sh) ∧
      (2 * (acc - v.1 * 2 ^ sh) = 2 ^ sh ∨ 2 * (acc - v.1 * 2 ^ sh) = -2 ^ sh → v.1 % 2 = 0))) ∧
  (∀ (s : State) (j : Fin 512) (w : Nat), ClusterAt s j w → ClusterStraight s j → s.chip.flag (CL_CTRL.poison_trap j) = false →
    let c := s.chip
    let x := c.cl j
    let ea := c.agAddr j (clAga w)
    let v (k : Nat) : Int := (convertAcc (c.clAcc j k) (stWidth w) (bits w 2 6) (bits w 8 2)).1
    let half (e : Nat) : Nat := 2 ^ (32 * (e % 2))
    let all : Nat := 2 ^ 32 - 1
    (clOp w = 5 → stWidth w < 48 → Completes (.clSt j) s fun t => ClusterNext s t j ∧ ∀ k < 16,
      ⟨x.slot + 3, elemWord k ea, all * half ea, patternOf 32 (v k) % 2 ^ 32 * half ea, c.flag (CL_ACC_TOP.poison j k), false⟩ ∈
        (t.chip.cl j).lw) ∧
    (clOp w = 5 → stWidth w = 48 → ea % 2 = 0 → Completes (.clSt j) s fun t => ClusterNext s t j ∧ ∀ k < 16,
      ⟨x.slot + 3, elemWord k ea, 2 ^ 64 - 1, patternOf 64 (v k), c.flag (CL_ACC_TOP.poison j k), false⟩ ∈ (t.chip.cl j).lw) ∧
    (clOp w = 5 → stWidth w = 48 → ea % 2 = 1 → ClusterTraps s j → Completes (.clSt j) s fun t =>
      ClusterTrapped s t j 7 ∧ (t.chip.cl j).lm = ((c.clLand j (x.slot + 1)).cl j).lm) ∧
    (clOp w = 6 → ea % 2 = 0 → Completes (.clAccsv j) s fun t => ClusterNext s t j ∧ ∀ k < 16,
      ⟨x.slot + 3, elemWord k ea, 2 ^ 64 - 1, c.clAccBits j k % 2 ^ 64, c.flag (CL_ACC_TOP.poison j k), false⟩ ∈
        (t.chip.cl j).lw ∧
      ⟨x.slot + 3, elemWord k (ea + 2), all * half (ea + 2), patternOf 32 (signedOf 8 (c.clAccBits j k / 2 ^ 64)) % 2 ^ 32 *
        half (ea + 2), c.flag (CL_ACC_TOP.poison j k), false⟩ ∈ (t.chip.cl j).lw) ∧
    (clOp w = 8 → x.lw = [] → let n := if c.fld (CL_AG_LO.len j (clAgb w)) = 0 then 2048 else c.fld (CL_AG_LO.len j (clAgb w))
      let b (k : Nat) : Nat := (c.fld (CL_AG_LO.base j (clAgb w)) +
        (max 0 (min (signedOf 27 (x.elem k ea) / (2 ^ bits w 0 6 : Nat)) ((n : Int) - 1))).toNat) % 2048
      Completes (.clHist j []) s fun t => ClusterNext s t j ∧ ∀ k < 16,
        ⟨x.slot + 3, elemWord k (b k), all * half (b k), min (x.elem k (b k) + 1) all * half (b k), false, true⟩ ∈
          (t.chip.cl j).lw) ∧
    (clOp w = 0x15 → c.clLocal j w % 8 = 0 → Completes (.clStx j) s fun t => ClusterNext s t j ∧
      ⟨x.slot + 3, c.clLocal j w / 8, 2 ^ 64 - 1, c.clX j (clXb w), false, false⟩ ∈ (t.chip.cl j).lw))

/-- O35. Scalar results are seen two slots on, generators at once. -/
def Obligations.ClusterScalars : Prop :=
  ∀ (s : State) (j : Fin 512) (w : Nat), ClusterAt s j w → let c := s.chip
    let x := c.cl j
    let xa := c.clX j (clXa w)
    let src := if bit w 36 then c.clX j (clXb w) else patternOf 64 (signedOf 32 w)
    let m := x.word (c.clLocal j w / 8)
    let gives (o : Instr) (v : Nat) : Prop :=
      Completes o s fun t => ClusterNext s t j ∧ (x.slot + 2, clXd w, v % 2 ^ 64) ∈ (t.chip.cl j).xw
    (ClusterStraight s j →
      (clOp w = 0x10 → gives (.clLdi j) (patternOf 64 (signedOf 32 w))) ∧
      (clOp w = 0x11 → (bits w 32 4 = 0 → gives (.clAlu j) (xa + src)) ∧ (bits w 32 4 = 1 → gives (.clAlu j) (xa + 2 ^ 64 - src)) ∧
        (bits w 32 4 = 2 → gives (.clAlu j) (xa &&& src)) ∧ (bits w 32 4 = 3 → gives (.clAlu j) (xa ||| src)) ∧
        (bits w 32 4 = 4 → gives (.clAlu j) (xa ^^^ src)) ∧ (bits w 32 4 = 5 → src < 64 → gives (.clAlu j) (xa * 2 ^ src)) ∧
        (bits w 32 4 = 6 → src < 64 → gives (.clAlu j) (xa / 2 ^ src)) ∧
        (bits w 32 4 = 7 → src < 64 → gives (.clAlu j) (patternOf 64 (signedOf 64 xa / (2 ^ src : Nat))))) ∧
      (clOp w = 0x12 → bit w 39 = false → Completes (.clAgset j) s fun t => ClusterNext s t j ∧
        t.chip.fld (CL_AG_LO.base j (clAga w)) = bits w 0 11 ∧ t.chip.fld (CL_AG_LO.len j (clAga w)) = bits w 12 12 ∧
        t.chip.fld (CL_AG_HI.step j (clAga w)) = bits w 24 12 ∧ t.chip.fld (CL_AG_HI.ptr j (clAga w)) = 0) ∧
      (clOp w = 0x13 → gives (.clAgget j) (c.fld (CL_AG_LO.base j (clAga w)) + 2 ^ 16 * c.fld (CL_AG_LO.len j (clAga w)) +
        2 ^ 32 * c.fld (CL_AG_HI.step j (clAga w)) + 2 ^ 48 * c.fld (CL_AG_HI.ptr j (clAga w)))) ∧
      (clOp w = 0x14 → c.clLocal j w % 8 = 0 → m.bad = false → gives (.clLdx j []) m.value) ∧
      (clOp w = 0x24 → gives (.clTime j) c.now) ∧
      (clOp w = 0x23 → x.xfer = none → gives (.clWaitx j) x.result) ∧
      (clOp w = 0x25 → gives (.clMsg j) (c.wsPost (bits w 0 5) j xa).2)) ∧
    (ClusterTraps s j →
      (clOp w = 0x14 → c.clLocal j w % 8 ≠ 0 → Completes (.clLdx j []) s fun t => ClusterTrapped s t j 7) ∧
      (clOp w = 0x14 → c.clLocal j w % 8 = 0 → m.bad = true → Completes (.clLdx j []) s fun t => ClusterTrapped s t j 6) ∧
      (clOp w = 0x15 → c.clLocal j w % 8 ≠ 0 → Completes (.clStx j) s fun t => ClusterTrapped s t j 7))

/-- O36. Loops, branches, waits, traps and interrupts of the sequencer. -/
def Obligations.ClusterFlow : Prop :=
  (∀ (s : State) (j : Fin 512) (w : Nat), ClusterAt s j w → ClusterStraight s j → let c := s.chip
    let x := c.cl j
    let d := c.fld (CL_STATUS.depth j)
    let goes (o : Instr) (a : Nat) : Prop :=
      Completes o s fun t => ClusterNext s t j ∧ (x.slot + 3, a) ∈ (t.chip.cl j).redirs
    (clOp w = 0x18 → bit w 39 = false → bits w 0 16 ≠ 0 → c.fld (CL_PC.pc j) + 3 ≤ bits w 16 12 → bits w 16 12 < 0xF00 → d = 0 →
      Completes (.clLoop j) s fun t => ClusterNext s t j ∧ t.chip.fld (CL_STATUS.depth j) = 1 ∧
        t.chip.fld (CL_LOOP_LO.count j 0) = bits w 0 16 ∧ t.chip.fld (CL_LOOP_HI.end_ j 0) = bits w 16 12 ∧
        t.chip.fld (CL_LOOP_HI.start j 0) = (c.fld (CL_PC.pc j) + 1) % 4096 ∧ t.chip.flag (CL_LOOP_HI.valid j 0) = true) ∧
    (clOp w = 0x19 → 1 ≤ d → Completes (.clLpop j) s fun t => ClusterNext s t j ∧ t.chip.fld (CL_STATUS.depth j) = d - 1 ∧
      ∃ v, (x.slot + 2, clXd w, v) ∈ (t.chip.cl j).xw ∧ bits v 0 32 = c.fld (CL_LOOP_LO.count j (d - 1)) ∧
        bits v 32 12 = c.fld (CL_LOOP_HI.end_ j (d - 1)) ∧ bits v 44 12 = c.fld (CL_LOOP_HI.start j (d - 1))) ∧
    (clOp w = 0x1A → d < 4 → Completes (.clLpush j) s fun t => ClusterNext s t j ∧ t.chip.fld (CL_STATUS.depth j) = d + 1 ∧
      t.chip.fld (CL_LOOP_LO.count j d) = c.clX j (clXa w) % 2 ^ 32) ∧
    (clOp w = 0x1B → c.clInEnd j = false → goes (.clJmp j) (bits w 0 12)) ∧
    (clOp w = 0x1C → c.clInEnd j = false → let v := c.clX j (clXa w)
      let k := bits w 12 3
      let taken := (k = 0 ∧ v = 0) ∨ (k = 1 ∧ v ≠ 0) ∨ (k = 2 ∧ bit v 63 = true) ∨ (k = 3 ∧ bit v 63 = false)
      (taken → goes (.clBr j) (bits w 0 12)) ∧
      (¬taken → Completes (.clBr j) s fun t => ClusterNext s t j ∧ (t.chip.cl j).redirs = x.redirs.filter fun e => x.slot + 1 < e.1)) ∧
    (clOp w = 0x1D → goes (.clReti j) ((if bit w 12 then c.clX j (clXa w) else c.fld (CL_IRA.ira j)) % 4096)) ∧
    (clOp w = 0x26 → let p := c.fld (CL_IRQ_PEND.pend j) &&& c.fld (CL_IRQ_EN.en j)
      (p ≠ 0 → Completes (.clWait j) s fun t => ClusterNext s t j) ∧
      (p = 0 → Completes (.clWait j) s fun t => t.chip.clState j = 4 ∧ t.chip.fld (CL_PC.pc j) = c.fld (CL_PC.pc j))) ∧
    (clOp w = 0x3F → Completes (.clHalt j) s fun t => t.chip.clState j = 1 ∧
      t.chip.fld (CL_PC.pc j) = (c.fld (CL_PC.pc j) + 1) % 4096 ∧ (t.chip.cl j).xw = [] ∧ (t.chip.cl j).lw = [])) ∧
  (∀ (s : State) (j : Fin 512) (w : Nat), ClusterAt s j w → ClusterTraps s j → let c := s.chip
    (clOp w = 0x1B → c.clInEnd j = true → Completes (.clJmp j) s fun t => ClusterTrapped s t j 5) ∧
    (clOp w = 0x19 → c.fld (CL_STATUS.depth j) = 0 → Completes (.clLpop j) s fun t => ClusterTrapped s t j 3)) ∧
  (∀ (s : State) (j : Fin 512) (w : Nat), 2 ≤ s.chip.clState j → s.chip.clClocked j = true → s.chip.clTakeable j = false →
    s.chip.flag (CL_STATUS.ucode_valid j) = true → Tab.get 0 (s.chip.cl j).ucode (s.chip.fld (CL_PC.pc j)) = w → clLegal w = false →
    (ClusterTraps s j → Completes (.clIllegal j) s fun t => ClusterTrapped s t j 1) ∧
    ((s.chip.cl j).handler = true → Completes (.clIllegal j) s fun t => t.chip.clState j = 1 ∧
      t.chip.flag (CL_TRAP.fatal j) = true ∧ t.chip.fld (CL_PC.pc j) = s.chip.fld (CL_PC.pc j))) ∧
  (∀ (s : State) (j : Fin 512), s.chip.clClocked j = true → s.chip.clTakeable j = true → s.chip.clState j = 2 →
    Completes (.clInterrupt j) s fun t => t.chip.fld (CL_IRA.ira j) = s.chip.fld (CL_PC.pc j) ∧
      t.chip.fld (CL_PC.pc j) = 0xF40 ∧ (t.chip.cl j).handler = true ∧ t.chip.clState j = 3)

/-- O37. Queues and the transfer engine. -/
def Obligations.ClusterPorts : Prop :=
  (∀ (s : State) (j : Fin 512) (w : Nat), ClusterAt s j w → ClusterStraight s j → let c := s.chip
    let x := c.cl j
    let e := c.agAddr j (clAga w)
    let d := c.clX j (clXa w) % 2 ^ 41
    let l := c.clX j (clXb w) % 2 ^ 17
    (clOp w = 0x20 → (x.inq = [] → Completes (.clIn j) s fun t => t.chip.clState j = 4 ∧
        t.chip.fld (CL_PC.pc j) = c.fld (CL_PC.pc j)) ∧
      (∀ b rest, x.inq = b :: rest → Completes (.clIn j) s fun t => ClusterNext s t j ∧ (t.chip.cl j).inq = rest ∧ ∀ k < 16,
        ⟨x.slot + 3, elemWord k e, (2 ^ 32 - 1) * 2 ^ (32 * (e % 2)), bits b.lanes (32 * k) 32 * 2 ^ (32 * (e % 2)), bit b.poison k,
          false⟩ ∈ (t.chip.cl j).lw)) ∧
    (clOp w = 0x21 → (32 ≤ x.outq.length → Completes (.clOut j []) s fun t => t.chip.clState j = 4 ∧ (t.chip.cl j).outq = x.outq) ∧
      (x.outq.length < 32 → Completes (.clOut j []) s fun t => ClusterNext s t j ∧ ∃ b, (t.chip.cl j).outq = x.outq ++ [b] ∧
        ∀ k < 16, bits b.lanes (32 * k) 32 = x.elem k e ∧ bit b.poison k = (x.word (elemWord k e)).bad)) ∧
    (clOp w = 0x22 → d % 64 = 0 → l % 64 = 0 → (x.xfer.isSome = true → Completes (.clXfer j) s fun t => t.chip.clState j = 4 ∧
        (t.chip.cl j).xfer = x.xfer) ∧
      (x.xfer = none → bits w 0 10 ≠ 0 → Completes (.clXfer j) s fun t => ClusterNext s t j ∧
        (t.chip.cl j).xfer = some ⟨bit w 10, d, l, bits w 0 10, [], none⟩ ∧
        (bit w 10 = false → ∀ k < bits w 0 10, .dramRead (.cluster j) (d + 64 * k) 64 ∈ t.chip.out)) ∧
      (x.xfer = none → bits w 0 10 = 0 → Completes (.clXfer j) s fun t => ClusterNext s t j ∧ (t.chip.cl j).result = 6 ∧
        (t.chip.cl j).xfer = none ∧ bit (t.chip.fld (CL_IRQ_PEND.pend j)) 1 = true)) ∧
    (clOp w = 0x22 → d % 64 ≠ 0 ∨ l % 64 ≠ 0 → ClusterTraps s j → Completes (.clXfer j) s fun t => ClusterTrapped s t j 7)) ∧
  (∀ (s : State) (j : Fin 512) (k : Nat) (r : Resp) (d : Line) (x : Transfer), (s.chip.cl j).xfer = some x → k < x.lines →
    k ∉ x.got → x.toDram = false → Completes (.clXferResponse j k r d) s fun t =>
      (∀ i < 8, ((t.chip.cl j).word ((x.loc + 64 * k) / 8 + i)) =
        ⟨if r = .ok then bits d.toNat (64 * i) 64 else 0, 0, decide (r ≠ .ok)⟩) ∧
      (x.got.length + 1 = x.lines → (t.chip.cl j).xfer = none ∧ bit (t.chip.fld (CL_IRQ_PEND.pend j)) 1 = true ∧
        (r = .ok → x.bad = none → (t.chip.cl j).result = 0))) ∧
  (∀ (s : State) (j : Fin 512) (lanes : Line) (p : BitVec 16), s.chip.clPorted j = true →
    Completes (.clFabricPush j lanes p) s fun t =>
      (t.chip.cl j).inq = if (s.chip.cl j).inq.length < 32 then (s.chip.cl j).inq ++ [⟨lanes.toNat, p.toNat, false⟩]
        else (s.chip.cl j).inq) ∧
  (∀ (s : State) (j : Fin 512) (b : ClBeat) (rest : List ClBeat), s.chip.clPorted j = true → (s.chip.cl j).outq = b :: rest →
    Completes (.clFabricPop j) s fun t => (t.chip.cl j).outq = rest ∧
      .fabric (j / 8) 4 [j, b.lanes, b.poison, ofBool b.taint] ∈ t.chip.out)

/-- O38. Commands of the cluster, its microcode and its register windows. -/
def Obligations.ClusterControl : Prop :=
  (∀ (s : State) (j : Fin 512), let c := s.chip
    let st := c.clState j
    let ok := c.flag (CL_STATUS.ucode_valid j)
    Completes (.clCmdStart j) s (fun t =>
      (st ≤ 1 → ok = true → c.fld (CL_STATUS.depth j) ≤ 4 → t.chip.clState j = 2 ∧
        t.chip.fld (CL_PC.pc j) = c.fld (CL_START.start j) ∧ t.chip.fld (CL_STATUS.depth j) = 0 ∧ (t.chip.cl j).handler = false) ∧
      (1 < st ∨ ok = false → t.chip.clState j = st ∧ t.chip.flag (CL_ERR.start_refused j) = true)) ∧
    Completes (.clCmdResume j) s (fun t =>
      (st = 1 → t.chip.clState j = (if (c.cl j).handler then 3 else 2) ∧ t.chip.fld (CL_PC.pc j) = c.fld (CL_PC.pc j)) ∧
      (st ≠ 1 → t.chip.clState j = st ∧ t.chip.flag (CL_ERR.start_refused j) = true)) ∧
    Completes (.clCmdHalt j) s (fun t =>
      (2 ≤ st → (c.cl j).redirs = [] → t.chip.clState j = 1 ∧ t.chip.fld (CL_PC.pc j) = c.fld (CL_PC.pc j)) ∧
      (st < 2 → t.chip.clState j = st ∧ t.chip.flag (CL_ERR.start_refused j) = true)) ∧
    Completes (.clCmdIrq j) s (fun t => bit (t.chip.fld (CL_IRQ_PEND.pend j)) 0 = true) ∧
    Completes (.clCmdLoadUcode j) s (fun t =>
      (st ≤ 1 → t.chip.flag (CL_STATUS.ucode_busy j) = true ∧ .dramRead (.cluster j) (c.ucodeBase j) 32768 ∈ t.chip.out) ∧
      (1 < st → t.chip.flag (CL_ERR.bad_value j) = true ∧ t.chip.out = c.out))) ∧
  (∀ (s : State) (j : Fin 512) (ws : List (BitVec 64)), s.chip.flag (CL_STATUS.ucode_busy j) = true → ws.length = 4096 →
    Completes (.clUcodeLoadDone j ws none) s fun t => t.chip.flag (CL_STATUS.ucode_valid j) = true ∧
      t.chip.flag (CL_STATUS.ucode_busy j) = false ∧
      ∀ (i : Nat) (v : BitVec 64), ws[i]? = some v → Tab.get 0 (t.chip.cl j).ucode i = v.toNat) ∧
  (∀ (s : State) (j : Fin 512) (ws : List (BitVec 64)) (k : Nat) (r : Resp), s.chip.flag (CL_STATUS.ucode_busy j) = true →
    Completes (.clUcodeLoadDone j ws (some (k, r))) s fun t => t.chip.flag (CL_STATUS.ucode_valid j) = false ∧
      t.chip.flag (CL_ERR.ucode_load j) = true) ∧
  (∀ (s : State) (j : Fin 512) (r : Resp) (d : Line), 2 ≤ s.chip.clState j → s.chip.clClocked j = true →
    s.chip.flag (CL_STATUS.ucode_valid j) = true → Completes (.clUcodeRefetch j r d) s fun t =>
      t.chip.fld (CL_UC_REFETCH_CNT.count j) = satN 32 (s.chip.fld (CL_UC_REFETCH_CNT.count j) + 1) ∧
      (r = .ok → ∀ i < 8, Tab.get 0 (t.chip.cl j).ucode (s.chip.fld (CL_PC.pc j) / 8 * 8 + i) = bits d.toNat (64 * i) 64) ∧
      (r ≠ .ok → ClusterTraps s j → ClusterTrapped s t j 2)) ∧
  (∀ (s : State) (j : Fin 512) (n : Fin 4) (v : Bool), Completes (.clRegionIrq j n v) s fun t =>
    bit (t.chip.fld (CL_IRQ_PEND.pend j)) (2 + n) =
      (bit (s.chip.fld (CL_IRQ_PEND.pend j)) (2 + n) || (v && !bit (s.chip.cl j).irqLines n)) ∧
    bit (t.chip.cl j).irqLines n = v) ∧
  (∀ (s : State) (j : Fin 512) (src : Src), let a := s.chip.fld (CL_LM_ADDR.addr j)
    let w := (s.chip.cl j).word (a / 2)
    Completes (.clLmDataRead j src 0) s fun t => t.chip.fld (CL_LM_ADDR.addr j) = (a + 1) % 2 ^ 15 ∧
      .csr src (CL_LM_DATA.data j).addr (if w.bad then 0 else bits w.value (32 * (a % 2)) 32) ∈ t.chip.out) ∧
  (∀ (s : State) (j : Fin 512) (v : Word), let a := s.chip.fld (CL_LM_ADDR.addr j)
    let w := (s.chip.cl j).word (a / 2)
    Completes (.clLmDataWrite j v) s fun t => t.chip.fld (CL_LM_ADDR.addr j) = (a + 1) % 2 ^ 15 ∧
      (w.bad = false → bits ((t.chip.cl j).word (a / 2)).value (32 * (a % 2)) 32 = v.toNat) ∧
      (w.bad = true → (t.chip.cl j).lm = (s.chip.cl j).lm)) ∧
  (∀ (s : State) (j : Fin 512) (off : BitVec 10) (v : Word), Completes (.clRegWrite j off v) s fun t =>
    (1 < s.chip.clState j → t.chip.flag (CL_ERR.bad_value j) = true ∧ t.chip.csr = s.chip.csr ∧
      (∀ x < 16, t.chip.clX j x = s.chip.clX j x ∧ t.chip.clAccBits j x = s.chip.clAccBits j x)) ∧
    (s.chip.clState j ≤ 1 → off.toNat / 4 = 0 → t.chip.fld (CL_CTRL.gck j) = v.toNat % 16) ∧
    (∀ x < 16, s.chip.clState j ≤ 1 → off.toNat / 4 * 4 = 0x204 + 8 * x →
      t.chip.clX j x = s.chip.heldWord (clBase j + 0x200 + 8 * x) 0 % 2 ^ 32 + 2 ^ 32 * v.toNat))

/-- O39. Every line of tile DRAM has one place; an applied extent map fills its extents with zeros. -/
def Obligations.DramExtents : Prop :=
  (∀ (c : Chip) (a : Nat), a < 2 ^ 41 → Tab.get 8 c.dram.maps (extentOf a) / 2 ≤ 8 → let p := c.place a
    p.q < 4 ∧ p.c36 < 36 ∧ p.chk < 36 ∧ p.chk ≠ p.c36 ∧ p.slot < 2 ^ 28 ∧ p.slot / 2 ^ 22 = extentOf a ∧ p.chkByte ≤ 56 ∧
    c.unplace p.q p.c36 p.slot = some (a - a % 64) ∧ c.unplace p.q p.chk p.slot = none) ∧
  (∀ (s : State) (q : Fin 4), let c := s.chip
    (c.flag DMC_MAP_STATUS.busy = true → Completes (.mapApply q) s fun t =>
      t.chip.flag (DMC_ERR.bad_value (9 * q)) = true ∧ t.chip.dram = c.dram ∧ t.mem = s.mem) ∧
    (c.flag DMC_MAP_STATUS.busy = false → c.pwr.mark = none → Completes (.mapApply q) s fun t =>
      t.chip.flag DMC_MAP_STATUS.busy = true ∧ t.chip.dram.maps = c.dram.maps ∧ t.mem = s.mem ∧
      ∀ x < 64, x ∈ t.chip.dram.applying ↔
        ¬(c.fld (DMC_MAP.mode x) = Tab.get 8 c.dram.maps x % 2 ∧ c.fld (DMC_MAP.grain x) = Tab.get 8 c.dram.maps x / 2))) ∧
  (∀ s : State, let c := s.chip
    c.flag DMC_MAP_STATUS.busy = true → c.applyBusy = false → (∀ x ∈ c.dram.applying, x < 64) →
    Completes .mapApplyDone s fun t => t.chip.flag DMC_MAP_STATUS.busy = false ∧ t.chip.dram.applying = [] ∧
      (∀ x, Tab.get 8 t.chip.dram.maps x =
        if x ∈ c.dram.applying then c.fld (DMC_MAP.mode x) + 2 * c.fld (DMC_MAP.grain x) else Tab.get 8 c.dram.maps x) ∧
      ∀ a, Memory.byte t.mem a = if a < 2 ^ 41 ∧ extentOf a ∈ c.dram.applying then 0#8 else Memory.byte s.mem a) ∧
  (∀ s : State, let c := s.chip
    (c.flag DMC_MAP_STATUS.init_busy = false ∨ c.pwr.mark ≠ none → exec .initFillExtent s = .next s) ∧
    (c.flag DMC_MAP_STATUS.init_busy = true → c.pwr.mark = none → c.fld DMC_MAP_STATUS.init_done < 64 →
      Completes .initFillExtent s fun t =>
        t.chip.fld DMC_MAP_STATUS.init_done = c.fld DMC_MAP_STATUS.init_done + 1 ∧
        (t.chip.flag DMC_MAP_STATUS.init_busy = true ↔ c.fld DMC_MAP_STATUS.init_done + 1 < 64) ∧ t.mem = s.mem))

/-- O40. A request is queued at its bank, served, given its check bytes and answered, with the effect of its kind. -/
def Obligations.DramRequests : Prop :=
  (∀ (s : State) (who : Agent) (id a o len : Nat) (u bad : Bool) (data : Line) (be m : BitVec 64), PlainLine s a →
    let c := s.chip
    let k := (c.place a).ctl
    let b := (c.place a).qnum
    let q := c.bankQueue k b
    DramOpen s k → (c.ctl k).entry = none → o < 64 →
    (q.length < 16 → (∀ x ∈ q, x.addr ≠ a) →
      (Completes (.dramRead who id a 64 u) s fun t => t.mem = s.mem ∧
        t.chip.bankQueue k b = q ++ [⟨who, id, 0, a, 0, 0, false, u, []⟩]) ∧
      (Completes (.dramWrite who id a 64 data bad u) s fun t => t.mem = s.mem ∧
        t.chip.bankQueue k b = q ++ [⟨who, id, 1, a, data.toNat, 0, bad, u, []⟩]) ∧
      (1 ≤ len → len ≤ 63 → o + len ≤ 64 → Completes (.dramPartial who id (a + o) len data be bad u) s fun t => t.mem = s.mem ∧
        t.chip.bankQueue k b = q ++
          [⟨who, id, 2, a, data.toNat % 2 ^ (8 * len) * 2 ^ (8 * o), be.toNat % 2 ^ len * 2 ^ o, bad, u, []⟩]) ∧
      (o % 8 = 0 → m ≠ 0 → Completes (.dramOrWrite who id (a + o) 8 m u) s fun t => t.mem = s.mem ∧
        t.chip.bankQueue k b = q ++ [⟨who, id, 3, a, m.toNat * 2 ^ (8 * o), 0, false, u, []⟩])) ∧
    (∀ x : DReq, q = [x] → x.kind = 3 → x.addr = a → x.more = [] → o % 8 = 0 → m ≠ 0 →
      Completes (.dramOrWrite who id (a + o) 8 m u) s fun t => t.mem = s.mem ∧
        t.chip.bankQueue k b =
          [{ x with data := x.data ||| m.toNat * 2 ^ (8 * o), urgent := x.urgent || u, more := [(who, id)] }])) ∧
  (∀ (s : State) (who : Agent) (id a len : Nat) (u bad : Bool) (data : Line) (be m : BitVec 64),
    let refused (t : State) : Prop := t.mem = s.mem ∧ t.chip.dram = s.chip.dram ∧ t.chip.out = s.chip.out ++ [.answer who id .decode 0]
    (len ≠ 64 ∨ a % 64 ≠ 0 ∨ 2 ^ 41 ≤ a →
      Completes (.dramRead who id a len u) s refused ∧ Completes (.dramWrite who id a len data bad u) s refused) ∧
    (len = 0 ∨ 63 < len ∨ 64 < a % 64 + len ∨ 2 ^ 41 ≤ a → Completes (.dramPartial who id a len data be bad u) s refused) ∧
    (len ≠ 8 ∨ a % 8 ≠ 0 ∨ 2 ^ 41 ≤ a → Completes (.dramOrWrite who id a len m u) s refused)) ∧
  (∀ (s : State) (k : Fin 36) (ch : Fin 4) (b : Fin 32) (r : DReq), let c := s.chip
    let p := c.place r.addr
    DramOpen s k → c.bankQueue k (ch * 32 + b) = [r] → (∀ i < 32, i ≠ b.val → c.bankQueue k (ch * 32 + i) = []) →
    (c.ctl k).free r = true → r.more = [] → Completes (.bankService k ch b 0 0) s fun t => t.mem = s.mem ∧
      t.chip.bankQueue k (ch * 32 + b) = [] ∧ Tab.get none (t.chip.ctl k).rows (ch * 32 + b) = some p.row ∧
      (c.chFailed k p.ch = false → c.chFailed p.chkCtl p.chkCh = false →
        (t.chip.ctl k).ring = (c.ctl k).ring ++ [r] ∧ t.chip.out = c.out) ∧
      (c.chFailed k p.ch = true ∨ c.chFailed p.chkCtl p.chkCh = true → (t.chip.ctl k).ring = (c.ctl k).ring ∧
        t.chip.out = c.out ++
          [.answer r.who r.id (if r.kind = 0 then .poison else .denied) (if r.kind = 0 then s.storedLine (r.addr / 64) else 0)])) ∧
  (∀ (s : State) (k : Fin 36) (r : DReq) (rest : List DReq), let c := s.chip
    let a := r.addr
    let old := Memory.read s.mem a 64
    (c.ctl k).ring = r :: rest → (∀ e ∈ c.dram.prs, e.2.closing = none) → r.more = [] →
    (Completes (.checkRingTimeout k) s fun t => t.mem = s.mem ∧ (t.chip.ctl k).ring = rest ∧
      t.chip.out = c.out ++ [.answer r.who r.id .timeout 0] ∧ t.chip.flag (DMC_ERR.ring_timeout k) = true) ∧
    (PlainLine s a → r.bad = false → r.kind ≤ 3 → c.dev (a / 64) = 0 → Completes (.checkRequest k) s fun t =>
      (t.chip.ctl k).ring = rest ∧ (∀ x, x < a ∨ a + 64 ≤ x → Memory.byte t.mem x = Memory.byte s.mem x) ∧ t.chip.dev (a / 64) = 0 ∧
      t.chip.out = c.out ++ [.answer r.who r.id .ok (if r.kind = 0 then old else 0)] ∧
      (r.kind = 0 → t.mem = s.mem) ∧
      (r.kind = 1 → Memory.read t.mem a 64 = r.data % 2 ^ 512) ∧
      (r.kind = 2 → ∀ j < 64, Memory.byte t.mem (a + j) =
        if bit r.be j then BitVec.ofNat 8 (r.data / 2 ^ (8 * j)) else Memory.byte s.mem (a + j)) ∧
      (r.kind = 3 → Memory.read t.mem a 64 = (old ||| r.data) % 2 ^ 512)))

/-- O41. Refresh, power-down, training, set points and repair of a DRAM controller. -/
def Obligations.DramController : Prop :=
  ∀ (s : State) (k : Fin 36), let c := s.chip
    let d := c.ctl k
    let st := c.fld (DMC_STATUS.state k)
    let sp := c.fld (DMC_STATUS.sp_active k)
    (∀ (ch : Fin 4) (rank : Fin 2), st = 2 ∨ st = 3 →
      let id := ch.val * 2 + rank.val
      let b := ch.val * 32 + rank.val * 16 + Tab.get 0 d.pair id
      let owed := Tab.get 0 d.owed id
      let busy : Prop := ¬((c.bankQueue k b).isEmpty ∧ (c.bankQueue k (b + 8)).isEmpty)
      owed < 8 → Completes (.refreshTick k ch rank) s fun t => t.mem = s.mem ∧ (t.chip.ctl k).queues = d.queues ∧
        (busy → t.chip.fld (DMC_REF_POSTPONE_MAX.depth k) = max (c.fld (DMC_REF_POSTPONE_MAX.depth k)) (owed + 1)) ∧
        (busy ∧ owed < 7 → Tab.get 0 (t.chip.ctl k).owed id = owed + 1 ∧ (t.chip.ctl k).rows = d.rows ∧
          (t.chip.ctl k).pair = d.pair) ∧
        (¬(busy ∧ owed < 7) → Tab.get 0 (t.chip.ctl k).owed id = 0 ∧ Tab.get none (t.chip.ctl k).rows b = none ∧
          Tab.get none (t.chip.ctl k).rows (b + 8) = none ∧
          Tab.get 0 (t.chip.ctl k).pair id = (Tab.get 0 d.pair id + 1) % 8)) ∧
    (∀ rates : BitVec 8, Completes (.refreshRatePoll k rates) s fun t => t.mem = s.mem ∧
      t.chip.fld (DMC_REF_RATE.rate k) = rates.toNat ∧
      ∀ i < 4, bits rates.toNat (2 * i) 2 = 2 → bits (c.fld (DMC_REF_RATE.rate k)) (2 * i) 2 ≠ 2 →
        t.chip.flag (DMC_ERR.hot k) = true) ∧
    (d.entry = none → st = 2 → c.fld (DMC_CTRL.pd_idle k) ≠ 0 → c.ctlIdle k = true → c.quarterRun (k / 9) = true →
      Completes (.powerdownIdle k 0) s fun t => (t.chip.ctl k).entry = some (3, false) ∧ t.chip.fld (DMC_STATUS.state k) = 2) ∧
    (d.entry = some (3, false) → Completes (.powerdownIdle k 1) s fun t => (t.chip.ctl k).entry = some (3, true)) ∧
    (d.entry = some (3, true) → Completes (.powerdownIdle k 2) s fun t =>
      (t.chip.ctl k).entry = none ∧ t.chip.fld (DMC_STATUS.state k) = 3 ∧ t.mem = s.mem) ∧
    (∀ (who : Agent) (id a : Nat) (issued : Bool), d.entry = some (3, issued) → DramOpen s k → PlainLine s a → (c.place a).ctl = k →
      Completes (.dramRead who id a 64 false) s fun t => (t.chip.ctl k).entry = none ∧ t.chip.fld (DMC_STATUS.state k) = 2 ∧
        t.chip.fld (DMC_LP_CANCEL_CNT.count k) = satN 32 (c.fld (DMC_LP_CANCEL_CNT.count k) + if issued then 0 else 1) ∧
        t.chip.fld (DMC_LP_ABORT_CNT.count k) = satN 32 (c.fld (DMC_LP_ABORT_CNT.count k) + if issued then 1 else 0)) ∧
    (st = 2 ∨ st = 3 → c.pwr.mark = none → Completes (.retrain k) s fun t => t.mem = s.mem ∧
      (t.chip.ctl k).train = some ⟨[sp], 2, 0, c.now⟩ ∧ t.chip.fld (DMC_STATUS.state k) = 1 ∧
      t.chip.fld (DMC_STATUS.ch_training k) = 15) ∧
    (∀ (t0 : Training) (pass : BitVec 4), let chs := c.fld (DMC_STATUS.ch_training k)
      d.train = some t0 → d.want = none → c.pwr.mark = none → chs ≠ 0 →
      (chs &&& pass.toNat = chs → t0.step < 5 → Completes (.trainingCheckpoint k true pass) s fun t =>
        (t.chip.ctl k).train = some { t0 with step := t0.step + 1, fails := 0 }) ∧
      (chs &&& pass.toNat = chs → 5 ≤ t0.step → t0.todo = [sp] → sp < 3 → c.pendingSnap (140 + k) = none →
        Completes (.trainingCheckpoint k true pass) s fun t => t.mem = s.mem ∧ (t.chip.ctl k).train = none ∧
          bit (t.chip.fld (DMC_TRAIN_STORED.sp k)) sp = true ∧ t.chip.fld (DMC_STATUS.state k) = 2 ∧
          t.chip.fld (DMC_STATUS.ch_failed k) &&& chs = 0) ∧
      (chs &&& pass.toNat ≠ chs → 2 ≤ t0.fails → Completes (.trainingCheckpoint k true pass) s fun t =>
        t.chip.flag (DMC_ERR.train_fail k) = true)) ∧
    (∀ temp : BitVec 16, let dt : Int := c.fld (DMC_RETRAIN_DT.dt k)
      let drift : Int := ((signedOf 16 temp.toNat - Tab.get 0 d.temps sp).natAbs : Nat)
      st = 2 → c.pwr.mark = none → Completes (.autoRetrain k temp) s fun t => t.mem = s.mem ∧
        t.chip.fld (DMC_TEMP.temp k) = temp.toNat ∧
        (dt ≠ 0 → dt < drift → c.anyRunning = false → c.earliest = none → t.chip.fld (DMC_STATUS.state k) = 1) ∧
        (dt = 0 ∨ drift ≤ dt ∨ c.anyRunning = true → t.chip.fld (DMC_STATUS.state k) = 2)) ∧
    (∀ (n : Fin 3) (v : Word), Completes (.spCfgWrite k n v) s fun t => t.mem = s.mem ∧
      (n.val = sp ∨ 6 ≤ v.toNat % 8 → t.chip.fld (DMC_SP_CFG.rate k n) = c.fld (DMC_SP_CFG.rate k n) ∧
        t.chip.flag (DMC_ERR.bad_value k) = true) ∧
      (n.val ≠ sp → v.toNat % 8 < 6 → t.chip.fld (DMC_SP_CFG.rate k n) = v.toNat % 8 ∧
        bit (t.chip.fld (DMC_TRAIN_STORED.sp k)) n = false)) ∧
    (∀ new < 3, st = 6 → d.want = some new → bit (c.fld (DMC_TRAIN_STORED.sp k)) new = true → c.pendingSnap (140 + k) = none →
      Completes (.setpointSwitchDone k) s fun t => t.mem = s.mem ∧ t.chip.fld (DMC_STATUS.sp_active k) = new ∧
        t.chip.fld (DMC_STATUS.state k) = 2 ∧ (t.chip.ctl k).want = none) ∧
    (c.pwr.mark = none → Completes (.ppr k) s fun t => t.mem = s.mem ∧
      (c.anyRunning = true ∨ c.pprAvail k = false ∨ c.flag (DMC_PPR_STATUS.busy k) = true →
        t.chip.flag (DMC_ERR.ppr_refused k) = true ∧ t.chip.fld (DMC_STATUS.state k) = st) ∧
      (c.anyRunning = false → c.pprAvail k = true → c.flag (DMC_PPR_STATUS.busy k) = false → st = 2 →
        t.chip.flag (DMC_PPR_STATUS.busy k) = true ∧ t.chip.fld (DMC_STATUS.state k) = 7)) ∧
    (∀ ok : Bool, c.flag (DMC_PPR_STATUS.busy k) = true → d.want = none → Completes (.pprDone k ok) s fun t =>
      t.chip.flag (DMC_PPR_STATUS.busy k) = false ∧ t.chip.fld (DMC_STATUS.state k) = 2 ∧
      (ok = true → (t.chip.ctl k).spares =
        d.spares.erase (c.fld (DMC_PPR_ADDR.ch k) * 32 + c.fld (DMC_PPR_ADDR.bank k))) ∧
      (ok = false → t.chip.flag (DMC_ERR.ppr_fail k) = true ∧ (t.chip.ctl k).spares = d.spares) ∧
      ((∀ ln, c.dev ln = 0) → SameBytes s t))

/-- O42. A line decode corrects, reports poison or marks the line; write-back, patrol and log. -/
def Obligations.EccOutcomes : Prop :=
  (∀ (s : State) (k : Fin 36) (r : DReq) (rest : List DReq), let c := s.chip
    let a := r.addr
    let old := Memory.read s.mem a 64
    let d := s.decodeLine k (a / 64)
    (c.ctl k).ring = r :: rest → (∀ e ∈ c.dram.prs, e.2.closing = none) → PlainLine s a → r.more = [] →
    (∀ f, d = .fixed f → r.kind = 0 → Completes (.checkRequest k) s fun t => t.mem = s.mem ∧ t.chip.dev (a / 64) = c.dev (a / 64) ∧
      t.chip.out = c.out ++ [.answer r.who r.id .ok (old ^^^ f.data)] ∧
      t.chip.fld (ECC_CE_CNT.count k) = satN 32 (c.fld (ECC_CE_CNT.count k) + 1) ∧
      (c.flag (ECC_CTRL.wb_en k) = true → c.fld (ECC_CTRL.wb_thresh k) ≤ f.symbols → a / 64 ∈ (t.chip.ctl k).fixes)) ∧
    (d = .poison → r.kind = 0 → Completes (.checkRequest k) s fun t => t.mem = s.mem ∧ t.chip.dev (a / 64) = c.dev (a / 64) ∧
      t.chip.out = c.out ++ [.answer r.who r.id .poison old] ∧
      t.chip.fld (ECC_POISON_RD_CNT.count k) = satN 32 (c.fld (ECC_POISON_RD_CNT.count k) + 1) ∧
      (r.who = .bar2 → t.chip.flag (ECC_ERR.host_poison k) = true)) ∧
    (d = .lost → r.kind = 0 → Completes (.checkRequest k) s fun t => t.mem = s.mem ∧ t.chip.dev (a / 64) = poisonMark ∧
      t.chip.out = c.out ++ [.answer r.who r.id .poison old] ∧
      t.chip.fld (ECC_UE_CNT.count k) = satN 32 (c.fld (ECC_UE_CNT.count k) + 1) ∧ t.chip.flag (ECC_ERR.ue k) = true ∧
      ((c.ctl k).log.length < 16 → (t.chip.ctl k).log =
        (c.ctl k).log ++ [⟨a, 0, 0, false, (c.place a).gch, (c.place a).slot, recStamp c.now⟩])) ∧
    (d = .poison ∨ d = .lost → r.kind = 2 ∨ r.kind = 3 → Completes (.checkRequest k) s fun t => t.mem = s.mem ∧
      t.chip.out = c.out ++ [.answer r.who r.id .poison 0]) ∧
    (r.kind = 1 → Completes (.checkRequest k) s fun t => Memory.read t.mem a 64 = r.data % 2 ^ 512 ∧
      t.chip.dev (a / 64) = (if r.bad then poisonMark else 0) ∧ t.chip.out = c.out ++ [.answer r.who r.id .ok 0] ∧
      (r.bad = true → t.chip.flag (ECC_ERR.poison_write k) = true))) ∧
  (∀ (s : State) (k : Fin 36) (ln : Nat) (rest : List Nat) (cflips : BitVec 64), let c := s.chip
    (c.ctl k).fixes = ln :: rest →
    (∀ r ∈ c.bankQueue k (c.place (64 * ln)).qnum, ¬(r.addr = 64 * ln ∧ r.kind = 1)) →
    (∀ f, s.decodeLine k ln = .fixed f → Completes (.eccWriteback k 0 cflips) s fun t =>
      Memory.read t.mem (64 * ln) 64 = (Memory.read s.mem (64 * ln) 64 ^^^ f.data) % 2 ^ 512 ∧
      (∀ x, x < 64 * ln ∨ 64 * ln + 64 ≤ x → Memory.byte t.mem x = Memory.byte s.mem x) ∧
      (cflips = 0 → t.chip.dev ln = 0 ∧ (t.chip.ctl k).fixes = rest ∧
        t.chip.fld (ECC_HARD_CNT.count k) = c.fld (ECC_HARD_CNT.count k)) ∧
      (∀ g, rsDecode (c.fld (ECC_CTRL.max_correct k)) cflips.toNat = .fixed g →
        t.chip.fld (ECC_HARD_CNT.count k) = satN 32 (c.fld (ECC_HARD_CNT.count k) + 1) ∧ t.chip.flag (ECC_ERR.hard k) = true)) ∧
    (s.decodeLine k ln = .clean → Completes (.eccWriteback k 0 cflips) s fun t => t.mem = s.mem ∧ (t.chip.ctl k).fixes = rest)) ∧
  (∀ (s : State) (k : Fin 36) (ch : Fin 4), let c := s.chip
    let u := c.nextData (k / 9) (ch * 9 + k % 9) 8 (Tab.get 0 (c.ctl k).pos ch)
    let next := c.nextData (k / 9) (ch * 9 + k % 9) 8 (u + 1)
    (∀ a, u < 2 ^ 28 → next < 2 ^ 28 → c.unplace (k / 9) (ch * 9 + k % 9) u = some a → s.decodeLine k (a / 64) = .clean →
      c.bankQueue k (c.place a).qnum = [] → (c.ctl k).ring = [] → (c.ctl k).verify = [] → c.flag (PAT_CTRL.en k) = true →
      c.quarterRun (k / 9) = true → c.fld (DMC_STATUS.state k) = 2 → c.flag DMC_MAP_STATUS.init_busy = false →
      c.pwr.mark = none → c.chFailed k (c.place a).ch = false → c.chFailed (c.place a).chkCtl (c.place a).chkCh = false →
      Completes (.patrolVisit k ch 0 0) s fun t => t.mem = s.mem ∧ Tab.get 0 (t.chip.ctl k).pos ch = next ∧
        (t.chip.ctl k).lines = (c.ctl k).lines + 1 ∧ t.chip.dram.dev = c.dram.dev) ∧
    ((∀ i < 4, Tab.get 0 (c.ctl k).pos i = 2 ^ 28) → c.pwr.mark = none → Completes (.patrolVisit k ch 0 0) s fun t =>
      t.mem = s.mem ∧ (t.chip.ctl k).pos = [] ∧ t.chip.fld (PAT_LAP_CNT.count k) = (c.fld (PAT_LAP_CNT.count k) + 1) % 2 ^ 32 ∧
      t.chip.fld (PAT_LAST_LINES.lines k) = (c.ctl k).lines % 2 ^ 32) ∧
    (Completes (.eccClearLog k) s fun t => (t.chip.ctl k).log = [] ∧ t.mem = s.mem ∧ t.chip.dram.dev = c.dram.dev))

/-- O43. KID slots, zeroise and rekey of a protected range. -/
def Obligations.ProtectedRanges : Prop :=
  (∀ (s : State) (slot : Fin 16) (kid : BitVec 8), let c := s.chip
    let clash : Prop := c.fld (PR_KID.state slot) ≠ 0 ∨
      ∃ t < 16, t ≠ slot.val ∧ c.fld (PR_KID.state t) ≠ 0 ∧ c.fld (PR_KID.kid t) = kid.toNat
    (clash → Completes (.kidActivate slot kid) s fun t => t.chip.fld PR_KID_RESULT.result = 2 ∧
      t.chip.flag PR_ERR.kid_refused = true ∧ t.chip.dram = c.dram ∧ t.mem = s.mem ∧
      t.chip.fld (PR_KID.state slot) = c.fld (PR_KID.state slot)) ∧
    (¬clash → Completes (.kidActivate slot kid) s fun t => t.chip.fld PR_KID_RESULT.result = 3 ∧
      t.chip.fld (PR_KID.state slot) = 1 ∧ t.chip.fld (PR_KID.kid slot) = kid.toNat ∧ t.chip.dram = c.dram ∧ t.mem = s.mem) ∧
    (c.fld (PR_KID.state slot) = 1 → Completes (.kidGenerated slot) s fun t => t.chip.fld PR_KID_RESULT.result = 1 ∧
      t.chip.fld (PR_KID.state slot) = 2 ∧ Tab.get 0 t.chip.dram.slotKey slot = c.dram.keys + 1 ∧
      t.chip.dram.keys = c.dram.keys + 1 ∧ t.mem = s.mem) ∧
    (c.kidUsers slot ≠ 0 → Completes (.kidRetire slot) s fun t => t.chip.fld PR_KID_RESULT.result = 2 ∧
      t.chip.flag PR_ERR.kid_refused = true ∧ t.chip.dram = c.dram ∧ t.mem = s.mem) ∧
    (c.kidUsers slot = 0 → Completes (.kidRetire slot) s fun t => t.chip.fld PR_KID_RESULT.result = 1 ∧
      t.chip.fld (PR_KID.state slot) = 0 ∧ Tab.get 0 t.chip.dram.slotKey slot = 0 ∧ t.mem = s.mem)) ∧
  (∀ (s : State) (n slot : Fin 16), let c := s.chip
    (c.prState n = 2 ∨ c.prState n = 4 → Completes (.zeroise n) s fun t => t.chip.prState n = 1 ∧
      t.chip.fld (PR_WALK.pos n) = 0 ∧ t.mem = s.mem ∧ t.chip.dram = c.dram) ∧
    (c.prState n ≠ 2 ∧ c.prState n ≠ 4 → exec (.zeroise n) s = .next s) ∧
    (c.prState n = 1 → c.pwr.mark = none → Completes (.zeroiseDone n) s fun t => t.chip.prState n = 2 ∧
      (t.chip.prange n).poisoned = [] ∧ t.chip.fld (PR_STATE.subtrees n) = 0 ∧
      ∀ a, Memory.byte t.mem a =
        if inPage a (c.prBase n) (c.prSize n) ∨ inPage a (c.prMeta n) (c.prSize n / 2) then 0#8 else Memory.byte s.mem a) ∧
    (c.prState n ≠ 2 ∨ c.fld (PR_KID.state slot) ≠ 2 ∨ c.act (PR_CFG.kid_slot n) = slot.val →
      Completes (.rekey n slot) s fun t => t.chip.flag PR_ERR.bad_value = true ∧ t.chip.prState n = c.prState n ∧ t.mem = s.mem) ∧
    (c.prState n = 2 → c.fld (PR_KID.state slot) = 2 → c.act (PR_CFG.kid_slot n) ≠ slot.val →
      Completes (.rekey n slot) s fun t => t.chip.prState n = 3 ∧ t.chip.fld (PR_STATE.target n) = slot.val ∧ t.mem = s.mem) ∧
    (∀ bad : List Nat, c.prState n = 3 → c.pwr.mark = none → c.dram.dev = [] → Completes (.rekeyDone n bad) s fun t =>
      t.chip.prState n = 2 ∧ t.chip.act (PR_CFG.kid_slot n) = c.fld (PR_STATE.target n) ∧ SameBytes s t ∧
      (bad = [] → t.chip.dram.dev = []) ∧
      ∀ l ∈ bad, l < c.prSize n / 64 → t.chip.dev ((c.prBase n + 64 * l) / 64) = poisonMark) ∧
    (Completes .prClearLog s fun t => t.chip.dram.prLog = [] ∧ t.mem = s.mem))

/-- O44. The Tollgate, the metadata, and the verification of protected lines. -/
def Obligations.ProtectedAccess : Prop :=
  (∀ (s : State) (who : Agent) (id a : Nat) (n : Nat) (u bad : Bool) (data : Line), let c := s.chip
    let denied (t : State) : Prop := t.chip.out = c.out ++ [.answer who id .denied 0] ∧ t.mem = s.mem ∧ t.chip.dram = c.dram
    a < 2 ^ 41 → a % 64 = 0 → c.fld BIST_STATUS.state ≠ 3 → c.offline (c.place a).q = false → extentOf a ∉ c.dram.applying →
    (c.metaOf a = some n → Completes (.dramRead who id a 64 u) s denied ∧ Completes (.dramWrite who id a 64 data bad u) s denied) ∧
    (c.metaOf a = none → c.rangeOf a = some n →
      (c.tollgate who false n = false → Completes (.dramRead who id a 64 u) s fun t => denied t ∧
        t.chip.fld PR_TG_DENY_CNT.count = satN 32 (c.fld PR_TG_DENY_CNT.count + 1) ∧ t.chip.flag PR_ERR.tollgate = true ∧
        (c.flag PR_TG_LAST_HI.valid = false → t.chip.fld PR_TG_LAST_LO.addr_lo + 2 ^ 32 * t.chip.fld PR_TG_LAST_HI.addr_hi = a ∧
          t.chip.fld PR_TG_LAST_HI.class_ = agentClass who)) ∧
      (c.tollgate who true n = false → Completes (.dramWrite who id a 64 data bad u) s denied))) ∧
  (∀ (c : Chip) (n x : Nat) (w : Bool), c.tollgate .bar2 w n = false ∧ c.tollgate .debug w n = false ∧
    c.tollgate (.streamer x) true n = false ∧ (c.prState n = 1 → c.tollgate (.fabric x) w n = false) ∧
    (c.prState n ≠ 1 → c.tollgate (.fabric x) w n = true ∧ c.tollgate (.streamer x) false n = true ∧
      c.tollgate .firmware w n = true ∧
      (c.tollgate (.dma x) w n = true ↔ c.act (if w then PR_CFG.dma_in n else PR_CFG.dma_out n) = 1 ∧
        bit (c.act (PR_DMA_MASK_LO.mask_lo n) + 2 ^ 32 * c.act (PR_DMA_MASK_HI.mask_hi n)) x = true))) ∧
  (∀ (s : State) (k : Fin 36) (r : DReq) (rest : List DReq) (n : Nat), let c := s.chip
    let ln := r.addr / 64
    (c.ctl k).ring = r :: rest → (∀ e ∈ c.dram.prs, e.2.closing = none) → c.rangeOf r.addr = some n → c.prState n ≠ 4 →
    c.underPoison n ((r.addr - c.prBase n) / 64) = false → c.dev ln = 0 → r.kind = 0 → r.more = [] →
    let fast : Prop := c.act (PR_CFG.spec n) = 1 ∧ agentClass r.who < 3
    (fast → Completes (.checkRequest k) s fun t => t.mem = s.mem ∧
      t.chip.out = c.out ++ [.answer r.who r.id .ok (s.plainLine ln)] ∧
      (t.chip.ctl k).verify = (c.ctl k).verify ++ [⟨r, some (recStamp c.now)⟩]) ∧
    (¬fast → Completes (.checkRequest k) s fun t => t.mem = s.mem ∧ t.chip.out = c.out ∧
      (t.chip.ctl k).verify = (c.ctl k).verify ++ [⟨r, none⟩])) ∧
  (∀ (s : State) (k : Fin 36) (i : Nat) (v : DTag) (n l : Nat) (y : Layer), let c := s.chip
    let r := v.req
    let ln := r.addr / 64
    (c.ctl k).verify[i]? = some v → (∀ e ∈ c.dram.prs, e.2.closing = none) → c.rangeOf r.addr = some n → r.more = [] →
    c.dev ln = 0 → c.layerAt r.addr = some y → c.lineCtr y ln ≠ 0 →
    (r.kind = 0 → v.fwd = none → Completes (.tagCheckDone k i .ok) s fun t => t.mem = s.mem ∧
      t.chip.out = c.out ++ [.answer r.who r.id .ok (s.plainLine ln)]) ∧
    (r.kind ≠ 1 → Completes (.tagCheckDone k i .tag) s fun t => t.mem = s.mem ∧ t.chip.dev ln = poisonMark ∧
      t.chip.flag PR_ERR.tag_fail = true ∧
      t.chip.fld (PR_TAG_FAIL_CNT.count n) = satN 32 (c.fld (PR_TAG_FAIL_CNT.count n) + 1) ∧
      (v.fwd = none → .answer r.who r.id .poison (if r.kind = 0 then s.storedLine ln else 0) ∈ t.chip.out) ∧
      (∀ f, v.fwd = some f → .taint r.who r.id r.addr f ∈ t.chip.out)) ∧
    (r.kind = 1 → r.bad = false → r.addr % 64 = 0 → Completes (.tagCheckDone k i .ok) s fun t =>
      Memory.read t.mem r.addr 64 = r.data % 2 ^ 512 ∧ t.chip.dev ln = 0 ∧
      Tab.get 0 t.chip.dram.ctr ln = Tab.get 0 c.dram.ctr ln + 1 ∧ t.chip.out = c.out ++ [.answer r.who r.id .ok 0] ∧
      ∀ x, x < r.addr ∨ r.addr + 64 ≤ x → Memory.byte t.mem x = Memory.byte s.mem x) ∧
    (v.fwd = none → Completes (.tagCheckDone k i (.nodeUe l)) s fun t => t.mem = s.mem ∧ t.chip.flag PR_ERR.tree_ue = true ∧
      t.chip.out = c.out ++
        [.answer r.who r.id (if r.kind = 0 then .poison else .denied) (if r.kind = 0 then s.storedLine ln else 0)])) ∧
  (∀ (s : State) (j : Fin 512) (x req line f t0 : Nat), let c := s.chip
    (Completes (.taintNotice (.fabric x) req line f) s fun t => t.mem = s.mem ∧
      t.chip.out = c.out ++ [.fabric x 5 [req, line, f]]) ∧
    ((c.cl j).read.lookup (line / 64 * 64) = some t0 → Completes (.taintNotice (.cluster j) req line f) s fun t =>
      t.mem = s.mem ∧ t.chip.flag (CL_ERR.taint j) = true))

/-- O45. Packets are routed, refused, timed out and held as the network's rules say. -/
def Obligations.JunctionNetwork : Prop :=
  (∀ (s : State) (j : Fin 260) (port : Fin 11) (h : Line) (pay : List Flit), let c := s.chip
    let sent (t : State) (p : Nat) (x : Line) (y : List Flit) : Prop := t.chip.out = c.out ++ [.packet j p x y] ∧ t.mem = s.mem
    let x := (meshXY j).1
    let y := (meshXY j).2
    let dx := hbits h 0 4
    let dy := hbits h 4 4
    let n := hbits h 8 3
    let back (resp stamp : Nat) : Line := responseTo h resp stamp
    let p1 := routePort j (back 0 0)
    port.val < 4 ∨ port.val = 10 → c.flag (NOC_JSTATUS.swapping j) = false →
    (pktBad h pay = false → bit h.toNat 11 = false → j.val < 256 → (x, y) ≠ (dx, dy) →
      (c.fld (NOC_JSTATUS.link_down j) = 0 → ∃ p < 4,
        ((p = 1 ∧ x < dx) ∨ (p = 3 ∧ dx < x) ∨ (p = 2 ∧ x = dx ∧ y < dy) ∨ (p = 0 ∧ x = dx ∧ dy < y)) ∧
        Completes (.junctionPacket j port h pay) s fun t => sent t p h pay ∧
          t.chip.fld (NOC_FLIT_CNT.count j) = satN 32 (c.fld (NOC_FLIT_CNT.count j) + 1 + pay.length)) ∧
      (c.linkDown j (routePort j h) = true → pktPosted h = false → p1 < 4 → c.linkDown j p1 = false →
        Completes (.junctionPacket j port h pay) s fun t => sent t p1 (back 5 0) [] ∧
          t.chip.fld (NOC_GEN_TIMEOUT_CNT.count j) = satN 32 (c.fld (NOC_GEN_TIMEOUT_CNT.count j) + 1)) ∧
      (c.linkDown j (routePort j h) = true → pktPosted h = true → Completes (.junctionPacket j port h pay) s fun t =>
        t.chip.out = c.out ∧ t.mem = s.mem ∧
        t.chip.fld (NOC_DROP_CNT.count j) = satN 32 (c.fld (NOC_DROP_CNT.count j) + 1))) ∧
    (pktBad h pay = false → bit h.toNat 11 = false → j.val < 256 → (x, y) = (dx, dy) → pktKind h ≠ 6 → n < 6 →
      c.pwr.entering = none →
      (bit (c.fld (NOC_JCFG.port_en j)) n = true → c.portState j n = 0 →
        Completes (.junctionPacket j port h pay) s fun t => sent t (4 + n) h pay) ∧
      (bit (c.fld (NOC_JCFG.port_en j)) n = false → pktPosted h = false → p1 < 4 → c.linkDown j p1 = false →
        Completes (.junctionPacket j port h pay) s fun t => sent t p1 (back 1 0) []) ∧
      (bit (c.fld (NOC_JCFG.port_en j)) n = true → c.portState j n ≠ 0 → pktPosted h = false → p1 < 4 →
        c.linkDown j p1 = false → Completes (.junctionPacket j port h pay) s fun t =>
          sent t p1 (back 4 (c.fld2 (NOC_CLOSE_STAMP_LO.stamp_lo j) (NOC_CLOSE_STAMP_HI.stamp_hi j))) []) ∧
      (bit (c.fld (NOC_JCFG.port_en j)) n = true → c.portState j n ≠ 0 → pktPosted h = true →
        Completes (.junctionPacket j port h pay) s fun t => t.chip.out = c.out ∧ t.mem = s.mem ∧
          t.chip.fld (NOC_DROP_CNT.count j) = satN 32 (c.fld (NOC_DROP_CNT.count j) + 1) ∧
          t.chip.flag (NOC_JERR.post_drop j) = true ∧ t.chip.flag (NOC_DROP_STAMP_HI.valid j) = true)) ∧
    (pktBad h pay = true → pktPosted h = true ∨ (p1 < 4 ∧ c.linkDown j p1 = false) →
      Completes (.junctionPacket j port h pay) s fun t =>
        t.chip.fld (NOC_MALFORMED_CNT.count j) = satN 32 (c.fld (NOC_MALFORMED_CNT.count j) + 1) ∧
        t.chip.flag (NOC_JERR.malformed j) = true ∧ t.mem = s.mem ∧
        t.chip.out = c.out ++ if pktPosted h then [] else [.packet j p1 (back 1 0) []])) ∧
  (∀ (s : State) (j : Fin 260) (port : Fin 11) (h : Line) (pay : List Flit), port.val < 4 → pktBad h pay = false →
    s.chip.flag (NOC_JSTATUS.swapping j) = true → Completes (.junctionPacket j port h pay) s fun t =>
      t.chip.out = s.chip.out ∧ (t.chip.junc j).held = (s.chip.junc j).held ++ [(h, pay)]) ∧
  (let next (a p : Nat) : Nat := if p = 1 then [1, 3, 0, 2].getD a 0 else [2, 0, 3, 1].getD a 0
    ∀ a < 4, ∀ b < 4, a ≠ b → next a (ringPort a b) = b ∨ next (next a (ringPort a b)) (ringPort (next a (ringPort a b)) b) = b) ∧
  (∀ (s : State) (j : Fin 260) (p : Fin 4) (n : Fin 6) (tag : BitVec 10) (o : Nat × Nat × Nat), let c := s.chip
    (c.linkDown j p = false → Tab.get 0 (c.junc j).fails p = 3 → Completes (.linkCrcError j ⟨p.val, by omega⟩ true) s fun t =>
      t.chip.linkDown j p = true ∧ t.chip.flag (NOC_JERR.link_down j) = true ∧ t.chip.flag NOC_ERR.link_down = true ∧ t.mem = s.mem) ∧
    (c.linkDown j p = false → Completes (.linkCrcError j ⟨p.val, by omega⟩ false) s fun t => Tab.get 0 (t.chip.junc j).fails p = 0 ∧
      t.chip.fld (NOC_REPLAY_CNT.count j) = satN 32 (c.fld (NOC_REPLAY_CNT.count j) + 1) ∧ t.mem = s.mem) ∧
    ((c.junc j).open_.find? (fun o => o.1 = n.val ∧ o.2.1 = tag.toNat) = some o → Completes (.requestTimeout j n tag) s fun t =>
      (t.chip.junc j).open_ = (c.junc j).open_.erase o ∧ t.chip.flag NOC_ERR.timeout = true ∧
      t.chip.fld NOC_TIMEOUT_CNT.count = satN 32 (c.fld NOC_TIMEOUT_CNT.count + 1) ∧ t.mem = s.mem ∧
      (c.flag NOC_TIMEOUT_LAST.valid = false → t.chip.fld NOC_TIMEOUT_LAST.dst = o.2.2 % 2 ^ 12))) ∧
  (∀ (s : State) (d : Closure), let c := s.chip
    (Completes (.portClose d) s fun t => t.mem = s.mem ∧ ∀ j < 260, ∀ n < 6, t.chip.portState j n =
      if (j, n) ∈ closurePorts d ∧ c.portState j n = 0 then 1 else c.portState j n) ∧
    (Completes (.portClosed d) s fun t => t.mem = s.mem ∧ ∀ j < 260, ∀ n < 6, t.chip.portState j n =
      if (j, n) ∈ closurePorts d ∧ c.portState j n = 1 then 2 else c.portState j n) ∧
    (c.domainBack d = true → Completes (.portReopen d) s fun t => t.mem = s.mem ∧ ∀ j < 260, ∀ n < 6, t.chip.portState j n =
      if (j, n) ∈ closurePorts d then 0 else c.portState j n)) ∧
  (∀ (s : State) (j : Fin 260) (p : Fin 10), let c := s.chip
    (c.flag (NOC_JSTATUS.swapping j) = true ∨ c.flag (NOC_JSTATUS.swap_pending j) = true → Completes (.swap j) s fun t =>
      t.chip.flag (NOC_JERR.bad_value j) = true ∧ t.chip.juncs = c.juncs) ∧
    (c.flag (NOC_JSTATUS.swapping j) = false → c.flag (NOC_JSTATUS.swap_pending j) = false → Completes (.swap j) s fun t =>
      t.chip.flag (NOC_JSTATUS.swapping j) = true ∧ (∀ i < 10, i ∈ (t.chip.junc j).waiting) ∧
      t.chip.fld (NOC_JCFG.port_en j) = c.fld (NOC_JCFG.port_en j)) ∧
    (p.val ∈ (c.junc j).waiting → (c.junc j).waiting.erase p ≠ [] → Completes (.swapPortDone j ⟨p.val, by omega⟩) s fun t =>
      (t.chip.junc j).waiting = (c.junc j).waiting.erase p ∧ t.chip.fld (NOC_JCFG.vc3_share j) = c.fld (NOC_JSHADOW.vc3_share j) ∧
      (4 ≤ p.val → bit (t.chip.fld (NOC_JCFG.port_en j)) (p - 4) = bit (c.fld (NOC_JSHADOW.port_en j)) (p - 4))) ∧
    (c.flag (NOC_JSTATUS.swapping j) = true → (c.junc j).held = [] → Completes (.swapPortDone j 10) s fun t =>
      t.chip.flag (NOC_JSTATUS.swapping j) = false ∧
      (t.chip.flag (NOC_JSTATUS.swap_pending j) = true ↔ (c.junc j).waiting ≠ [])))

/-- O46. The BAR2 window, ring configuration, doorbells, descriptor fetch and writeback, and the link. -/
def Obligations.HostRings : Prop :=
  (∀ (s : State) (id o n : Nat) (l : Line) (bytes : List Nat), let c := s.chip
    let a := c.winAddr o
    let asked := c.out ++ [.dramRead .bar2 (a / 64 * 64) 64]
    c.inRecovery = false → 0 < n → a % 64 + n ≤ 64 →
    (Completes (.bar2Read id o n [(.ok, l)]) s fun t => t.mem = s.mem ∧
      t.chip.out = asked ++ [.completion 0 (((bytesLE 64 l.toNat).drop (a % 64)).take n)]) ∧
    (Completes (.bar2Read id o n [(.poison, l)]) s fun t => t.mem = s.mem ∧ t.chip.flag HIF_ERR.bar2_poison = true ∧
      t.chip.out = asked ++ [.completion 1 (((bytesLE 64 l.toNat).drop (a % 64)).take n)]) ∧
    (Completes (.bar2Read id o n [(.denied, l)]) s fun t => t.mem = s.mem ∧ t.chip.flag HIF_ERR.bar2_denied = true ∧
      t.chip.fld HIF_BAR2_DENY_CNT.count = satN 32 (c.fld HIF_BAR2_DENY_CNT.count + 1) ∧ t.chip.out = asked ++ [.completion 2 []]) ∧
    (Completes (.bar2Read id o n [(.timeout, l)]) s fun t => t.chip.flag HIF_ERR.bar2_timeout = true ∧
      t.chip.out = asked ++ [.completion 2 []]) ∧
    (Completes (.bar2Read id o n []) s fun t => t.chip.out = asked ∧ t.chip.host.reads = c.host.reads ++ [(id, a, n)]) ∧
    (bytes.length = n → Completes (.bar2Write o bytes [.ok]) s fun t => t.mem = s.mem ∧
      t.chip.out = c.out ++ [.dramWrite .bar2 a bytes] ∧ t.chip.fld HIF_BAR2_DENY_CNT.count = c.fld HIF_BAR2_DENY_CNT.count) ∧
    (bytes.length = n → Completes (.bar2Write o bytes [.denied]) s fun t => t.chip.flag HIF_ERR.bar2_denied = true ∧
      t.chip.fld HIF_BAR2_DENY_CNT.count = satN 32 (c.fld HIF_BAR2_DENY_CNT.count + 1))) ∧
  (∀ (s : State) (id : Nat) (v : Word) (x : Nat × Nat × Nat), let c := s.chip
    (c.host.reads.find? (fun x => x.1 = id) = some x → Completes (.bar2Timeout id) s fun t => t.mem = s.mem ∧
      t.chip.host.reads = c.host.reads.erase x ∧ t.chip.out = c.out ++ [.completion 2 []] ∧ t.chip.flag HIF_ERR.bar2_timeout = true) ∧
    (Completes (.winBaseWrite v) s fun t => t.chip.fld HIF_WIN_BASE.base = v.toNat % 2 ^ 11 ∧ t.mem = s.mem)) ∧
  (∀ (s : State) (r : Fin 256) (v : Word), let c := s.chip
    let size := v.toNat % 32
    let kind := v.toNat / 32 % 4
    let legal : Prop := (size = 0 ∨ (3 ≤ size ∧ size ≤ 16)) ∧ kind < 2
    let pi := c.fld (RING_PI.pi r)
    let ci := c.fld (RING_CI.ci r)
    (¬legal ∨ (c.ringOn r = true ∧ size ≠ 0) → Completes (.ringCfgWrite r v) s fun t =>
      t.chip.flag (RING_ERR.bad_value r) = true ∧ t.chip.rings = c.rings ∧
      t.chip.fld (RING_CFG.log2_size r) = c.fld (RING_CFG.log2_size r)) ∧
    (legal → c.ringOn r = false → size ≠ 0 → Completes (.ringCfgWrite r v) s fun t => t.mem = s.mem ∧
      t.chip.fld (RING_CFG.log2_size r) = size ∧ t.chip.fld (RING_CFG.kind r) = kind ∧ t.chip.fld (RING_PI.pi r) = 0 ∧
      t.chip.fld (RING_HEAD.head r) = 0 ∧ t.chip.fld (RING_CI.ci r) = 0 ∧ (t.chip.ring r).fetch = 0 ∧ (t.chip.ring r).ready = []) ∧
    (legal → c.ringOn r = true → size = 0 → Completes (.ringCfgWrite r v) s fun t => t.mem = s.mem ∧ t.chip.ringOn r = false ∧
      (t.chip.ring r).ready = [] ∧ t.chip.flag (RING_ERR.size_zero r) = true ∧ ∀ x ∈ (c.ring r).runs, x ∈ (t.chip.ring r).runs) ∧
    (c.ringOn r = true → diff32 v.toNat pi ≤ c.ringSize r → diff32 v.toNat ci ≤ c.ringSize r →
      Completes (.doorbellPi r v) s fun t => t.chip.fld (RING_PI.pi r) = v.toNat ∧ t.mem = s.mem) ∧
    (c.ringOn r = false ∨ c.ringSize r < diff32 v.toNat pi ∨ c.ringSize r < diff32 v.toNat ci →
      Completes (.doorbellPi r v) s fun t => t.chip.fld (RING_PI.pi r) = pi ∧ t.chip.flag (RING_ERR.bad_doorbell r) = true) ∧
    (c.ringOn r = true → diff32 v.toNat ci ≤ diff32 (c.fld (RING_HEAD.head r)) ci → Completes (.doorbellCi r v) s fun t =>
      t.chip.fld (RING_CI.ci r) = v.toNat ∧ t.mem = s.mem) ∧
    (c.ringOn r = false ∨ diff32 (c.fld (RING_HEAD.head r)) ci < diff32 v.toNat ci → Completes (.doorbellCi r v) s fun t =>
      t.chip.fld (RING_CI.ci r) = ci ∧ t.chip.flag (RING_ERR.bad_doorbell r) = true)) ∧
  (∀ (s : State) (r : Fin 256) (b : Line) (x : DmaRun) (rest : List DmaRun) (code : Nat), let c := s.chip
    let g := c.ring r
    (c.ringOn r = true → g.stopped = false → g.fetch ≠ c.fld (RING_PI.pi r) → diff32 g.fetch (c.fld (RING_HEAD.head r)) < 8 →
      c.hostUp = true → c.pwr.mark = none → c.router.queue = [] →
      ((descOf b).own = true → Completes (.descFetch r (some b)) s fun t => t.mem = s.mem ∧
        t.chip.out = c.out ++ [.hostRead (c.entryAddr r g.fetch) 64] ∧ (t.chip.ring r).fetch = (g.fetch + 1) % 2 ^ 32 ∧
        (t.chip.ring r).ready = g.ready ++ [(g.fetch, descOf b)]) ∧
      ((descOf b).own = false → Completes (.descFetch r (some b)) s fun t => (t.chip.ring r).stopped = true ∧
        (t.chip.ring r).ready = g.ready ∧ t.chip.flag (RING_ERR.not_owned r) = true) ∧
      (Completes (.descFetch r none) s fun t => t.chip.flag (RING_ERR.desc_fetch r) = true ∧ (t.chip.ring r).ready = g.ready ∧
        (c.fld (RING_CFG.kind r) = 0 → t.chip.fld (DMA_STATUS.state (r / 4)) = 3))) ∧
    (g.runs = x :: rest → x.status = some code → x.stale = false → c.hostUp = true → bit x.desc.word 8 = false →
      Completes (.descWriteback r) s fun t => t.mem = s.mem ∧ (t.chip.ring r).runs = rest ∧
        t.chip.fld (RING_HEAD.head r) = (x.entry + 1) % 2 ^ 32 ∧
        t.chip.out = c.out ++ [.hostWrite (x.addr + 0x28) (bytesLE 8 x.pos ++ bytesLE 4 x.bytes ++ bytesLE 4 code ++ bytesLE 4 x.stamp),
          .hostWrite (x.addr + 0x3C) (bytesLE 4 (x.stamp / 2 ^ 32 % 2 ^ 24))]) ∧
    (g.hold = 2 → Completes (.irqHoldoff r) s fun t => t.mem = s.mem ∧
      (c.vectorOpen (c.fld (RING_IRQ.vector r)) = true → t.chip.out = c.out ++
        [.msix (c.fld (RING_IRQ.vector r)) (c.fld2 (MSIX_ADDR_LO.addr_lo (c.fld (RING_IRQ.vector r)))
          (MSIX_ADDR_HI.addr_hi (c.fld (RING_IRQ.vector r)))) (c.fld (MSIX_DATA.data (c.fld (RING_IRQ.vector r))))])) ∧
    (g.hold ≠ 2 → Completes (.irqHoldoff r) s fun t => t.chip.out = c.out ∧ (t.chip.ring r).hold = 0)) ∧
  (∀ (s : State) (speed : Fin 6) (width : Nat) (kind : Fin 4), let c := s.chip
    (Completes (.linkUp speed width) s fun t => t.chip.flag HIF_STATUS.link_up = true ∧ t.chip.fld HIF_STATUS.speed = speed.val ∧
      t.chip.fld HIF_STATUS.width = width % 32 ∧ t.mem = s.mem) ∧
    (Completes .d3hotEntry s fun t => t.chip.flag HIF_STATUS.d3hot = true ∧ t.mem = s.mem ∧
      (c.flag HIF_STATUS.d3hot = false → t.chip.flag HIF_STATUS.dormant_veto = false)) ∧
    (c.flag HIF_STATUS.d3hot = true → Completes .d3hotExit s fun t => t.chip.flag HIF_STATUS.d3hot = false ∧
      t.chip.flag HIF_STATUS.dormant_veto = true ∧ t.mem = s.mem) ∧
    (Completes (.pcieReset kind) s fun t => t.mem = s.mem ∧ (∀ r < 256, t.chip.ringOn r = false) ∧
      t.chip.rings = [] ∧ t.chip.dmas = [] ∧ t.chip.fld HIF_WIN_BASE.base = 0 ∧
      (∀ n < 64, t.chip.fld (DMA_STATUS.state n) = 0 ∧ t.chip.flag (DMA_CTRL.en n) = false) ∧
      (∀ v < 2048, t.chip.flag (MSIX_CTL.masked v) = true ∧ t.chip.fld (MSIX_DATA.data v) = 0) ∧
      (∀ w < 64, t.chip.fld (EV_PBA.pending w) = 0) ∧
      t.chip.fld HIF_RESET_CNT.count = satN 16 (c.fld HIF_RESET_CNT.count + 1)))

/-- O47. Descriptors start, move data, end and halt as the DMA rules say. -/
def Obligations.DmaTransfers : Prop :=
  (∀ (s : State) (n : Fin 64) (r e : Nat) (d : Desc), let c := s.chip
    let runs (t : State) : List DmaRun := (t.chip.ring r).runs
    let ends (t : State) (code : Nat) : Prop := t.mem = s.mem ∧ ∃ x : DmaRun, runs t = (c.ring r).runs ++ [x] ∧ x.entry = e ∧ x.desc = d ∧
      x.status = some code ∧ x.bytes = 0 ∧ (t.chip.ring r).ready = (c.ring r).ready.drop 1 ∧ t.chip.out = c.out
    let starts (t : State) (asks : List Out) : Prop := t.mem = s.mem ∧ ∃ x : DmaRun, runs t = (c.ring r).runs ++ [x] ∧ x.desc = d ∧
      x.status = none ∧ x.bytes = 0 ∧ x.wait.length = asks.length ∧ t.chip.out = c.out ++ asks ∧ t.chip.fld (DMA_STATUS.state n) = 2
    let piece (a b : Nat) : Nat := min (64 - a % 64) b
    c.dmaReady n = true → c.ringHead r = some (e, d) → r / 4 = n.val →
    (d.op = 0 → c.nextRing n false = some r → d.bad = false → Completes (.descNop n) s fun t => ends t (if d.len = 0 then 2 else 1)) ∧
    (5 ≤ d.op → d.len ≠ 0 → c.nextRing n false = some r → Completes (.descReservedOp n) s fun t => ends t 9 ∧
      t.chip.fld (DMA_STATUS.state n) = 3 ∧ t.chip.fld (DMA_STATUS.code n) = 9 ∧ t.chip.flag (DMA_ERR.bad_desc n) = true ∧
      t.chip.flag (DMA_ERR.halted n) = true) ∧
    (d.len ≠ 0 → d.bad = false → d.shuffle = 0 → c.hostUp = true → c.nextRing n false = some r →
      (d.op = 1 → Completes (.h2t n) s fun t => starts t [.hostRead d.src (piece d.dst d.len)]) ∧
      (d.op = 2 → Completes (.t2h n) s fun t => starts t [.dramRead (.dma n) (d.src / 64 * 64) 64]) ∧
      (d.op = 3 → Completes (.t2t n) s fun t => starts t [.dramRead (.dma n) (d.src / 64 * 64) 64])) ∧
    (d.op = 4 → d.bad = false → d.len ≠ 0 → c.nextRing n true = some r → c.act (FL_DMA_CH.ch (d.src % 4)) = n.val →
      let q := d.src % 4
      let l := c.flWr q - c.drainPtr n q
      let k := min d.len l / 32 * 32
      let go : Prop := q ∈ (c.dma n).draining ∨ c.fld (DMA_PACE.hi_kib n) * 1024 ≤ l ∨ (c.log q).forced = true ∨
        (0 < l ∧ q ∈ (c.dma n).aged)
      (go → c.drainPtr n q + k < 2 ^ 64 → Completes (.fail n) s fun t => t.mem = s.mem ∧ t.chip.drainPtr n q = c.drainPtr n q + k ∧
        (q ∈ (t.chip.dma n).draining → c.fld (DMA_PACE.lo_kib n) * 1024 ≤ l - k) ∧
        ∃ x : DmaRun, runs t = (c.ring r).runs ++ [x] ∧ x.pos = c.drainPtr n q ∧ x.total = k) ∧
      (¬go → Completes (.fail n) s fun t => r ∈ (t.chip.dma n).waits ∧ runs t = (c.ring r).runs ∧ t.chip.out = c.out))) ∧
  (∀ (s : State) (n : Fin 64) (i : Fin 4) (j : Nat) (x : DmaRun) (l skip k ln : Nat) (resp : Resp) (data : Line), let c := s.chip
    let r := 4 * n.val + i.val
    let end_ (t : State) (code : Nat) : Prop := t.mem = s.mem ∧ ∃ y, (t.chip.ring r).runs[j]? = some y ∧ y.status = some code ∧ y.bytes = x.bytes
    let halted (t : State) (code : Nat) : Prop := t.chip.fld (DMA_STATUS.state n) = 3 ∧ t.chip.fld (DMA_STATUS.code n) = code ∧
      t.chip.flag (DMA_ERR.halted n) = true
    (c.ring r).runs[j]? = some x → x.status = none →
    (x.desc.op = 2 → x.desc.shuffle = 0 → x.wait = [.read l skip k] → x.got = [] → k = x.size x.unit → skip + k ≤ 64 →
      x.total ≤ x.offset (x.unit + 1) → x.ep = false → c.hostUp = true →
      Completes (.dmaDataResponse n ⟨i, by omega⟩ j (.tile .ok data)) s fun t => t.mem = s.mem ∧
        t.chip.out = c.out ++ [.hostWrite (x.desc.dst + x.offset x.unit) (((bytesLE 64 data.toNat).drop skip).take k)] ∧
        ∃ y, (t.chip.ring r).runs[j]? = some y ∧ y.status = some 1 ∧ y.bytes = x.bytes + k) ∧
    (∀ rest, x.wait = .read l skip k :: rest → resp ≠ .ok → Completes (.dmaDataResponse n ⟨i, by omega⟩ j (.tile resp data)) s fun t =>
      end_ t (dmaCode resp) ∧ halted t (dmaCode resp) ∧ t.chip.out = c.out ∧ (c.flag (DMA_FAULT_HI.valid n) = false →
        t.chip.fld (DMA_FAULT_LO.addr_lo n) = l % 2 ^ 32 ∧ t.chip.flag (DMA_FAULT_HI.valid n) = true)) ∧
    (∀ rest, x.wait = .host ln :: rest → Completes (.completionTimeout n ⟨i, by omega⟩ j) s fun t =>
      end_ t 8 ∧ halted t 8 ∧ t.chip.flag (DMA_ERR.host_err n) = true ∧ t.chip.flag HIF_ERR.host_cpl = true)) ∧
  (∀ (s : State) (n : Fin 64) (q : Fin 4) (v : Word) (f : Nat), let c := s.chip
    let st := c.fld (DMA_STATUS.state n)
    (Completes (.drainWait n q) s fun t => t.mem = s.mem ∧ (c.drainPtr n q < c.flWr q → q.val ∈ (t.chip.dma n).draining ∧ q.val ∈ (t.chip.dma n).aged)) ∧
    (st ≠ 2 ∧ st ≠ 4 ∧ st ≠ 5 → Completes (.dmaAbort n) s fun t => t.chip.flag (DMA_ERR.bad_value n) = true ∧ t.chip.rings = c.rings) ∧
    (∀ x : DmaRun, st = 2 → (c.dma n).waits = [] → (c.ring (4 * n)).runs = [x] → x.status = none → x.desc.op ≠ 4 →
      (∀ i < 4, 0 < i → (c.ring (4 * n + i)).runs = []) → Completes (.dmaAbort n) s fun t => t.mem = s.mem ∧
        t.chip.fld (DMA_STATUS.state n) = 3 ∧ t.chip.fld (DMA_STATUS.code n) = 10 ∧
        ∃ y, (t.chip.ring (4 * n)).runs = [y] ∧ y.status = some 10 ∧ y.bytes = x.bytes) ∧
    (st = 3 → c.dmaBusy n = false → (c.dma n).stopping = false → (c.dma n).waits = [] →
      Completes (.dmaRestart n) s fun t => t.chip.fld (DMA_STATUS.state n) = 1 ∧ t.mem = s.mem) ∧
    (st ≠ 3 → Completes (.dmaRestart n) s fun t => t.chip.flag (DMA_ERR.bad_value n) = true ∧ t.chip.fld (DMA_STATUS.state n) = st) ∧
    (st = 3 → (c.dma n).failQ = some f → f < 4 → c.drainPtr n f + 64 < 2 ^ 64 → Completes (.dmaSkip n) s fun t =>
      c.drainPtr n f < t.chip.drainPtr n f ∧ t.chip.drainPtr n f ≤ c.drainPtr n f + 64 ∧ t.chip.drainPtr n f % 64 = 0) ∧
    (st ≠ 3 ∨ (c.dma n).failQ = none → Completes (.dmaSkip n) s fun t => t.chip.flag (DMA_ERR.bad_value n) = true) ∧
    (st = 0 → c.flag (DMA_CTRL.en n) = false → bit v.toNat 0 = true → c.dmaBusy n = false → (c.dma n).waits = [] →
      Completes (.dmaCtrlWrite n v) s fun t => t.chip.fld (DMA_STATUS.state n) = 1 ∧ t.chip.flag (DMA_CTRL.en n) = true ∧
        t.chip.flag (DMA_CTRL.t2 n) = bit v.toNat 1 ∧ t.mem = s.mem) ∧
    (c.flag (DMA_CTRL.t2 n) = false ∨ st ≠ 1 → Completes (.t2Start n) s fun t => t.chip.flag (DMA_ERR.bad_value n) = true) ∧
    (c.flag (DMA_CTRL.t2 n) = true → st = 1 → (c.dma n).stopping = false → c.fld (DMA_T2_COUNT.count n) = 0 →
      Completes (.t2Start n) s fun t => t.chip.flag (DMA_T2_STATUS.eoc n) = true ∧ t.chip.fld (DMA_T2_STATUS.code n) = 2 ∧
        t.chip.fld (DMA_STATUS.state n) = 1 ∧ t.mem = s.mem))

/-- O48. The event router latches, records, interrupts and forwards as R372 to R378 say. -/
def Obligations.EventRouter : Prop :=
  (∀ (s : State) (x : Raised) (rest : List Raised), let c := s.chip
    let e := x.num
    c.inflight = x :: rest →
    (c.flag (EV_ROUTE.en e) = false → Completes .eventPacket s fun t => t = { s with chip := { c with inflight := rest } }) ∧
    (e < 768 → c.flag (EV_ROUTE.en e) = true → Completes .eventPacket s fun t => t.mem = s.mem ∧ t.chip.latched e = true ∧
      (∀ k < 768, k ≠ e → t.chip.latched k = c.latched k) ∧
      (c.flag (EV_ROUTE.record e) = false → c.flag (EV_ROUTE.forward e) = false → t.chip.fld EV_SEQ.seq = c.fld EV_SEQ.seq ∧
        (c.latched e = true ∨ c.flag (EV_ROUTE.mask e) = true → t.chip.out = c.out ∧ t.chip.inflight = rest) ∧
        (c.latched e = false → c.flag (EV_ROUTE.mask e) = false → let v := c.fld (EV_ROUTE.vector e)
          (c.vectorOpen v = true → t.chip.out = c.out ++
            [.msix v (c.fld2 (MSIX_ADDR_LO.addr_lo v) (MSIX_ADDR_HI.addr_hi v)) (c.fld (MSIX_DATA.data v))]) ∧
          (c.vectorOpen v = false → t.chip.out = c.out ∧ bit (t.chip.fld (EV_PBA.pending (v / 32))) (v % 32) = true))) ∧
      (c.flag (EV_ROUTE.record e) = true → c.flag (EV_ROUTE.forward e) = false →
        t.chip.fld EV_SEQ.seq = (c.fld EV_SEQ.seq + 1) % 2 ^ 32 ∧
        (c.tileUp = true → c.evRing (c.fld (EV_ROUTE.ring e)) = false →
          t.chip.fld EV_LOST_CNT.count = satN 32 (c.fld EV_LOST_CNT.count + 1) ∧ t.chip.flag EV_ERR.lost = true ∧
          t.chip.flag EV_ERR.bad_ring = true) ∧
        (c.tileUp = false → c.router.standby.length < 64 → ∃ r : EvRec,
          t.chip.router.standby = c.router.standby ++ [(c.fld (EV_ROUTE.ring e), r)] ∧
          r.num = e ∧ r.cause = x.cause ∧ r.seq = c.fld EV_SEQ.seq ∧ r.stamp % 2 ^ 56 = x.stamp % 2 ^ 56 ∧ r.payload = x.payload)))) ∧
  (∀ (s : State) (r : Fin 256) (e d : Nat) (y : Desc) (n : Nat), (s.chip.ring r).buf = some (e, y, n, d) → n ≠ 0 → s.chip.hostUp = true →
    Completes (.eventFlush r) s fun t => t.mem = s.mem ∧ (t.chip.ring r).buf = none ∧
      ∃ x : DmaRun, (t.chip.ring r).runs = (s.chip.ring r).runs ++ [x] ∧ x.entry = e ∧ x.bytes = 64 * n ∧ x.pos = d ∧ x.status = some 1) ∧
  (∀ (s : State) (e : Fin 768) (v : Word), let c := s.chip
    Completes (.evRouteWrite e v) s fun t => t.mem = s.mem ∧ t.chip.fld (EV_ROUTE.vector e) = v.toNat % 2 ^ 11 ∧
      t.chip.flag (EV_ROUTE.mask e) = bit v.toNat 12 ∧ t.chip.flag (EV_ROUTE.record e) = bit v.toNat 13 ∧
      t.chip.flag (EV_ROUTE.forward e) = bit v.toNat 14 ∧ t.chip.flag (EV_ROUTE.en e) = bit v.toNat 15 ∧
      t.chip.fld (EV_ROUTE.ring e) = v.toNat / 2 ^ 16 % 2 ^ 8 ∧ t.chip.latched e = c.latched e ∧
      (bit v.toNat 12 = false → c.latched e = true → c.hostUp = false →
        bit (t.chip.fld (EV_PBA.pending (v.toNat % 2 ^ 11 / 32))) (v.toNat % 32) = true)) ∧
  (∀ (s : State) (v : Fin 2048) (en fm on : Bool), let c := s.chip
    let pend := bit (c.fld (EV_PBA.pending (v / 32))) (v % 32)
    (c.hostUp = true → c.host.msixEn = true → c.host.funcMask = false → pend = true →
      Completes (.msixUnmask (.vector v false)) s fun t => t.chip.flag (MSIX_CTL.masked v) = false ∧ t.mem = s.mem ∧
        bit (t.chip.fld (EV_PBA.pending (v / 32))) (v % 32) = false ∧ t.chip.out = c.out ++
          [.msix v (c.fld2 (MSIX_ADDR_LO.addr_lo v) (MSIX_ADDR_HI.addr_hi v)) (c.fld (MSIX_DATA.data v))]) ∧
    (pend = false → Completes (.msixUnmask (.vector v en)) s fun t => t.chip.flag (MSIX_CTL.masked v) = en ∧ t.chip.out = c.out) ∧
    (Completes (.msixUnmask (.function en fm)) s fun t => t.chip.host.msixEn = en ∧ t.chip.host.funcMask = fm ∧ t.mem = s.mem ∧
      (c.hostUp = true → en = true → fm = false → pend = true → c.flag (MSIX_CTL.masked v) = false →
        bit (t.chip.fld (EV_PBA.pending (v / 32))) (v % 32) = false)) ∧
    (Completes (.busMasterEnable on) s fun t => t.chip.flag HIF_STATUS.bme = on ∧ t.mem = s.mem ∧
      (c.flag HIF_STATUS.d3hot = false → c.flag HIF_STATUS.link_up = true → on = true → t.chip.host.held = []))) ∧
  (∀ (s : State) (u : Fin 8) (seq num tile epoch cause flags rseq stamp : Nat) (payload : List Nat), let c := s.chip
    c.portActive u = true → (c.port u).window = [] → seq = (c.port u).expect → c.isManager = true →
    (c.flag EV_FWD_RING.en = false → Completes (.eventFwd u seq 0 num tile epoch cause flags rseq stamp payload) s fun t =>
      t.mem = s.mem ∧ t.chip.flag EV_ERR.fwd_drop = true ∧
      t.chip.fld EV_FWD_DROP_CNT.count = satN 32 (c.fld EV_FWD_DROP_CNT.count + 1)) ∧
    (c.flag EV_FWD_RING.en = true → c.evRing (c.fld EV_FWD_RING.ring) = true → c.tileUp = true → c.hostUp = false →
      c.router.queue = [] → Completes (.eventFwd u seq 0 num tile epoch cause flags rseq stamp payload) s fun t => t.mem = s.mem ∧
        (∃ r : EvRec, t.chip.router.queue = [(c.fld EV_FWD_RING.ring, r)] ∧ r.num = num ∧ r.tile = tile ∧ r.epoch = epoch ∧
          r.seq = rseq ∧ r.stamp = stamp ∧ bit r.flags 1 = true) ∧
        ⟨13, 0, recStamp c.now, [tile, num]⟩ ∈ t.chip.inflight))

/-- O49. A trunk port takes roles, trains, recovers, resends, tests its lanes and injects errors as R384 to R394 say. -/
def Obligations.TrunkLinks : Prop :=
  (∀ (s : State) (u : Fin 8) (v : Word), let c := s.chip
    let r := bits v.toNat 0 2
    (bit v.toNat 2 = true → c.trkState u = 0 → r ≠ 0 → c.roleLegal u r = true → Completes (.trkCtrlWrite u v) s fun t => t.mem = s.mem ∧
      t.chip.fld (TRK_CTRL.role u) = r ∧ t.chip.flag (TRK_CTRL.en u) = true ∧ t.chip.trkState u = 1 ∧ (t.chip.port u).step = 1) ∧
    (c.roleLegal u r = false → (c.port u).roleNext = none → Completes (.trkCtrlWrite u v) s fun t => t.mem = s.mem ∧
      t.chip.flag (TRK_ERR.bad_value u) = true ∧ t.chip.fld (TRK_CTRL.role u) = c.fld (TRK_CTRL.role u)) ∧
    (bit v.toNat 2 = false → Completes (.trkCtrlWrite u v) s fun t => t.chip.trkState u = 0 ∧ t.chip.flag (TRK_CTRL.en u) = false) ∧
    (c.isManager = true → c.roleLegal u 1 = false ∧ c.roleLegal u 3 = false) ∧ c.roleLegal u 0 = true ∧ c.roleLegal u 2 = true ∧
    (∀ w < 8, w ≠ u.val → (c.port w).roleNext = none → ∀ x, x = 1 ∨ x = 3 → c.fld (TRK_CTRL.role w) = x → c.roleLegal u x = false)) ∧
  (∀ (s : State) (u : Fin 8) (serial : Nat) (e : TrainEnd) (cable : Option (Int × Int)), let c := s.chip
    (c.flag (TRK_CTRL.en u) = true → c.tileUp = true → c.trkState u = 1 ∨ c.trkState u = 7 → Completes (.ckDetect u serial) s fun t =>
      t.mem = s.mem ∧ t.chip.trkState u = 2 ∧ (t.chip.port u).step = 2 ∧
      ((t.chip.port u).quick = true ↔ (c.port u).storedFor = some serial)) ∧
    (c.trkState u = 2 ∨ c.trkState u = 3 →
      (e.ok = true → Completes (.trkTrainingEnd u e cable) s fun t => t.mem = s.mem ∧ t.chip.trkState u = 4 ∧
        t.chip.fld (TRK_STATUS.lane_lock u) = 15 ∧ t.chip.flag (TRK_STATUS.fec_on u) = (c.flag (TRK_CTRL.fec u) || e.fec) ∧
        ((c.port u).quick = false → t.chip.flag (TRK_STATUS.stored u) = true ∧ (t.chip.port u).storedFor = some e.serial ∧
          ∀ n < 4, let k := e.coeff.getD n (0, 0)
            t.chip.fld (TRK_TXEQ_L.pre u n) ≤ 8 ∧
            t.chip.fld (TRK_TXEQ_L.pre u n) + t.chip.fld (TRK_TXEQ_L.post u n) ≤ 16 ∧
            t.chip.fld (TRK_TXEQ_L.main u n) + t.chip.fld (TRK_TXEQ_L.pre u n) + t.chip.fld (TRK_TXEQ_L.post u n) = 48 ∧
            (k.1 ≤ 8 → k.1 + k.2 ≤ 16 → t.chip.fld (TRK_TXEQ_L.pre u n) = k.1 ∧ t.chip.fld (TRK_TXEQ_L.post u n) = k.2))) ∧
      (e.ok = false → Completes (.trkTrainingEnd u e cable) s fun t => t.mem = s.mem ∧ t.chip.out = c.out ∧
        ((c.port u).fails < 2 → t.chip.trkState u = 1 ∧ (t.chip.port u).fails = (c.port u).fails + 1) ∧
        (2 ≤ (c.port u).fails → t.chip.trkState u = 8 ∧ t.chip.flag (TRK_ERR.train_fail u) = true ∧
          (c.flag (TRK_ERR.train_fail u) = false → t.chip.inflight = c.inflight ++ [⟨160 + u.val, 4, recStamp c.now, [e.step]⟩])))) ∧
    (c.trkState u = 5 →
      (e.ok = false → Completes (.trkTrainingEnd u e cable) s fun t => t.chip.trkState u = 1 ∧ t.chip.flag (TRK_ERR.link_down u) = true) ∧
      (e.ok = true → (c.port u).waiting = [] → (c.port u).held = [] →
        ((c.port u).peer = some (e.serial, e.epoch) → Completes (.trkTrainingEnd u e cable) s fun t => t.chip.trkState u = 4 ∧
          (t.chip.port u).window = (c.port u).window ∧ t.chip.out = c.out ++
            (c.port u).window.map fun m => .trunk u m.kind m.seq (c.port u).ack m.fields) ∧
        (∀ (x : Nat × Nat) (m : TMsg), (c.port u).peer = some x → x ≠ (e.serial, e.epoch) → (c.port u).window = [m] → m.kind = .launch →
          Completes (.trkTrainingEnd u e cable) s fun t => t.chip.trkState u = 4 ∧ (t.chip.port u).window = [] ∧ t.chip.out = c.out ∧
            t.chip.flag (TRK_ERR.fwd_drop u) = true ∧
            t.chip.fld (TRK_FWD_DROP_CNT.count u) = satN 32 (c.fld (TRK_FWD_DROP_CNT.count u) + 1)))) ∧
    (c.trkState u = 8 → c.flag (TRK_CTRL.en u) = true → Completes (.trkRetry u) s fun t => t.chip.trkState u = 1) ∧
    (c.trkState u ≠ 8 → exec (.trkRetry u) s = .next s)) ∧
  (∀ (s : State) (u : Fin 8) (lane : Fin 4) (k : Nat), let c := s.chip
    let n := (c.port u).errs
    let recov (t : State) : Prop := t.mem = s.mem ∧ t.chip.trkState u = 5 ∧ (t.chip.port u).window = (c.port u).window ∧
      t.chip.fld (TRK_RECOV_CNT.count u) = satN 32 (c.fld (TRK_RECOV_CNT.count u) + 1)
    (c.portActive u = true →
      (Completes (.blockLockLoss u lane) s fun t => recov t ∧ bit (t.chip.fld (TRK_STATUS.lane_lock u)) lane = false) ∧
      Completes (.recoveryRequest u) s recov ∧
      (c.fld (TRK_ERR_LIMIT.limit u) < n → Completes (.trkErrorWindow u k) s fun t => recov t ∧ t.chip.flag (TRK_ERR.err_rate u) = true) ∧
      (n ≤ c.fld (TRK_ERR_LIMIT.limit u) → Completes (.trkErrorWindow u k) s fun t => t.chip.trkState u = 4 ∧ (t.chip.port u).errs = 0 ∧
        t.chip.fld (TRK_FEC_CORR_CNT.count u) = satN 32 (c.fld (TRK_FEC_CORR_CNT.count u) + k)) ∧
      (Completes (.resendTimer u) s fun t => t.mem = s.mem ∧ (t.chip.port u).window = (c.port u).window ∧
        t.chip.fld (TRK_REPLAY_CNT.count u) = satN 32 (c.fld (TRK_REPLAY_CNT.count u) + (c.port u).window.length) ∧
        t.chip.out = c.out ++ (c.port u).window.map fun m => .trunk u m.kind m.seq (c.port u).ack m.fields) ∧
      (∀ (l r : List TMsg) (m : TMsg), (c.port u).window = l ++ m :: r → (∀ x ∈ l, x.seq ≠ m.seq) → (c.port u).waiting = [] →
        Completes (.idle u m.seq) s fun t => t.mem = s.mem ∧ t.chip.out = c.out ∧ (t.chip.port u).window = r) ∧
      (∀ b : Fin 3, Completes (.trkBadMessage u b k) s fun t => t.mem = s.mem ∧ t.chip.out = c.out ∧
        t.chip.fld (TRK_TIMED_LOST_CNT.count u) = satN 32 (c.fld (TRK_TIMED_LOST_CNT.count u) + k) ∧
        (t.chip.port u).errs = n + (if b = 0 then 0 else 1) ∧
        (if b = 2 then t.chip.flag (TRK_ERR.fec_unc u) = true ∧
            t.chip.fld (TRK_FEC_UNC_CNT.count u) = satN 32 (c.fld (TRK_FEC_UNC_CNT.count u) + 1)
          else t.chip.fld (TRK_CRC_CNT.count u) = satN 32 (c.fld (TRK_CRC_CNT.count u) + 1)))) ∧
    (c.trkState u = 5 → Completes (.recoveryTimeout u) s fun t => t.mem = s.mem ∧ t.chip.trkState u = 1 ∧
      t.chip.flag (TRK_ERR.link_down u) = true ∧ (t.chip.port u).window = (c.port u).window ∧
      (c.flag (TRK_ERR.link_down u) = false →
        t.chip.inflight = c.inflight ++ [⟨160 + u.val, 2, recStamp c.now, [5, c.fld (TRK_RECOV_CNT.count u)]⟩])) ∧
    (Completes (.trkRetrain u) s fun t => t.mem = s.mem ∧ t.chip.flag (TRK_STATUS.stored u) = false ∧
      (t.chip.port u).storedFor = none ∧ t.chip.trkState u = if c.trkState u = 0 then 0 else 1)) ∧
  (∀ (s : State) (u : Fin 8) (errs : List Nat) (k seq ack v : Nat), let c := s.chip
    ((∃ g < 64, c.fld (PGR_STATUS.state g) = 3) ∨ c.trkState u = 0 ∨ c.trkState u = 1 ∨ c.trkState u = 8 →
      Completes (.testStart u) s fun t => t.mem = s.mem ∧ t.chip.flag (TRK_ERR.test_refused u) = true ∧
        t.chip.trkState u = c.trkState u ∧ t.chip.out = c.out) ∧
    ((∀ g < 64, c.fld (PGR_STATUS.state g) ≠ 3) → c.portActive u = true → (c.port u).window.length < 64 →
      Completes (.testStart u) s fun t => t.mem = s.mem ∧ t.chip.trkState u = 6 ∧ t.chip.out = c.out ++
        [.trunk u .testReq (c.port u).nextSeq (c.port u).ack
          [c.fld (TRK_TEST.pattern u) + 16 * c.fld (TRK_TEST.lanes u) + 65536 * c.fld (TRK_TEST.ms u)]]) ∧
    (Heard s u seq → Completes (.testReq u seq ack v) s fun t => t.chip.trkState u = 6 ∧ (t.chip.port u).testVal = v) ∧
    (let ended (t : State) : Prop := t.mem = s.mem ∧ t.chip.trkState u = 1 ∧
        (∀ n < 4, t.chip.fld (TRK_PRBS_ERR_L.count u n) = if bit (c.port u).testVal (4 + n) then
          satN 32 (c.fld (TRK_PRBS_ERR_L.count u n) + errs.getD n 0) else c.fld (TRK_PRBS_ERR_L.count u n)) ∧
        t.chip.fld2 (TRK_PRBS_BITS_LO.lo u) (TRK_PRBS_BITS_HI.hi u) =
          satN 64 (c.fld2 (TRK_PRBS_BITS_LO.lo u) (TRK_PRBS_BITS_HI.hi u) + k) ∧
        ∃ l, t.chip.inflight = c.inflight ++ [⟨160 + u.val, 8, recStamp c.now,
          [bits (c.port u).testVal 0 2, bits (c.port u).testVal 4 4] ++ l⟩]
     (c.trkState u = 6 → Completes (.testStop u errs k) s ended ∧
       (bits (c.port u).testVal 16 16 ≠ 0 → Completes (.trkTestTimeout u errs k) s ended) ∧
       (bits (c.port u).testVal 16 16 = 0 → exec (.trkTestTimeout u errs k) s = .next s)) ∧
     (c.trkState u ≠ 6 → exec (.testStop u errs k) s = .next s)) ∧
    (c.portActive u = true ∨ c.trkState u = 6 →
      ((c.port u).inject = 0 → c.fld (TRK_INJ.count u) ≠ 0 → Completes (.inject u) s fun t => t.mem = s.mem ∧
        (t.chip.port u).inject = c.fld (TRK_INJ.count u) - 1 ∧ t.chip.out = c.out ++ [.trunkError u (c.fld (TRK_INJ.lane u))
          (c.fld (TRK_INJ.kind u)) (if c.fld (TRK_INJ.kind u) = 1 then c.fld (TRK_INJ.burst_len u) else 1)]) ∧
      ((c.port u).inject ≠ 0 → (Completes (.inject u) s fun t => t.chip.flag (TRK_ERR.bad_value u) = true ∧ t.chip.out = c.out ∧
          (t.chip.port u).inject = (c.port u).inject) ∧
        Completes (.injectTick u) s fun t => t.mem = s.mem ∧ (t.chip.port u).inject = (c.port u).inject - 1 ∧
          ∃ x y z, t.chip.out = c.out ++ [.trunkError u x y z])) ∧
    (c.trkState u = 7 → c.fld PWR_STATUS.state = 3 → c.pwr.sealing = none → Completes (.trkWake u) s fun t => t.mem = s.mem ∧
      t.chip.fld PWR_STATUS.wake_cause = 4 ∧ 4 ∈ t.chip.pwr.waking))

/-- O50. Enrolment, refusal, loss, failover and the manager's table act as R395 to R402 and Table 17.4 say. -/
def Obligations.Hierarchy : Prop :=
  (∀ (s : State) (u : Fin 8) (seq ack serial epoch tile hops role : Nat), let c := s.chip
    Heard s u seq →
    (Completes (.hello u seq ack serial epoch tile hops role) s fun t => t.mem = s.mem ∧
      t.chip.fld (TRK_PEER.tile u) = tile % 4096 ∧ t.chip.fld (TRK_PEER.hops u) = hops % 8 ∧ t.chip.fld (TRK_PEER.epoch u) = epoch % 65536 ∧
      t.chip.flag (TRK_PEER.valid u) = true ∧
      t.chip.fld2 (TRK_PEER_SERIAL_LO.lo u) (TRK_PEER_SERIAL_HI.hi u) = serial % 2 ^ 64 ∧
      (c.isManager = false → c.fld (TRK_CTRL.role u) = 1 → c.flag HY_STATUS.enrolled = false →
        (∀ n < 32, c.fld (WS_CFG.b_kind n) = 3 → c.fld (WS_CFG.b_num n) % 8 ≠ u.val) →
        ∃ q a, .trunk u .enrolReq q a [c.serial, c.fld MP_EPOCH.epoch, 0] ∈ t.chip.out) ∧
      (c.isManager = false → c.fld (TRK_CTRL.role u) = 0 ∨ c.fld (TRK_CTRL.role u) = 2 →
        (∀ n < 32, c.fld (WS_CFG.b_kind n) = 3 → c.fld (WS_CFG.b_num n) % 8 ≠ u.val) → t.chip.out = c.out))) ∧
  (∀ (s : State) (u : Fin 8) (seq ack serial epoch nonce mask : Nat) (path : List Nat) (alt : Bool), let c := s.chip
    let i : Instr := .enrolReq u seq ack serial epoch path alt nonce mask
    let refused (t : State) (code : Nat) : Prop := t.mem = s.mem ∧ (∃ q a, .trunk u .enrolRefuse q a [serial, code] ∈ t.chip.out) ∧
      t.chip.hy = c.hy
    let asked (t : State) (n : Nat) : Prop := t.mem = s.mem ∧ (∃ q a, .trunk u .quoteReq q a [serial, nonce, mask] ∈ t.chip.out) ∧
      ⟨serial, epoch, u.val :: path, alt, u.val, n, nonce⟩ ∈ t.chip.hy.pending
    let level := (if c.isManager then 0 else c.fld MP_STATUS.hops) + (path.length + 1)
    Heard s u seq →
    (c.fld (TRK_CTRL.role u) ≠ 2 → Completes i s fun t => refused t 7) ∧
    (c.fld (TRK_CTRL.role u) = 2 →
      (5 < level → Completes i s fun t => refused t 2) ∧
      (level ≤ 5 →
        ((path = [] ∧ (c.port u).peerMgr = true) ∨ serial = c.serial → Completes i s fun t => refused t 4) ∧
        (¬(path = [] ∧ (c.port u).peerMgr = true) → serial ≠ c.serial → c.isManager = true →
          (c.pathLoops serial (u.val :: path) = true → Completes i s fun t => refused t 4) ∧
          (c.pathLoops serial (u.val :: path) = false → alt = false →
            (c.hyNumber serial = none → c.flag HY_CTRL.auto_number = false → Completes i s fun t => refused t 1) ∧
            (∀ n, c.hyNumber serial = none → c.flag HY_CTRL.auto_number = true → c.hyFree = some n → Completes i s fun t => asked t n) ∧
            (c.hyNumber serial = none → c.flag HY_CTRL.auto_number = true → c.hyFree = none →
              Completes i s fun t => refused t 6 ∧ t.chip.flag HY_ERR.table_full = true) ∧
            (∀ n, c.hyNumber serial = some n → (c.hyEntry n).state ≠ 2 → Completes i s fun t => asked t n) ∧
            (∀ n, c.hyNumber serial = some n → (c.hyEntry n).state = 2 → (c.hyEntry n).epoch = epoch →
              (c.hyEntry n).path ≠ u.val :: path → (c.hyEntry n).alt ≠ some (u.val :: path) → Completes i s fun t => refused t 3))) ∧
        (∀ w, ¬(path = [] ∧ (c.port u).peerMgr = true) → serial ≠ c.serial → c.isManager = false → c.flag HY_STATUS.enrolled = true →
          c.fld HY_STATUS.up = w → c.portActive w = true → (c.port w).window = [] → Completes i s fun t => t.mem = s.mem ∧
            (∃ q a, .trunk w .enrolReq q a ([serial, epoch] ++ (u.val :: path) ++ [ofBool alt]) ∈ t.chip.out) ∧
            t.chip.routeTo serial = some u.val)))) ∧
  (∀ (s : State) (u : Fin 8) (seq ack serial tile hops code : Nat) (d : SegData) (fwd rev : Int), let c := s.chip
    Heard s u seq →
    (c.fld (TRK_CTRL.role u) ≠ 3 → -32768 ≤ fwd - rev → fwd - rev < 32768 →
      Completes (.enrolGrant u seq ack c.serial tile hops d (some (fwd, rev))) s fun t => t.mem = s.mem ∧
        t.chip.fld HY_SELF.tile = tile % 4096 ∧ t.chip.flag HY_SELF.valid = true ∧ t.chip.flag HY_STATUS.enrolled = true ∧
        t.chip.fld HY_STATUS.up = u ∧ t.chip.fldS (MP_TRUNK_ASYM.asym u) = fwd - rev ∧ t.chip.fld MP_UPSTREAM.trunk = u ∧
        t.chip.flag MP_UPSTREAM.valid = true ∧ t.chip.fld MP_CTRL.source = 2 ∧ t.chip.flag MP_CTRL.en = true ∧
        t.chip.fld CW_SEGMENT.segment = d.segment % 256) ∧
    (c.fld (TRK_CTRL.role u) = 3 → Completes (.enrolGrant u seq ack c.serial tile hops d none) s fun t => t.mem = s.mem ∧
      t.chip.flag (TRK_STATUS.alt_ready u) = true ∧ t.chip.fld HY_STATUS.alt = u ∧ t.chip.fld HY_SELF.tile = c.fld HY_SELF.tile ∧
      t.chip.out = c.out) ∧
    (∀ w, serial ≠ c.serial → c.routeTo serial = some w → c.portActive w = true → (c.port w).window = [] →
      (Completes (.enrolGrant u seq ack serial tile hops d none) s fun t => t.mem = s.mem ∧
        ∃ q a, .trunk w .enrolGrant q a (grantFields serial tile hops d) ∈ t.chip.out) ∧
      (Completes (.enrolRefuse u seq ack serial code) s fun t => t.mem = s.mem ∧
        ∃ q a, .trunk w .enrolRefuse q a [serial, code] ∈ t.chip.out)) ∧
    (Completes (.enrolRefuse u seq ack c.serial code) s fun t => t.mem = s.mem ∧ t.chip.flag HY_ERR.refused = true ∧
      t.chip.fld HY_STATUS.refuse = code % 8 ∧ t.chip.flag (TRK_ERR.enrol_refused u) = true ∧ t.chip.out = c.out ∧
      t.chip.flag HY_STATUS.enrolled = c.flag HY_STATUS.enrolled ∧
      (c.flag (TRK_ERR.enrol_refused u) = false → t.chip.inflight = c.inflight ++ [⟨160 + u.val, 6, recStamp c.now, [code]⟩])) ∧
    (Completes (.sleep u seq ack) s fun t => t.mem = s.mem ∧ t.chip.trkState u = 7 ∧
      t.chip.inflight = c.inflight ++ [⟨160 + u.val, 7, recStamp c.now, [c.fld (TRK_PEER.tile u)]⟩])) ∧
  (∀ (s : State) (serial : Nat) (p : Enrol), let c := s.chip
    c.hy.pending.find? (fun x => x.serial = serial) = some p → c.portActive p.port = true → (c.port p.port).window.length < 64 →
    Completes (.quoteTimeout serial) s fun t => t.mem = s.mem ∧
      (∃ q a, .trunk p.port .enrolRefuse q a [serial, 5] ∈ t.chip.out) ∧ ∀ x ∈ t.chip.hy.pending, x.serial ≠ serial) ∧
  (∀ (s : State) (u : Fin 8) (seq ack tile serial mark n : Nat), let c := s.chip
    let gone (t : State) (x y : Nat) : Prop := t.mem = s.mem ∧ (t.chip.hyEntry n).state = 3 ∧ (t.chip.hyEntry n).serial = (c.hyEntry n).serial ∧
      t.chip.inflight = c.inflight ++ [⟨168, 3, recStamp c.now, [x, y]⟩]
    (Heard s u seq → c.isManager = true →
      (c.hyNumber serial = some n → (c.hyEntry n).state = 2 → Completes (.lost u seq ack tile serial) s fun t => gone t tile serial) ∧
      Completes (.powerfail u seq ack tile mark) s fun t => t.mem = s.mem ∧
        t.chip.inflight = c.inflight ++ [⟨168, 5, recStamp c.now, [tile, mark]⟩]) ∧
    (Heard s u seq → c.isManager = false → c.flag HY_STATUS.enrolled = true → c.portActive (c.fld HY_STATUS.up) = true →
      (c.port (c.fld HY_STATUS.up)).window = [] →
      (Completes (.lost u seq ack tile serial) s fun t => t.mem = s.mem ∧
        ∃ q a, .trunk (c.fld HY_STATUS.up) .lost q a [tile, serial] ∈ t.chip.out) ∧
      Completes (.powerfail u seq ack tile mark) s fun t => t.mem = s.mem ∧
        ∃ q a, .trunk (c.fld HY_STATUS.up) .powerfail q a [tile, mark] ∈ t.chip.out) ∧
    (let x := c.fld2 (TRK_PEER_SERIAL_LO.lo u) (TRK_PEER_SERIAL_HI.hi u)
     c.fld (TRK_CTRL.role u) = 2 → c.flag (TRK_STATUS.enrolled u) = true → c.trkState u ≠ 4 → c.trkState u ≠ 7 →
     (c.port u).lostSent = false → c.isManager = true → c.hyNumber x = some n → (c.hyEntry n).state = 2 →
     Completes (.downPortLost u) s fun t => gone t (c.fld (TRK_PEER.tile u)) x ∧ (t.chip.port u).lostSent = true) ∧
    (c.trkState u = 4 ∨ c.trkState u = 7 → exec (.downPortLost u) s = .next s) ∧
    (∀ payload : List Nat, Heard s u seq → Completes (.control u seq ack payload none) s fun t => t.mem = s.mem ∧
      t.chip.out = c.out ++ [.firmware 1 (u.val :: payload)])) ∧
  (∀ (s : State) (cable : Option (Int × Int)) (x y : Nat), let c := s.chip
    c.fld HY_STATUS.up = x → c.fld HY_STATUS.alt = y → c.isManager = false → c.flag HY_STATUS.enrolled = true → c.portActive x = false →
    c.flag (TRK_STATUS.alt_ready y) = true → c.portActive y = true → (c.port y).window.length < 64 →
    (c.fld HY_CTRL.failover_ms ≠ 0 → Completes (.failover cable) s fun t => t.mem = s.mem ∧ t.chip.fld HY_STATUS.up = y ∧
      t.chip.fld HY_STATUS.alt = x ∧ t.chip.flag HY_STATUS.failed_over = true ∧ t.chip.fld MP_UPSTREAM.trunk = y ∧
      t.chip.flag MP_UPSTREAM.valid = true ∧ t.chip.fld HY_SELF.tile = c.fld HY_SELF.tile ∧
      (∃ q a, .trunk y .enrolReq q a [c.serial, c.fld MP_EPOCH.epoch, 0] ∈ t.chip.out) ∧
      (cable = none → t.chip.fldS (MP_TRUNK_ASYM.asym y) = c.fldS (TRK_CABLE_SKEW.skew y))) ∧
    (c.fld HY_CTRL.failover_ms = 0 → exec (.failover cable) s = .next s)) ∧
  (∀ (s : State) (word : Fin 3) (v hi : Word), let c := s.chip
    let n := c.fld HY_TAB_SEL.tile
    (c.isManager = false → Completes (.hyTabWrite word v) s fun t => t.mem = s.mem ∧ t.chip.hy = c.hy ∧ t.chip.flag HY_ERR.bad_value = true) ∧
    (c.isManager = true →
      ((c.hyEntry n).reserve = false → Completes (.hyTabWrite 0 v) s fun t => t.chip.hy = c.hy ∧ Completes (.hyTabWrite 1 hi) t fun r =>
        r.mem = s.mem ∧ (r.chip.hyEntry n).serial = v.toNat + 2 ^ 32 * hi.toNat) ∧
      (bit v.toNat 0 = true → (c.hyEntry n).state = 0 → (∀ e ∈ c.hy.tab, e.1 ≠ n → e.2.reserve = true → e.2.serial ≠ (c.hyEntry n).serial) →
        Completes (.hyTabWrite 2 v) s fun t => t.mem = s.mem ∧ t.chip.hyEntry n = { c.hyEntry n with reserve := true, state := 1 }) ∧
      (∀ e ∈ c.hy.tab, bit v.toNat 0 = true → e.1 ≠ n → e.2.reserve = true → e.2.serial = (c.hyEntry n).serial →
        Completes (.hyTabWrite 2 v) s fun t => t.chip.hy = c.hy ∧ t.chip.flag HY_ERR.bad_value = true)))

/-- O51. The Causeway port judges pushes, contends, sends, checks what it receives and quarantines itself as R407 to R417 say. -/
def Obligations.CausewayPort : Prop :=
  (∀ (s : State) (v : Word), let c := s.chip
    let prio := bits v.toNat 0 2
    let ty := bits v.toNat 4 2
    let len := bits v.toNat 8 5
    let T := c.fld3 CW_TX_T_LO.t_lo CW_TX_T_HI.t_hi CW_TX_T_TOP.t_top
    let sc := c.fld CW_TX_ACTION.scope
    let a := c.fld CW_TX_ACTION.type
    let gives (r : Nat) (t : State) : Prop := t.mem = s.mem ∧ t.chip.fld CW_TX_RESULT.result = r ∧ t.chip.out = c.out
    let refused (r : Nat) : Prop := Completes (.cwPush v) s fun t => gives r t ∧ t.chip.flag CW_ERR.bad_push = true ∧ t.chip.cw = c.cw
    let fine : Prop := (ty = 0 ∧ c.now + 8192000 ≤ T ∧ sc ≠ 0 ∧ a < 8) ∨ (ty = 2 ∧ len ≤ 24)
    (ty = 0 → T < c.now + 8192000 → refused 4) ∧
    (ty = 0 → c.now + 8192000 ≤ T → sc = 0 ∨ 8 ≤ a → refused 3) ∧
    (ty = 2 → 24 < len → refused 3) ∧ (ty = 1 ∨ ty = 3 → refused 3) ∧
    (fine → 8 ≤ c.cw.queue.length → Completes (.cwPush v) s fun t => gives 2 t ∧ t.chip.cw = c.cw) ∧
    (fine → c.cw.queue.length < 8 → c.flag CW_STATUS.quarantine = true → ty = 2 ∨ prio ≠ 3 →
      Completes (.cwPush v) s fun t => gives 5 t ∧ t.chip.cw = c.cw) ∧
    (fine → c.cw.queue.length < 8 → c.flag CW_STATUS.quarantine = false ∨ (ty = 0 ∧ prio = 3) →
      Completes (.cwPush v) s fun t => gives 1 t ∧ t.chip.cw.seq = (c.cw.seq + 1) % 65536 ∧
        t.chip.fld CW_STATUS.txq = c.cw.queue.length + 1 ∧ ∃ f : CwFrame, t.chip.cw.queue = c.cw.queue ++ [f] ∧
          f.ftype = ty ∧ f.prio = prio ∧ f.seq = c.cw.seq ∧ f.copies = (if ty = 0 then c.fld CW_CTRL.repeat else 1) ∧ f.sent = false ∧
          f.payload = if ty = 0 then bytesLE 9 T ++ [a] ++ bytesLE 4 (c.fld CW_TX_ARG.arg) ++ [sc] ++
            bytesLE 2 (c.fld CW_TX_ACTION.target) else c.noteBytes.take len)) ∧
  (∀ (s : State) (draw : Fin 4) (f : CwFrame) (l r : List CwFrame), let c := s.chip
    c.cwOn = true → c.flag CW_STATUS.silent = false → c.cw.sending = none →
    (c.cw.queue = l ++ f :: r → (∀ g ∈ l, g.prio < f.prio) → (∀ g ∈ r, g.prio ≤ f.prio) → Completes (.cwBusIdle draw) s fun t =>
      t.mem = s.mem ∧ t.chip.cw = { c.cw with slot := some (4 * (3 - f.prio) + draw.val, f.seq) } ∧ t.chip.out = c.out) ∧
    (∀ k, c.cw.slot = some (k, f.seq) → c.cw.frame (some f.seq) = some f →
      let late : Prop := f.ftype = 0 ∧ cwTime f.payload < c.now + c.fld LQ_GUARD.guard + 2560000
      (Completes (.cwSlot true) s fun t => t.mem = s.mem ∧ t.chip.cw = { c.cw with slot := none } ∧ t.chip.out = c.out) ∧
      (late → Completes (.cwSlot false) s fun t => t.mem = s.mem ∧ t.chip.out = c.out ∧ (∀ x ∈ t.chip.cw.queue, x.seq ≠ f.seq) ∧
        (f.sent = false → t.chip.flag CW_ERR.tx_late = true) ∧
        (f.sent = true → t.chip.flag CW_ERR.tx_late = c.flag CW_ERR.tx_late ∧ t.chip.inflight = c.inflight)) ∧
      (¬late → Completes (.cwSlot false) s fun t => t.mem = s.mem ∧ t.chip.cw.queue = c.cw.queue ∧ t.chip.cw.sending = some f.seq ∧
        ∃ b, t.chip.out = c.out ++ [.frame b]))) ∧
  (∀ (s : State) (f : CwFrame) (mt : Nat), let c := s.chip
    (c.cw.sending = some f.seq → Completes .cwCollision s fun t => t.mem = s.mem ∧ t.chip.cw.sending = none ∧ t.chip.cw.queue = c.cw.queue ∧
      t.chip.fld CW_COLL_CNT.count = satN 32 (c.fld CW_COLL_CNT.count + 1)) ∧
    (c.cw.sending = some f.seq → c.cw.queue = [f] →
      (f.copies ≤ 1 → Completes .cwFrameSent s fun t => t.mem = s.mem ∧ t.chip.cw.queue = [] ∧ t.chip.cw.sending = none) ∧
      (2 ≤ f.copies → Completes .cwFrameSent s fun t => t.mem = s.mem ∧
        t.chip.cw.queue = [{ f with copies := f.copies - 1, sent := true }]) ∧
      (f.ftype ≠ 0 ∨ f.sent = true ∨ c.cwScope f.payload = false → Completes .cwFrameSent s fun t => t.chip.lq = c.lq) ∧
      (let a := f.payload.getD 9 0
       let g := numLE ((f.payload.drop 10).take 4)
       f.ftype = 0 → f.sent = false → c.cwScope f.payload = true → badAction a g = false → c.namesOffline a g = false →
       c.lq.entries.length < 1024 → Completes .cwFrameSent s fun t => ∃ r, t.chip.lq.entries = c.lq.entries ++
         [⟨cwTime f.payload, a, g, c.lq.nextId, c.lq.nextOrd, none, r, none⟩])) ∧
    (Completes (.cwJabber mt) s fun t => t.mem = s.mem ∧ t.chip.flag CW_STATUS.silent = true ∧ t.chip.flag CW_ERR.jabber = true ∧
      t.chip.cw.sending = none) ∧
    (Completes .txReset s fun t => t.mem = s.mem ∧ t.chip.flag CW_STATUS.silent = false ∧ t.chip.cw = c.cw) ∧
    (c.cwOn = true → Completes (.cwBusStuck mt) s fun t => t.mem = s.mem ∧ t.chip.cw = c.cw ∧
      t.chip.fld CW_BUSY_CNT.count = satN 16 (c.fld CW_BUSY_CNT.count + 1) ∧
      t.chip.inflight = c.inflight ++ [⟨182, 2, recStamp c.now, [mt]⟩]) ∧
    (c.cwOn = true → c.flag CW_CTRL.beacon_src = true → c.cw.queue.length < 8 → Completes .cwBeaconTimer s fun t =>
      t.chip.cw.queue = c.cw.queue ++ [⟨1, 0, c.cw.seq, [], 1, false⟩] ∧ t.chip.cw.seq = (c.cw.seq + 1) % 65536)) ∧
  (∀ (s : State) (x : RxFrame) (rx : Nat) (ty : Fin 16) (i : Instr), let c := s.chip
    i = .actionFrame x ∨ i = .beaconFrame x rx ∨ i = .noteFrame x ∨ i = .cwReservedFrame x ty →
    c.cwOn = true → c.cw.sending = none →
    let strange (k : Nat) : Prop := Completes i s fun t => t.mem = s.mem ∧ t.chip.lq = c.lq ∧ t.chip.flag CW_ERR.stranger = true ∧
      t.chip.fld CW_STRANGER_CNT.count = satN 32 (c.fld CW_STRANGER_CNT.count + 1) ∧ t.chip.cw.strange = c.cw.strange + 1 ∧
      (c.flag CW_ERR.stranger = false → t.chip.inflight = c.inflight ++ [⟨178, 0, recStamp c.now, [x.sender, x.epoch, k]⟩])
    (x.good = false → Completes i s fun t => t.mem = s.mem ∧ t.chip.lq = c.lq ∧ t.chip.cw = c.cw ∧
      t.chip.fld CW_CRC_CNT.count = satN 32 (c.fld CW_CRC_CNT.count + 1)) ∧
    (x.good = true → c.cwMember x = none → strange 2) ∧
    (∀ m, x.good = true → c.cwMember x = some m → x.seq < 65536 → let last := c.fld (CW_MEMBER_EPOCH.seq m)
      let d := (x.seq + 65536 - last) % 65536
      let seen := c.flag (CW_MEMBER.seq_valid m)
      let keyed : Prop := x.tagOk = true ∧ bit (c.fld CW_KEY.loaded) (ofBool x.gen) = true
      let took (t : State) : Prop := t.mem = s.mem ∧ t.chip.fld (CW_MEMBER_EPOCH.seq m) = x.seq ∧
        t.chip.flag (CW_MEMBER.seq_valid m) = true ∧ t.chip.fld CW_RX_CNT.count = satN 32 (c.fld CW_RX_CNT.count + 1)
      (¬keyed → strange 3) ∧
      (keyed → seen = true → x.seq = last → Completes i s fun t => t.mem = s.mem ∧ t.chip.lq = c.lq ∧
        t.chip.fld CW_DUP_CNT.count = satN 32 (c.fld CW_DUP_CNT.count + 1)) ∧
      (keyed → seen = true → 32768 < d → strange 5) ∧
      (keyed → seen = false ∨ (0 < d ∧ d ≤ 32768) →
        (Completes (.cwReservedFrame x ty) s fun t => t.mem = s.mem ∧ t.chip.flag CW_ERR.malformed = true ∧ t.chip.lq = c.lq ∧
          t.chip.fld (CW_MEMBER_EPOCH.seq m) = last) ∧
        (c.flag CW_STATUS.quarantine = false → x.payload.length ≤ 24 → Completes (.noteFrame x) s fun t => took t ∧ t.chip.lq = c.lq ∧
          t.chip.inflight = c.inflight ++ [⟨181, 0, recStamp c.now,
            [x.sender, x.payload.length] ++ x.payload ++ List.replicate (24 - x.payload.length) 0⟩]) ∧
        (c.flag CW_STATUS.quarantine = false → x.payload.length = 10 → x.payload.getD 9 0 % 2 = 1 →
          let off : Int := (rx : Int) - numLE (x.payload.take 9) - c.fldS CW_BEACON_DELAY.delay
          off ≥ -2 ^ 31 → off < 2 ^ 31 → Completes (.beaconFrame x rx) s fun t => took t ∧ t.chip.mp = c.mp ∧
            t.chip.fldS CW_BEACON_OFF.off = off ∧ (c.fld CW_BEACON_LIMIT.limit < off.natAbs → t.chip.flag CW_ERR.beacon = true)) ∧
        (actionFormed x.payload = true → let a := x.payload.getD 9 0
          let g := numLE ((x.payload.drop 10).take 4)
          (c.flag CW_STATUS.quarantine = true → a ≠ 3 → a ≠ 4 → Completes (.actionFrame x) s fun t => took t ∧ t.chip.lq = c.lq ∧
            t.chip.fld CW_QDROP_CNT.count = satN 32 (c.fld CW_QDROP_CNT.count + 1)) ∧
          (c.flag CW_STATUS.quarantine = false ∨ a = 3 ∨ a = 4 →
            (c.cwScope x.payload = false → Completes (.actionFrame x) s fun t => took t ∧ t.chip.lq = c.lq) ∧
            (c.cwScope x.payload = true → badAction a g = false → c.namesOffline a g = false → c.lq.entries.length < 1024 →
              Completes (.actionFrame x) s fun t => took t ∧ ∃ r, t.chip.lq.entries = c.lq.entries ++
                [⟨cwTime x.payload, a, g, c.lq.nextId, c.lq.nextOrd, none, r, none⟩])))))) ∧
  (∀ (s : State) (m : Fin 64) (v : Word), let c := s.chip
    let n := c.cw.strange
    (c.flag CW_STATUS.quarantine = false → c.fld CW_Q_LIMIT.limit ≤ n → c.cwOn = true → Completes .strangerWindow s fun t =>
      t.mem = s.mem ∧ t.chip.flag CW_STATUS.quarantine = true ∧ t.chip.cw.strange = 0 ∧
      t.chip.inflight = c.inflight ++ [⟨179, 1, recStamp c.now, [n]⟩]) ∧
    (c.flag CW_STATUS.quarantine = true → n < c.fld CW_Q_LIMIT.limit → Completes .strangerWindow s fun t => t.chip.cw.strange = 0 ∧
      (t.chip.flag CW_STATUS.quarantine = false ↔ c.fld CW_Q_HOLD.ms ≤ c.cw.calm + 1)) ∧
    (c.flag CW_STATUS.quarantine = true → Completes .qExit s fun t => t.mem = s.mem ∧ t.chip.flag CW_STATUS.quarantine = false ∧
      t.chip.inflight = c.inflight ++ [⟨179, 2, recStamp c.now, [c.cw.lastWin]⟩]) ∧
    (Completes (.cwMemberWrite m 0 v) s fun t => t.mem = s.mem ∧ t.chip.fld (CW_MEMBER.tile m) = v.toNat % 4096 ∧
      t.chip.flag (CW_MEMBER.valid m) = bit v.toNat 31 ∧ t.chip.flag (CW_MEMBER.seq_valid m) = false ∧
      t.chip.fld (CW_MEMBER_EPOCH.seq m) = 0 ∧ t.chip.fld (CW_MEMBER_EPOCH.epoch m) = c.fld (CW_MEMBER_EPOCH.epoch m)) ∧
    (Completes (.cwMemberWrite m 1 v) s fun t => t.mem = s.mem ∧ t.chip.fld (CW_MEMBER_EPOCH.epoch m) = v.toNat % 65536 ∧
      t.chip.flag (CW_MEMBER.seq_valid m) = false ∧ t.chip.fld (CW_MEMBER_EPOCH.seq m) = 0))

/-- O52. A Waystation posts, receives, locks, flushes and carries trunk words as R423 to R437 say. -/
def Obligations.Waystations : Prop :=
  (∀ (s : State) (n : Fin 32) (x : Fin 2) (src : Src) (v : Word), let c := s.chip
    let w := c.way n
    let y := 1 - x.val
    let refused (t : State) : Prop := t.mem = s.mem ∧ t.chip.flag (WS_ERR.refused n) = true ∧ t.chip.out = c.out
    (c.wsAllowed n x src = false → (Completes (.wsTx n x src v) s fun t => refused t ∧ t.chip.ways = c.ways) ∧
      Completes (.wsSend n x src v) s fun t => refused t ∧ t.chip.ways = c.ways ∧ t.chip.fld (WS_DB.bells n y) = c.fld (WS_DB.bells n y)) ∧
    (c.wsAllowed n x src = true →
      (w.fillFrom x < 16 → Completes (.wsTx n x src v) s fun t => t.mem = s.mem ∧ t.chip.out = c.out ∧
        (t.chip.way n).opened x = w.opened x ++ [v.toNat] ∧ (t.chip.way n).queues = w.queues ∧
        t.chip.fld (WS_OPEN.words n x) = (w.opened x).length + 1) ∧
      (16 ≤ w.fillFrom x → Completes (.wsTx n x src v) s fun t => refused t ∧ t.chip.flag (WS_OPEN.broken n x) = true ∧
        t.chip.ways = c.ways) ∧
      (c.flag (WS_OPEN.broken n x) = true ∨ (x = 0 ∧ c.fld (WS_CFG.b_kind n) = 2) → Completes (.wsSend n x src v) s fun t => refused t ∧
        (t.chip.way n).opened x = [] ∧ t.chip.flag (WS_OPEN.broken n x) = false ∧ (t.chip.way n).queues = w.queues ∧
        t.chip.fld (WS_DB.bells n y) = c.fld (WS_DB.bells n y)) ∧
      (c.flag (WS_OPEN.broken n x) = false → c.fld (WS_CFG.b_kind n) < 2 → Completes (.wsSend n x src v) s fun t => t.mem = s.mem ∧
        t.chip.out = c.out ∧ (t.chip.way n).opened x = [] ∧
        (t.chip.way n).queue y = w.queue y ++ (if w.opened x = [] then [] else
          [⟨w.opened x, (c.wsBound n x).1, (c.wsBound n x).2, c.fld (WS_REPOCH.epoch n x), c.fld (WS_REPOCH.epoch n x),
            c.fld (WS_REPOCH.epoch n y), 0⟩]) ∧
        t.chip.fld (WS_DB.bells n y) = c.fld (WS_DB.bells n y) ||| v.toNat ∧
        (v.toNat &&& c.fld (WS_DB_MASK.mask n y) ≠ v.toNat → ⟨128 + n.val, 1, recStamp c.now, [y, v.toNat]⟩ ∈ t.chip.inflight)))) ∧
  (∀ (s : State) (n : Fin 32) (x : Fin 2) (src : Src), let c := s.chip
    let w := c.way n
    let a := (WS_RXDATA.word n x).addr
    (w.queue x = [] → Completes (.wsRxdata n x src) s fun t => t = { s with chip := c.emit (.csr src a 0) }) ∧
    (∀ (m : WsMsg) (rest : List WsMsg) (v : Nat), c.fld (WS_CFG.b_kind n) ≠ 3 → w.queue x = m :: rest →
      (∀ v2 vs, m.words = v :: v2 :: vs → Completes (.wsRxdata n x src) s fun t => t.mem = s.mem ∧ t.chip.out = c.out ++ [.csr src a v] ∧
        (t.chip.way n).queue x = { m with words := v2 :: vs } :: rest) ∧
      (m.words = [v] → Completes (.wsRxdata n x src) s fun t => t.mem = s.mem ∧ t.chip.out = c.out ++ [.csr src a v] ∧
        (t.chip.way n).queue x = rest ∧
        (rest = [] → w.opened (1 - x.val) = [] → (c.wsBound n (1 - x.val)).1 < 2 → t.chip.flag (WS_IRQ.tx_empty n (1 - x.val)) = true ∧
          (c.flag (WS_CTRL.empty_irq_en n (1 - x.val)) = true →
            ⟨128 + n.val, 2, recStamp c.now, [1 - x.val]⟩ ∈ t.chip.inflight))))) ∧
  (∀ (s : State) (n : Fin 32) (src : Src) (v : Word) (o : Nat × Nat), let c := s.chip
    let w := c.way n
    let a := (WS_LOCK.lock n).addr
    (w.owner = none → (Completes (.wsLockRead n src) s fun t => t.mem = s.mem ∧ (t.chip.way n).owner = some (partyOf src) ∧
        t.chip.flag (WS_STATUS.locked n) = true ∧ t.chip.out = c.out ++ [.csr src a 0]) ∧ exec (.lockBreak n) s = .next s) ∧
    (w.owner = some o → (Completes (.wsLockRead n src) s fun t => t.mem = s.mem ∧ t.chip.ways = c.ways ∧
        t.chip.out = c.out ++ [.csr src a (if o = partyOf src then 0 else 2 ^ 31 + o.1 * 32 + o.2 * 256)]) ∧
      (Completes (.lockBreak n) s fun t => t.mem = s.mem ∧ (t.chip.way n).owner = none ∧ t.chip.flag (WS_ERR.lock_broken n) = true ∧
        (t.chip.way n).queues = w.queues)) ∧
    (w.owner = some (partyOf src) → v = 0 → Completes (.wsLockWrite n src v) s fun t => t.mem = s.mem ∧ (t.chip.way n).owner = none ∧
      t.chip.flag (WS_STATUS.locked n) = false ∧ (t.chip.way n).queues = w.queues) ∧
    (w.owner ≠ some (partyOf src) ∨ v ≠ 0 → Completes (.wsLockWrite n src v) s fun t => t.mem = s.mem ∧ t.chip.ways = c.ways ∧
      t.chip.flag (WS_ERR.bad_value n) = true)) ∧
  (∀ (s : State) (n : Fin 32) (src : Src) (v : Word), let c := s.chip
    let w := c.way n
    let p := partyOf src
    let k := w.fillFrom 0 + w.fillFrom 1
    let same : Prop := (WS_CFG.flush n).of v.toNat = c.fld (WS_CFG.flush n) ∧ (WS_CFG.a_kind n).of v.toNat = c.fld (WS_CFG.a_kind n) ∧
      (WS_CFG.b_kind n).of v.toNat = c.fld (WS_CFG.b_kind n) ∧ (WS_CFG.b_num n).of v.toNat = c.fld (WS_CFG.b_num n) ∧
      (WS_CFG.peer_ws n).of v.toNat = c.fld (WS_CFG.peer_ws n)
    (Completes (.wsFlush n src) s fun t => t.mem = s.mem ∧ (∀ x < 2, (t.chip.way n).queue x = [] ∧ (t.chip.way n).opened x = [] ∧
      t.chip.fld (WS_DB.bells n x) = 0) ∧ (t.chip.way n).owner = w.owner ∧ t.chip.flag (WS_ERR.flushed n) = true ∧
      t.chip.fld (WS_FLUSH_CNT.count n) = satN 32 (c.fld (WS_FLUSH_CNT.count n) + k) ∧
      ⟨128 + n.val, 5, recStamp c.now, [p.1 * 32 + p.2 * 256, k]⟩ ∈ t.chip.inflight) ∧
    (c.flag (WS_CFG.en n) = true →
      (bit v.toNat 0 = false → same → Completes (.wsCfgWrite n v) s fun t => t.mem = s.mem ∧ t.chip.flag (WS_CFG.en n) = false ∧
        t.chip.ways = c.ways) ∧
      (bit v.toNat 0 = true ∨ ¬same → Completes (.wsCfgWrite n v) s fun t => t.mem = s.mem ∧ t.chip.flag (WS_CFG.en n) = true ∧
        t.chip.flag (WS_ERR.bad_value n) = true ∧ t.chip.fld (WS_CFG.b_kind n) = c.fld (WS_CFG.b_kind n) ∧
        t.chip.fld (WS_CFG.b_num n) = c.fld (WS_CFG.b_num n) ∧ t.chip.ways = c.ways)) ∧
    (c.flag (WS_CFG.en n) = false → Completes (.wsCfgWrite n v) s fun t => t.mem = s.mem ∧ t.chip.flag (WS_CFG.en n) = bit v.toNat 0 ∧
      t.chip.fld (WS_CFG.b_num n) = v.toNat / 2 ^ 8 % 2 ^ 12 ∧
      t.chip.fld (WS_CFG.a_kind n) = (if v.toNat / 4 % 8 < 2 then v.toNat / 4 % 8 else c.fld (WS_CFG.a_kind n)) ∧
      t.chip.fld (WS_CFG.b_kind n) = (if v.toNat / 32 % 8 < 4 then v.toNat / 32 % 8 else c.fld (WS_CFG.b_kind n)) ∧
      (2 ≤ v.toNat / 4 % 8 ∨ 4 ≤ v.toNat / 32 % 8 → t.chip.flag (WS_ERR.bad_value n) = true))) ∧
  (∀ (s : State) (n : Fin 32) (u : Fin 8) (src : Src) (bells : Word) (seq ack epoch word b v : Nat), let c := s.chip
    let w := c.way n
    let mine : Prop := c.flag (WS_CFG.en n) = true ∧ c.fld (WS_CFG.b_kind n) = 3 ∧ c.fld (WS_CFG.b_num n) % 8 = u
    (mine → c.wsAllowed n 0 src = true → c.flag (WS_OPEN.broken n 0) = false → c.portActive u = true → (c.port u).window.length < 64 →
      w.opened 0 = [v] → w.queue 1 = [] → 0 < w.credits → 16 ≤ w.fillFrom 1 + w.granted → Completes (.wsSend n 0 src bells) s fun t =>
        t.mem = s.mem ∧ (t.chip.way n).credits = w.credits - 1 ∧ (t.chip.way n).queue 1 = [] ∧ t.chip.out = c.out ++
          [.trunk u .mailbox (c.port u).nextSeq (c.port u).ack
            [c.fld (WS_CFG.peer_ws n), 3, 0, c.fld (WS_REPOCH.epoch n 0), v, bells.toNat]]) ∧
    (Heard s u seq →
      (mine → b < 2 ^ 32 → Completes (.mailbox u seq ack n 3 0 epoch word b) s fun t => t.mem = s.mem ∧
        (t.chip.way n).opened 1 = [] ∧ (t.chip.way n).queue 0 = w.queue 0 ++ [⟨w.opened 1 ++ [word], 3, c.fld (TRK_PEER.tile u), epoch,
          c.fld (WS_REPOCH.epoch n 1), c.fld (WS_REPOCH.epoch n 0), 0⟩] ∧
        t.chip.fld (WS_DB.bells n 0) = c.fld (WS_DB.bells n 0) ||| b) ∧
      (¬mine → Completes (.mailbox u seq ack n 3 0 epoch word b) s fun t => t.mem = s.mem ∧ t.chip.ways = c.ways ∧
        t.chip.flag (WS_ERR.refused n) = true)))

/-- O53. Loads and readbacks start, verify, clamp, write, fail, release and end as R445 to R454 and Table 20.6 say. -/
def Obligations.ConfigLoads : Prop :=
  (∀ s : State, let c := s.chip
    let r := c.fld CFG_EXPECT.region
    let full := c.flag CFG_EXPECT.full
    let busy : Prop := if full then ∃ q < 4, c.portBusy q = true else c.portBusy (r / 16) = true ∨ c.offline (r / 16) = true
    (busy → Completes .cfgLoad s fun t => t.mem = s.mem ∧ t.chip.fld CFG_CMD_RESULT.result = 2 ∧ t.chip.cfg = c.cfg) ∧
    (¬busy → Completes .cfgLoad s fun t => t.mem = s.mem ∧ t.chip.fld CFG_CMD_RESULT.result = 1 ∧ t.chip.flag CFG_STATUS.run_veto = true ∧
      (∀ x < 64, t.chip.rgState x = if full = true ∨ x = r then 1 else c.rgState x) ∧
      ∃ l : CfgLoad, t.chip.load (if full then 4 else r / 16) = some l ∧ l.full = full ∧ l.region = r ∧ l.start = c.now ∧
        l.header = none ∧ l.clamp = none ∧ l.written = [])) ∧
  (∀ (s : State) (p : Fin 5) (l : CfgLoad) (h : ImgHeader), let c := s.chip
    LoadAt s p l → l.header = none →
    let was := (l.was.lookup l.region).getD 0
    let formed : Prop := h.formOk = true ∧ 1 ≤ h.kind ∧ h.kind ≤ 3 ∧ 1 ≤ h.keySel ∧ h.keySel ≤ 2 ∧ imgCountsOk h = true
    let target : Prop := (l.full = true ↔ h.kind = 1) ∧ (l.full = false → (h.descs.map (·.1)).head? = some l.region ∧
      c.offline (l.region / 16) = false) ∧ ¬(h.grade = 1 ∧ c.fld ID_VARIANT.grade = 0)
    let based : Prop := h.kind = 3 → was = 4 ∧ h.base = c.imageId l.region
    let keyed : Prop := (h.keySel = 1 → c.flag SEC_STATUS.fuse_key = true) ∧ (h.keySel = 2 → c.fld SEC_STATUS.bstore = 2)
    let fails (k : Nat) : Prop := Completes (.cfgChunk p (.header h)) s fun t => LoadFailed s t p l k 0
    (¬formed → fails 1) ∧ (formed → ¬target → fails 2) ∧ (formed → target → ¬based → fails 3) ∧
    (formed → target → based → ¬keyed → fails 4) ∧ (formed → target → based → keyed → h.sigOk = false → fails 5) ∧
    (formed → target → based → keyed → h.sigOk = true →
      Completes (.cfgChunk p (.header h)) s fun t => t = { s with chip := c.setLoad p (some { l with header := some h }) })) ∧
  (∀ (s : State) (p : Fin 5) (l : CfgLoad) (h : ImgHeader) (ok : Bool) (recs : List KerbRec), let c := s.chip
    LoadAt s p l → l.header = some h → l.kerbs = none →
    let good : Prop := recs.map (·.region) = h.descs.map (·.1) ∧ ∀ k ∈ recs, k.crcOk = true ∧ k.backOk = true
    (ok = false → Completes (.cfgChunk p (.kerb ok recs)) s fun t => LoadFailed s t p l 7 0) ∧
    (ok = true → ¬good → Completes (.cfgChunk p (.kerb ok recs)) s fun t => LoadFailed s t p l 6 0) ∧
    (ok = true → good → h.frames = 0 → Completes (.cfgChunk p (.kerb ok recs)) s fun t => t.mem = s.mem ∧ t.chip.load p = none ∧
      (∀ e ∈ l.was, t.chip.rgState e.1 = e.2 % 8) ∧ (∀ q ∈ loadQuarters p, t.chip.fld (CFG_RESULT.code q) = 2) ∧ t.chip.out = c.out) ∧
    (ok = true → good → h.frames ≠ 0 → Completes (.cfgChunk p (.kerb ok recs)) s fun t =>
      t = { s with chip := c.setLoad p (some { l with kerbs := some (recs.map fun k => (k.region, k.words)), chunk := 1 }) })) ∧
  (∀ (s : State) (p : Fin 5) (l : CfgLoad) (h : ImgHeader) (ks : List (Nat × List Nat)), let c := s.chip
    LoadAt s p l → l.header = some h → l.kerbs = some ks → l.clamp = none → Completes (.cfgClamp p) s fun t => t.mem = s.mem ∧
      t.chip.load p = some { l with clamp := some c.now } ∧
      ∀ r ∈ l.regions, t.chip.rgState r = 2 ∧ t.chip.flag (RG_STATUS.clamped r) = true ∧ t.chip.fld (PGR_STATUS.armed r) = 0 ∧
        (∀ i < 8, t.chip.clState (8 * r + i) = 0) ∧ ⟨regionEvent r, 16, recStamp c.now, [h.identity % 2 ^ 64, recStamp c.now]⟩ ∈ t.chip.inflight ∧
        (l.full = false → c.gstate r ≠ 0 → t.chip.gstate r = 4) ∧
        (l.full = true → t.chip.gstate r = 0 ∧ t.chip.flag (PGR_CTRL.enable r) = false)) ∧
  (∀ (s : State) (p : Fin 5) (l : CfgLoad) (h : ImgHeader) (f : FrameRec), let c := s.chip
    let r := l.region
    let i := f.addr / 2 ^ 14 % 2 ^ 12
    let inside : Prop := f.addr < 2 ^ 32 ∧ f.addr % 2 ^ 14 = 0 ∧ f.addr / 2 ^ 26 = r
    LoadAt s p l → l.full = false → l.header = some h → l.clamp.isSome → c.cfgClosed l = true → l.done = false →
    h.keySel = 1 →
    (Completes (.cfgChunk p (.chunk false [f])) s fun t => LoadFailed s t p l 7 0) ∧
    (let go (P : State → Prop) : Prop := Completes (.cfgChunk p (.chunk true [f])) s P
     let fails (k : Nat) : Prop := go fun t => LoadFailed s t p l k f.addr ∧ t.chip.out = c.out ∧
       ∀ x, Tab.get 0 (t.chip.region r).frames x = Tab.get 0 (c.region r).frames x
     (f.crcOk = false → fails 9) ∧
     (f.crcOk = true → ¬inside → fails 10) ∧
     (f.crcOk = true → inside →
       (0xFFA ≤ i → fails 11) ∧
       (i < 0xFFA → f.addr ∈ l.written → fails 12) ∧
       (i < 0xFFA → f.addr ∉ l.written → f.liveOk = false → fails 13) ∧
       (0xFF0 ≤ i → i < 0xFFA → f.addr ∉ l.written → f.liveOk = true → f.avenueOk = false → fails 14) ∧
       (i < 0xFFA → f.addr ∉ l.written → f.liveOk = true → f.avenueOk = true →
         (h.frames ≤ l.written.length → fails 15) ∧
         (l.written.length < h.frames → c.offline (r / 16) = false →
           (l.chunk + 1 < h.chunks → go fun t => t.mem = s.mem ∧ t.chip.rgState r = c.rgState r ∧
             t.chip.fld (CFG_FRAMES.count p) = satN 18 (c.fld (CFG_FRAMES.count p) + 1) ∧
             (i < 0xA50 ∨ 0xFF0 ≤ i → Tab.get 0 (t.chip.region r).frames i = f.payload) ∧
             ∃ l2 : CfgLoad, t.chip.load p = some l2 ∧ l2.written = f.addr :: l.written ∧ l2.chunk = l.chunk + 1 ∧ l2.done = false) ∧
           (h.chunks ≤ l.chunk + 1 → h.kind = 3 ∨ h.frames ≤ l.written.length + 1 → go fun t => t.mem = s.mem ∧ t.chip.rgState r = 3) ∧
           (h.chunks ≤ l.chunk + 1 → h.kind ≠ 3 → l.written.length + 1 < h.frames → go fun t => t.chip.load p = none ∧
             t.chip.rgState r = 0 ∧ t.chip.fld (RG_ABORT.reason r) = 16)))))) ∧
  (∀ (s : State) (p : Fin 5) (l : CfgLoad) (h : ImgHeader) (imgs : List RegionImage), let c := s.chip
    let r := l.region
    LoadAt s p l → l.header = some h →
    (l.done = false → exec (.cfgRelease p imgs) s = .next s) ∧
    (∀ d, l.done = true → l.full = false → c.offline (r / 16) = false → h.descs.lookup r = some d →
      Completes (.cfgRelease p imgs) s fun t => t.mem = s.mem ∧ t.chip.load p = none ∧ t.chip.rgState r = 4 ∧
        t.chip.flag (RG_STATUS.clamped r) = false ∧ t.chip.flag (RG_STATUS.readback_ok r) = h.readback ∧
        t.chip.fld (RG_GCK_MASK.gck r) = d.2.2 % 2 ^ 16 ∧ (∀ i < 4, t.chip.fld (RG_IMAGE_ID.id r i) = h.identity / 2 ^ (32 * i) % 2 ^ 32) ∧
        t.chip.fld2 (RG_LOAD_STAMP_LO.stamp_lo r) (RG_LOAD_STAMP_HI.stamp_hi r) = recStamp c.now ∧
        t.chip.fld (RG_LOAD_CNT.count r) = (c.fld (RG_LOAD_CNT.count r) + 1) % 2 ^ 32 ∧ t.chip.flag (RG_ABORT.valid r) = false ∧
        t.chip.fld (CFG_RESULT.code p) = 1 ∧ (c.gstate r = 4 → t.chip.gstate r = 1))) ∧
  (∀ (s : State) (p : Fin 5) (q : Fin 4) (l : CfgLoad), let c := s.chip
    (LoadAt s p l → Completes (.cfgChunk p .readFail) s fun t => LoadFailed s t p l 8 0) ∧
    (LoadAt s 4 l → Completes (.cfgAbort q) s fun t => LoadFailed s t 4 l 17 0) ∧
    (c.load 4 = none → LoadAt s q l → Completes (.cfgAbort q) s fun t => LoadFailed s t q l 17 0) ∧
    (c.load 4 = none → c.load q = none → exec (.cfgAbort q) s = .next s)) ∧
  (∀ (s : State) (q : Fin 4) (ok : Bool) (x : CfgRead), let c := s.chip
    let r := c.fld CFG_RB_REGION.region
    let i := c.fld CFG_RB_FIRST.index
    let n := c.fld CFG_RB_COUNT.count
    let dst := c.fld CFG_RB_DST_LO.addr_lo * 64 + 2 ^ 32 * c.fld CFG_RB_DST_HI.addr_hi
    (4096 < i + n → Completes .cfgReadback s fun t => t.mem = s.mem ∧ t.chip.flag CFG_ERR.bad_value = true ∧ t.chip.out = c.out) ∧
    (i + n ≤ 4096 →
      (c.rgState r ≠ 4 ∨ c.portBusy (r / 16) = true → Completes .cfgReadback s fun t => t.mem = s.mem ∧ t.chip.out = c.out ∧
        t.chip.fld CFG_CMD_RESULT.result = 2) ∧
      (c.rgState r = 4 → c.portBusy (r / 16) = false →
        (n = 0 → Completes .cfgReadback s fun t => t.mem = s.mem ∧ t.chip.out = c.out ∧
          t.chip.inflight = c.inflight ++ [⟨186, 0, recStamp c.now, [r, i, 0, 2]⟩]) ∧
        (0 < n → Completes .cfgReadback s fun t => t.mem = s.mem ∧ t.chip.readback (r / 16) = some ⟨r, i, n⟩ ∧ t.chip.out = c.out ++
          (List.range n).map fun k => .dramWrite .config (dst + 4112 * k) (c.frameRecord r (i + k))))) ∧
    (c.readback q = some x → Completes (.readbackDone q ok) s fun t => t.mem = s.mem ∧ t.chip.readback q = none ∧
      (ok = false → t.chip.flag CFG_ERR.readback_failed = true) ∧
      ⟨186, 0, recStamp c.now, [x.region, x.first, x.count, if ok then 1 else 3]⟩ ∈ t.chip.inflight) ∧
    (c.readback q = none → exec (.readbackDone q ok) s = .next s))

/-- O54. The Sweeper's visits, reloads and laps and the BIST commands act as R462 to R478 and Tables 21.1 to 21.3 say. -/
def Obligations.SweeperAndBist : Prop :=
  (∀ (s : State) (q : Fin 4) (upset : Nat) (bad : Bool), let c := s.chip
    c.fld SW_STATUS.state = 1 → c.portBusy q = false → q.val ∉ c.sw.done →
    let next := c.nextFrame q (Tab.get 0 c.sw.pos q)
    (next = none → Completes (.sweepVisit q upset bad) s fun t => t.mem = s.mem ∧ q.val ∈ t.chip.sw.done ∧
      bit (t.chip.fld SW_STATUS.active) q = false) ∧
    (∀ r i, next = some (r, i) → Tab.get 0 (c.region r).upsets i = 0 → upset < 2 ^ 33024 →
      let n := countOnes 33024 upset
      let f := if r < 32 then SW_SUSPECT_LO.regions else SW_SUSPECT_HI.regions
      let seen (t : State) : Prop := t.mem = s.mem ∧ t.chip.out = c.out ∧ t.chip.rgState r = c.rgState r ∧
        Tab.get 0 t.chip.sw.seen q = Tab.get 0 c.sw.seen q + 1 ∧ (t.chip.region r).user = (c.region r).user ∧
        Tab.get 0 (t.chip.region r).frames i = Tab.get 0 (c.region r).frames i
      let lost : Prop := c.flag SW_CTRL.reload_en = false ∨ Tab.get none (c.region r).locator i = none
      (n = 0 → Completes (.sweepVisit q upset bad) s fun t => seen t ∧ t.chip.fld SW_CE_CNT.count = c.fld SW_CE_CNT.count) ∧
      (n ≠ 0 → n ≤ 6 → ¬(frameClass i = 2 ∧ bad = true) → Completes (.sweepVisit q upset bad) s fun t => seen t ∧
        Tab.get 0 (t.chip.region r).upsets i = 0 ∧ t.chip.flag SW_ERR.corrected = true ∧
        t.chip.fld SW_CE_CNT.count = satN 32 (c.fld SW_CE_CNT.count + 1) ∧
        t.chip.fld SW_BIT_CNT.count = satN 32 (c.fld SW_BIT_CNT.count + n)) ∧
      (n ≠ 0 → 6 < n ∨ (frameClass i = 2 ∧ bad = true) → Completes (.sweepVisit q upset bad) s fun t => seen t ∧
        Tab.get 0 (t.chip.region r).upsets i = upset ∧
        (¬lost → t.chip.sw.reload = c.sw.reload ++ [(r, i)]) ∧
        (lost → t.chip.sw.reload = c.sw.reload ∧ bit (t.chip.fld f) (r % 32) = true ∧ t.chip.flag SW_ERR.unrepaired = true ∧
          t.chip.fld SW_UNREP_CNT.count = satN 32 (c.fld SW_UNREP_CNT.count + 1))))) ∧
  (∀ (s : State) (r i : Nat) (rest : List (Nat × Nat)) (l : Nat × Nat × Nat) (x : Fin 5), let c := s.chip
    let f := if r < 32 then SW_SUSPECT_LO.regions else SW_SUSPECT_HI.regions
    c.sw.reload = (r, i) :: rest →
    (c.swept r = false → Completes (.sweepReload x) s fun t => t = { s with chip := { c with sw := { c.sw with reload := rest } } }) ∧
    (c.swept r = true → Tab.get none (c.region r).locator i = some l →
      (x = 0 → Completes (.sweepReload x) s fun t => t.mem = s.mem ∧ t.chip.sw.reload = rest ∧
        Tab.get 0 (t.chip.region r).upsets i = 0 ∧ t.chip.flag SW_ERR.reloaded = true ∧
        t.chip.fld SW_RELOAD_CNT.count = satN 32 (c.fld SW_RELOAD_CNT.count + 1)) ∧
      (x ≠ 0 → Completes (.sweepReload x) s fun t => t.mem = s.mem ∧ t.chip.sw.reload = rest ∧
        Tab.get 0 (t.chip.region r).upsets i = Tab.get 0 (c.region r).upsets i ∧ bit (t.chip.fld f) (r % 32) = true ∧
        t.chip.flag SW_ERR.unrepaired = true))) ∧
  (∀ (s : State) (q : Fin 4) (e n : Nat) (k : Fin 3), let c := s.chip
    let run : Prop := c.fld SW_STATUS.state = 1
    let fresh (t : State) : Prop := t.mem = s.mem ∧ t.chip.fld SW_STATUS.state = 1 ∧ t.chip.fld SW_STATUS.active = 15 ∧
      t.chip.sw.seen = [] ∧ t.chip.sw.done = [] ∧ t.chip.sw.since = c.now
    (run → (∀ q < 4, q ∈ c.sw.done) →
      (Completes (.sweepLapEnd none) s fun t => fresh t ∧ t.chip.fld SW_LAST_LAP.us = c.curLap ∧
        t.chip.fld SW_LAST_FRAMES.frames = (c.sw.seen.map (·.2)).sum % 2 ^ 18 ∧
        t.chip.fld SW_LAP_CNT.count = (c.fld SW_LAP_CNT.count + 1) % 2 ^ 32 ∧ t.chip.sw.expired = 0) ∧
      Completes (.sweepLapEnd (some (q, e, n))) s fun t => fresh t ∧ t.chip.flag SW_ERR.seq_fault = true ∧
        t.chip.fld SW_LAP_CNT.count = c.fld SW_LAP_CNT.count ∧ t.chip.fld SW_LAST_LAP.us = c.fld SW_LAST_LAP.us) ∧
    (run → Completes .sweepLapLate s fun t => t.mem = s.mem ∧ t.chip.flag SW_ERR.lap_late = true ∧ t.chip.sw = c.sw) ∧
    (run → Completes .restartLap s fun t => fresh t ∧ t.chip.fld SW_LAP_CNT.count = c.fld SW_LAP_CNT.count) ∧
    (c.fld SW_STATUS.state ≠ 0 → Completes .sweepWatchdog s fun t => t.mem = s.mem ∧ t.chip.flag SW_ERR.watchdog = true ∧
      (c.sw.expired < 2 → fresh t ∧ t.chip.sw.expired = c.sw.expired + 1 ∧ t.chip.flag SW_CTRL.en = c.flag SW_CTRL.en) ∧
      (2 ≤ c.sw.expired → t.chip.fld SW_STATUS.state = 0 ∧ t.chip.flag SW_CTRL.en = false)) ∧
    (c.fld SW_STATUS.state = 0 → exec .sweepWatchdog s = .next s ∧ exec .sweepLapLate s = .next s ∧ exec .restartLap s = .next s) ∧
    (Completes .clearSuspect s fun t => t.mem = s.mem ∧ t.chip.fld SW_SUSPECT_LO.regions = 0 ∧ t.chip.fld SW_SUSPECT_HI.regions = 0) ∧
    (Completes (.sweeperCopyVote k) s fun t => t.mem = s.mem ∧ t.chip.flag SW_ERR.tmr = true ∧ t.chip.sw = c.sw ∧
      t.chip.fld SW_TMR_CNT.count = satN 32 (c.fld SW_TMR_CNT.count + 1))) ∧
  (∀ s : State, let c := s.chip
    let kind := c.fld BIST_TARGET.kind
    let i := c.fld BIST_TARGET.index
    let right : Prop := (kind = 0 ∧ i < 64 ∧ c.rgState i = 4 ∧ c.gstate i ≠ 2 ∧ c.gstate i ≠ 3 ∧ c.portBusy (i / 16) = false) ∨
      (kind = 1 ∧ c.clState i ≤ 1 ∧ (c.cl i).xfer = none) ∨ (2 ≤ kind ∧ i < 64 ∧ c.gstate i ≤ 1)
    let idle : Prop := c.fld BIST_STATUS.state = 0
    (idle → right → Completes .bistSlice s fun t => t.mem = s.mem ∧ t.chip.fld BIST_STATUS.state = 2 ∧ t.chip.bist.run = some (kind, i) ∧
      (kind = 0 → t.chip.rgState i = 2 ∧ t.chip.flag (RG_STATUS.clamped i) = true)) ∧
    (¬(idle ∧ right) → Completes .bistSlice s fun t => t.mem = s.mem ∧ t.chip.fld BIST_SLICE_RESULT.result = 3 ∧
      t.chip.flag BIST_ERR.refused = true ∧ t.chip.bist = c.bist) ∧
    (c.flag BIST_CTRL.periodic = false → exec .bistPeriodic s = .next s) ∧
    (let k := c.bist.next
     let x := sliceTarget k
     c.flag BIST_CTRL.periodic = true → idle → k < 640 → c.sliceAllowed x.1 x.2 = true → c.sliceEligible x.1 x.2 = true →
     Completes .bistPeriodic s fun t => t.mem = s.mem ∧ t.chip.bist.run = some x ∧ t.chip.bist.next = (k + 1) % 640)) ∧
  (∀ (s : State) (kind i : Nat) (fails : List BistFail) (f : BistFail), let c := s.chip
    let logged (t : State) (repair : Nat) : Prop := t.chip.flag BIST_ERR.fail = true ∧
      (c.bist.log.length < 32 → t.chip.bist.log = c.bist.log ++ [⟨f.unit, f.number, f.addr, f.bit, repair, true⟩]) ∧
      (32 ≤ c.bist.log.length → t.chip.bist.log = c.bist.log ∧
        t.chip.fld BIST_LOG_LOST.count = satN 16 (c.fld BIST_LOG_LOST.count + 1))
    (c.bist.run = none → exec (.bistSliceDone fails) s = .next s) ∧
    (c.bist.run = some (kind, i) → kind < 3 → i < 512 → (kind ≠ 1 → i < 64) →
      (Completes (.bistSliceDone []) s fun t => t.mem = s.mem ∧ t.chip.bist.run = none ∧ t.chip.fld BIST_STATUS.state = 0 ∧
        t.chip.fld BIST_SLICE_RESULT.result = 1 ∧ t.chip.bist.log = c.bist.log ∧
        ⟨209, 0, recStamp c.now, [kind, i, 1]⟩ ∈ t.chip.inflight ∧
        (kind = 0 → t.chip.rgState i = 4 ∧ t.chip.flag (RG_STATUS.clamped i) = false) ∧ (kind = 1 → t.chip.clState i = 0)) ∧
      (f.unit = 1 → f.number < 512 → Completes (.bistSliceDone [f]) s fun t => t.chip.fld BIST_SLICE_RESULT.result = 2 ∧ logged t 0 ∧
        bit (t.chip.fld (QB_CLUSTER_FAIL.clusters (f.number / 128) (f.number % 128 / 32))) (f.number % 32) = true) ∧
      (f.unit = 0 → f.number < 10240 → f.addr < 512 → c.flag (BM_ROWREP.row0_en f.number) = false →
        Completes (.bistSliceDone [f]) s fun t => t.chip.fld BIST_SLICE_RESULT.result = 2 ∧ logged t 1 ∧
          t.chip.fld (BM_ROWREP.row0 f.number) = f.addr ∧ t.chip.flag (BM_ROWREP.row0_en f.number) = true))) ∧
  (∀ (s : State) (rows : List BistFail) (us : Nat), let c := s.chip
    let bad : Prop := (∃ g < 64, c.gstate g = 3 ∨ c.gstate g = 2) ∨ (∃ n < 16, c.act (PR_CFG.en n) = 1) ∨
      (∃ j < 512, c.flag (CL_STATUS.run_veto j) = true) ∨ (∃ q < 4, c.flLevel q ≠ 0) ∨ c.fld BIST_STATUS.state ≠ 0
    (bad → Completes .dramFull s fun t => t.mem = s.mem ∧ t.chip.flag BIST_ERR.refused = true ∧
      t.chip.fld BIST_STATUS.state = c.fld BIST_STATUS.state) ∧
    (¬bad → Completes .dramFull s fun t => t.mem = s.mem ∧ t.chip.fld BIST_STATUS.state = 3) ∧
    (c.fld BIST_STATUS.state = 3 → Completes (.dramFullDone rows us) s fun t => t.mem = [] ∧ t.chip.fld BIST_STATUS.state = 0 ∧
      t.chip.dram.dev = [] ∧ ∃ x, t.chip.bist.log = c.bist.log ++ x ∧ ∀ e ∈ x, e.unit = 5 ∧ e.repair = 2) ∧
    (c.fld BIST_STATUS.state ≠ 3 → exec (.dramFullDone rows us) s = .next s) ∧
    (c.bist.ppr ≠ [] → exec .pprApply s = .next s) ∧
    (∀ e : BistEntry, c.bist.ppr = [] → c.bist.log = [e] → e.repair = 2 → e.number < 144 → e.addr < 2 ^ 23 →
      let k := e.number / 4
      (c.anyRunning = true → Completes .pprApply s fun t => t.mem = s.mem ∧ t.chip.flag BIST_ERR.refused = true ∧ t.chip.bist.log = [e] ∧
        t.chip.bist.ppr = []) ∧
      (c.anyRunning = false → (c.ctl k).spares.contains (e.number % 4 * 32 + e.addr / 262144) = true →
        c.flag (DMC_PPR_STATUS.busy k) = false → c.fld (DMC_STATUS.state k) = 2 → c.pwr.mark = none →
        Completes .pprApply s fun t => t.mem = s.mem ∧ t.chip.flag (DMC_PPR_STATUS.busy k) = true ∧ t.chip.bist.ppr = [0] ∧
          t.chip.fld (DMC_PPR_ADDR.row k) = e.addr % 262144)) ∧
    (Completes .bistClearLog s fun t => t = { s with chip := { c with bist := { c.bist with log := [], ppr := [] } } }))

/-- O55. Extends, the debug unlock, key imports, tampering and recovery act as R481 to R493 say. -/
def Obligations.Security : Prop :=
  (∀ s : State, let c := s.chip
    let m := c.fld SEC_EXT_SEL.mr
    (m < 8 → Completes .extend s fun t => t.mem = s.mem ∧ t.chip.flag SEC_ERR.extend_refused = true ∧ t.chip.sec = c.sec ∧
      t.chip.fld SEC_LOG_COUNT.count = c.fld SEC_LOG_COUNT.count ∧ ∀ k < 16, ∀ i < 12, t.chip.fld (SEC_MR_W.value k i) = c.fld (SEC_MR_W.value k i)) ∧
    (8 ≤ m → Completes .extend s fun t => t.mem = s.mem ∧
      t.chip.fld SEC_LOG_COUNT.count = (c.fld SEC_LOG_COUNT.count + 1) % 2 ^ 32 ∧
      (∀ i < 12, t.chip.fld (SEC_MR_W.value m i) = Config.sha384 (c.mrBytes m ++ bytesLE 48 c.extData) / 2 ^ (32 * i) % 2 ^ 32) ∧
      (∀ k < 16, k ≠ m → ∀ i < 12, t.chip.fld (SEC_MR_W.value k i) = c.fld (SEC_MR_W.value k i)) ∧
      Tab.get none t.chip.sec.log ((c.fld SEC_LOG_COUNT.count + 1) % 256) = some ⟨m, 5, 0, c.extData, recStamp c.now⟩)) ∧
  (∀ (s : State) (nonce : Nat) (ok : Bool), let c := s.chip
    let level := c.fld SEC_DBG_LEVEL.level
    let pass : Prop := ok = true ∧ c.sec.chal = true ∧ c.flag SEC_STATUS.debug_disable = false ∧ (level = 1 ∨ level = 2)
    let log (t : State) (n : Nat) : Prop := t.mem = s.mem ∧ t.chip.fld SEC_LOG_COUNT.count = (c.fld SEC_LOG_COUNT.count + n) % 2 ^ 32
    (Completes (.newChallenge nonce) s fun t => t.mem = s.mem ∧ t.chip.sec = { c.sec with chal := true } ∧
      ∀ i < 8, t.chip.fld (SEC_DBG_CHAL.nonce i) = nonce / 2 ^ (32 * i) % 2 ^ 32) ∧
    (c.flag SEC_STATUS.lockout = true → Completes (.unlock ok) s fun t => log t 0 ∧ t.chip.flag SEC_ERR.unlock_fail = true ∧
      t.chip.fld SEC_STATUS.debug = c.fld SEC_STATUS.debug ∧ t.chip.sec = c.sec) ∧
    (c.flag SEC_STATUS.lockout = false →
      (pass → Completes (.unlock ok) s fun t => log t 1 ∧ t.chip.fld SEC_STATUS.debug = level ∧ t.chip.sec.chal = false ∧
        t.chip.sec.fails = 0 ∧ t.chip.inflight = c.inflight ++ [⟨18, 1, recStamp c.now, [level]⟩]) ∧
      (¬pass → Completes (.unlock ok) s fun t => log t 0 ∧ t.chip.fld SEC_STATUS.debug = c.fld SEC_STATUS.debug ∧
        t.chip.flag SEC_ERR.unlock_fail = true ∧ t.chip.sec.chal = false ∧
        (c.sec.fails < 2 → t.chip.sec.fails = c.sec.fails + 1 ∧ t.chip.flag SEC_STATUS.lockout = false) ∧
        (2 ≤ c.sec.fails → t.chip.flag SEC_STATUS.lockout = true ∧ t.chip.inflight = c.inflight ++ [⟨18, 2, recStamp c.now, []⟩]))) ∧
    (Completes .lockoutEnd s fun t => t.mem = s.mem ∧ t.chip.flag SEC_STATUS.lockout = false ∧ t.chip.sec = c.sec) ∧
    (c.fld SEC_STATUS.debug = 0 → exec .relock s = .next s) ∧
    (c.fld SEC_STATUS.debug ≠ 0 → Completes .relock s fun t => log t 1 ∧ t.chip.fld SEC_STATUS.debug = 0 ∧
      t.chip.inflight = c.inflight ++ [⟨18, 3, recStamp c.now, []⟩])) ∧
  (∀ (s : State) (key : Nat), let c := s.chip
    let log (t : State) : Prop := t.mem = s.mem ∧ t.chip.fld SEC_LOG_COUNT.count = (c.fld SEC_LOG_COUNT.count + 1) % 2 ^ 32
    (∀ f, exec (.keyImport f false key) s = .next s) ∧
    (c.flag SEC_STATUS.fuse_key = true → exec (.keyImport true true key) s = .next s) ∧
    (c.flag SEC_STATUS.fuse_key = false → Completes (.keyImport true true key) s fun t => log t ∧
      t.chip.flag SEC_STATUS.fuse_key = true ∧ t.chip.sec.fuseKey = some key ∧ t.chip.sec.batKey = c.sec.batKey) ∧
    (c.fld SEC_STATUS.bstore = 0 → exec (.keyImport false true key) s = .next s) ∧
    (c.fld SEC_STATUS.bstore ≠ 0 → Completes (.keyImport false true key) s fun t => log t ∧ t.chip.fld SEC_STATUS.bstore = 2 ∧
      t.chip.sec.batKey = some key ∧ t.chip.sec.fuseKey = c.sec.fuseKey)) ∧
  (∀ (s : State) (f : Fin 3) (p : Nat) (l : CfgLoad) (h : ImgHeader), let c := s.chip
    (c.fld SEC_STATUS.bstore = 0 → c.cfg.loads = [] → exec (.tamper f) s = .next s) ∧
    (c.fld SEC_STATUS.bstore ≠ 0 →
      (c.cfg.loads = [] → Completes (.tamper f) s fun t => t.mem = s.mem ∧ t.chip.fld SEC_STATUS.bstore = 1 ∧
        bit (t.chip.fld SEC_TAMPER.flags) f = true ∧ t.chip.flag CFG_BOOT.en = false ∧ t.chip.sec.batKey = none ∧
        t.chip.sec.fuseKey = c.sec.fuseKey ∧ (c.tileUp = true → t.chip.flag SEC_ERR.tamper = true) ∧
        (c.tileUp = false → t.chip.inflight = c.inflight ∧ t.chip.sec.due = true)) ∧
      (p < 5 → LoadAt s p l → l.header = some h → h.keySel = 2 → l.clamp = none → (∀ x < 5, x ≠ p → c.load x = none) →
        Completes (.tamper f) s fun t => LoadFailed s t p l 4 0 ∧ t.chip.fld SEC_STATUS.bstore = 1))) ∧
  (∀ (s : State) (k : Fin 4) (a b g : Nat), let c := s.chip
    let log (t : State) (n : Nat) : Prop := t.mem = s.mem ∧ t.chip.fld SEC_LOG_COUNT.count = (c.fld SEC_LOG_COUNT.count + n) % 2 ^ 32
    (c.fld SEC_STATUS.boot ≠ 4 ∨ k = 1 → exec (.recover k a b g) s = .next s) ∧
    (c.fld SEC_STATUS.boot = 4 →
      (k = 2 → Completes (.recover k a b g) s fun t => log t 0 ∧ t.chip.flag SEC_ERR.rollback = true) ∧
      (k = 0 → Completes (.recover k a b g) s fun t => log t 3) ∧ (k = 3 → Completes (.recover k a b g) s fun t => log t 1)))

/-- O56. Quotes and the SPDM responder answer as R488 to R490 say. -/
def Obligations.Attestation : Prop :=
  (∀ (s : State) (i : Instr) (code : Nat) (pay : List Nat) (x : Fin 256) (slot : Fin 8) (sign : Bool) (nonce off len : Nat), let c := s.chip
    let challenge := bytesLE 48 (Config.sha384 Config.deviceCert) ++ bytesLE 32 nonce
    let ms (l : List Nat) : List Nat := l.flatMap c.mrBytes ++ bytesLE 32 nonce
    let signed (b : List Nat) : List Nat := b ++ if sign then Config.deviceSign b else []
    (i = .getVersion ∧ code = 0x04 ∧ pay = [0x12]) ∨ (i = .getCapabilities ∧ code = 0x61 ∧ pay = [0x16]) ∨
    (i = .negotiateAlgorithms ∧ code = 0x63 ∧ pay = [0x80, 2]) ∨ (i = .spdmUnsupported ∧ code = 0x7F ∧ pay = [7]) ∨
    (i = .getDigests ∧ code = 0x01 ∧ pay = bytesLE 48 (Config.sha384 Config.deviceCert)) ∨
    (i = .getCertificate slot off len ∧ slot = 0 ∧ code = 0x02 ∧ pay = (Config.deviceCert.drop off).take len) ∨
    (i = .getCertificate slot off len ∧ slot ≠ 0 ∧ code = 0x7F ∧ pay = [7]) ∨
    (i = .challenge slot nonce ∧ slot = 0 ∧ code = 0x03 ∧ pay = challenge ++ Config.deviceSign challenge) ∨
    (i = .challenge slot nonce ∧ slot ≠ 0 ∧ code = 0x7F ∧ pay = [7]) ∨
    (i = .getMeasurements x sign nonce ∧ 1 ≤ x.val ∧ x.val ≤ 16 ∧ code = 0x60 ∧ pay = signed (ms [x.val - 1])) ∨
    (i = .getMeasurements x sign nonce ∧ x.val = 255 ∧ code = 0x60 ∧ pay = signed (ms (List.range 16))) ∨
    (i = .getMeasurements x sign nonce ∧ (x.val = 0 ∨ (16 < x.val ∧ x.val < 255)) ∧ code = 0x7F ∧ pay = [7]) →
    (c.tileUp = true → exec i s = .next { s with chip := c.emit (.spdm code pay) }) ∧ (c.tileUp = false → exec i s = .next s)) ∧
  (∀ (s : State) (n : Fin 32) (x : Fin 2) (m : WsMsg), let c := s.chip
    let w (i : Nat) : Nat := m.words.getD i 0
    let addr := w 10 + 2 ^ 32 * w 11
    let nonce := numLE ((List.range 8).flatMap fun i => bytesLE 4 (w (i + 1)))
    let b := c.quoteBody (w 9 % 65536) nonce ((c.fld SEC_QUOTE_CNT.count + 1) % 2 ^ 32)
    let y := 1 - x.val
    let replied (t : State) (a : List Nat) : Prop := t.mem = s.mem ∧ (t.chip.way n).queue x = [] ∧
      ∃ r : WsMsg, (t.chip.way n).queue y = (c.way n).queue y ++ [r] ∧ r.words = a
    c.wsAllowed n x .firmware = true → c.fld (WS_CFG.b_kind n) < 2 → (c.way n).queue x = [m] → (c.way n).opened x = [] →
    (c.way n).fillFrom x ≤ 14 → c.flag (WS_OPEN.broken n x) = false →
    (m.words.length = 12 → w 0 = 1 → addr % 64 = 0 → addr < 2 ^ 41 → Completes (.quoteService n x) s fun t =>
      replied t [0, (b ++ Config.deviceSign b).length % 2 ^ 32] ∧ t.chip.out = c.out ++ [.dramWrite .firmware addr (b ++ Config.deviceSign b)] ∧
      t.chip.fld SEC_QUOTE_CNT.count = (c.fld SEC_QUOTE_CNT.count + 1) % 2 ^ 32) ∧
    (1 ≤ m.words.length → m.words.length ≠ 12 → Completes (.quoteService n x) s fun t => replied t [1, 0] ∧ t.chip.out = c.out ∧
      t.chip.fld SEC_QUOTE_CNT.count = c.fld SEC_QUOTE_CNT.count)) ∧
  (∀ (s : State) (u : Fin 8) (seq ack serial nonce mask w : Nat), let c := s.chip
    let b := c.quoteBody (mask % 65536) nonce ((c.fld SEC_QUOTE_CNT.count + 1) % 2 ^ 32)
    let bytes := b ++ Config.deviceSign b ++ if c.hy.quoted ≠ some (c.fld MP_EPOCH.epoch) then Config.deviceCert else []
    Heard s u seq →
    (Completes (.quoteReq u seq ack c.serial nonce mask) s fun t => t.mem = s.mem ∧
      t.chip.fld SEC_QUOTE_CNT.count = (c.fld SEC_QUOTE_CNT.count + 1) % 2 ^ 32 ∧ t.chip.hy.quoted = some (c.fld MP_EPOCH.epoch) ∧
      ∃ a, .trunk u .quote (c.port u).nextSeq a ([c.serial, if bytes.length ≤ 240 then 1 else 0] ++ bytes.take 240) ∈ t.chip.out) ∧
    (serial ≠ c.serial → c.routeTo serial = some w → c.portActive w = true → (c.port w).window = [] →
      Completes (.quoteReq u seq ack serial nonce mask) s fun t => t.mem = s.mem ∧ ∃ q a, .trunk w .quoteReq q a [serial, nonce, mask] ∈ t.chip.out)) ∧
  (∀ (s : State) (u : Fin 8) (seq ack serial : Nat) (last ok : Bool) (bytes : List Nat) (d : SegData) (p : Enrol), let c := s.chip
    let i : Instr := .quote u seq ack serial last bytes ok d
    let up := c.fld HY_STATUS.up
    Heard s u seq →
    (c.isManager = false → c.flag HY_STATUS.enrolled = true → c.portActive up = true → (c.port up).window = [] →
      Completes i s fun t => t.mem = s.mem ∧ ∃ q a, .trunk up .quote q a ([serial, if last then 1 else 0] ++ bytes) ∈ t.chip.out) ∧
    (c.isManager = true →
      (c.hy.pending.find? (fun x => x.serial = serial) = none → Completes i s fun t => t.mem = s.mem ∧ t.chip.hy = c.hy ∧
        t.chip.out = c.out ++ [.firmware 2 ([serial, if last then 1 else 0] ++ bytes)]) ∧
      (c.hy.pending.find? (fun x => x.serial = serial) = some p → c.portActive p.port = true → (c.port p.port).window = [] →
        (last = false → Completes i s fun t => t.mem = s.mem ∧ t.chip.hy = c.hy ∧ t.chip.out = c.out) ∧
        (last = true → ok = false → Completes i s fun t => t.mem = s.mem ∧ (∀ x ∈ t.chip.hy.pending, x.serial ≠ serial) ∧
          t.chip.hy.tab = c.hy.tab ∧ ∃ q a, .trunk p.port .enrolRefuse q a [serial, 5] ∈ t.chip.out) ∧
        (last = true → ok = true → p.alt = false → Completes i s fun t => t.mem = s.mem ∧
          t.chip.hyEntry p.number = ⟨p.serial, true, 2, p.epoch, p.path, none⟩ ∧ (∀ x ∈ t.chip.hy.pending, x.serial ≠ serial) ∧
          ⟨168, 1, recStamp c.now, [p.number, p.serial, p.epoch, p.path.length]⟩ ∈ t.chip.inflight ∧
          ∃ q a, .trunk p.port .enrolGrant q a (grantFields p.serial p.number p.path.length d) ∈ t.chip.out))))

/-- O57. The power-fail mark, the seal, the vault and the limits that start a seal act as R496, R502 to R507, R510 and R512 say. -/
def Obligations.PowerSealing : Prop :=
  let marks (s t : State) (cause : Nat) : Prop := t.mem = s.mem ∧ t.chip.flag PWR_STATUS.sealing = true ∧
    t.chip.pwr.mark = some s.chip.now ∧ t.chip.pwr.sealing.map (fun x => (x.cause, x.at_)) = some (cause, s.chip.now) ∧
    t.chip.fld3 PWR_MARK_LO.mark_lo PWR_MARK_HI.mark_hi PWR_MARK_TOP.mark_top = s.chip.now % 2 ^ 72 ∧
    ⟨2, 1, recStamp s.chip.now, [cause, s.chip.pwr.next.getD 0, 0, 0]⟩ ∈ t.chip.inflight ∧ t.chip.pwr.restore = none ∧
    (s.chip.pwr.restore ≠ none → t.chip.fld PWR_RESTORE_RESULT.result = 3 ∧ t.chip.flag PWR_ERR.restore_failed = true)
  let open_ (s : State) : Prop := s.chip.pwr.sealing = none ∧ s.chip.fld PWR_STATUS.state ≠ 4
  (∀ (s : State) (ls : List Levels) (mv : BitVec 16) (us : Nat), let c := s.chip
    (open_ s → (∀ i : Instr, ∀ k : Nat, (i = .inputLoss ls ∧ k = 1) ∨ (i = .busUndervoltage mv ls ∧ mv.toNat < 40000 ∧ k = 2) ∨
        (i = .ocxoLoss ls ∧ k = 3) ∨ (i = .sealNow ls ∧ k = 4) → Completes i s fun t => marks s t k) ∧
      Completes (.inputLoss ls) s fun t => t.chip.flag PWR_STATUS.input_ok = false) ∧
    (c.pwr.sealing ≠ none → (∀ i : Instr, i = .inputLoss ls ∨ i = .busUndervoltage mv ls ∨ i = .ocxoLoss ls ∨ i = .sealNow ls →
      Completes i s fun t => t.mem = s.mem ∧ t.chip.pwr.mark = c.pwr.mark ∧ t.chip.pwr.sealing = c.pwr.sealing ∧
        t.chip.inflight = c.inflight) ∧
      exec (.sealNow ls) s = .next s ∧ exec (.ocxoLoss ls) s = .next s) ∧
    (c.pwr.sealing = none → c.fld PWR_STATUS.state = 4 → ∀ i : Instr, i = .ocxoLoss ls ∨ i = .sealNow ls →
      exec i s = .next { s with chip := c.stampMark }) ∧
    (40000 ≤ mv.toNat → exec (.busUndervoltage mv ls) s = .next { s with chip := c.put PWR_BUS.mv mv.toNat }) ∧
    (c.flag PWR_ERR.input_warn = false → Completes (.inputRideThrough us) s fun t => t.mem = s.mem ∧
      t.chip.flag PWR_ERR.input_warn = true ∧ ⟨1, 1, recStamp c.now, [us, c.fld PWR_VIN.vin]⟩ ∈ t.chip.inflight ∧
      t.chip.pwr = c.pwr) ∧
    (c.flag PWR_STATUS.input_ok = true → exec (.inputReturn us) s = .next s) ∧
    (c.flag PWR_STATUS.input_ok = false → Completes (.inputReturn us) s fun t => t.mem = s.mem ∧
      t.chip.flag PWR_STATUS.input_ok = true ∧ t.chip.pwr.mark = c.pwr.mark ∧
      t.chip.pwr.sealing = c.pwr.sealing.map (fun x => { x with returned := true }) ∧
      ⟨1, 2, recStamp c.now, [us, c.fld PWR_VIN.vin]⟩ ∈ t.chip.inflight)) ∧
  (∀ (s : State) (ok : Bool) (b : Boot) (x : Seal), let c := s.chip
    let n := c.fld PWR_SEAL_CNT.count
    (c.pwr.sealing = none → exec (.sealComplete ok b) s = .next s) ∧
    (c.pwr.sealing = some x →
      (x.returned = true ∧ (x.cause = 1 ∨ x.cause = 2) → Completes (.sealComplete ok b) s fun t =>
        t.chip.flag PWR_STATUS.sealed_live = true ∧ t.chip.pwr.sealing = none ∧ t.chip.pwr.mark = none ∧
        t.chip.flag PWR_STATUS.vault_ready = false ∧ t.chip.flag PWR_STATUS.sealing = false ∧
        t.chip.fld MP_EPOCH.epoch = c.fld MP_EPOCH.epoch) ∧
      (¬(x.returned = true ∧ (x.cause = 1 ∨ x.cause = 2)) → Completes (.sealComplete ok b) s fun t => t.mem = [] ∧
        t.chip.fld PWR_STATUS.state = 4 ∧ t.chip.flag PWR_STATUS.sealing = false ∧ t.chip.flag PWR_STATUS.vault_ready = false ∧
        t.chip.pwr.sealing = none ∧ t.chip.pwr.mark = none ∧ t.chip.pwr.next = none ∧
        t.chip.fld MP_EPOCH.epoch = c.fld MP_EPOCH.epoch ∧ t.chip.lq.entries.map (·.t) = c.lq.entries.map (·.t) ∧
        ∀ i : Nat, c.pwr.next = some i → ∃ v p, Tab.get none t.chip.pwr.slots i = some v ∧ v.n = n ∧ v.cause = x.cause ∧
          (ok = true → v.state = 1 ∧ t.chip.fld PWR_SEAL_CNT.count = (n + 1) % 2 ^ 32 ∧ ⟨2, 2, recStamp c.now, p⟩ ∈ t.chip.inflight) ∧
          (ok = false → v.state = 0 ∧ t.chip.fld PWR_SEAL_CNT.count = n ∧ ⟨6, 3, recStamp c.now, [i]⟩ ∈ t.chip.inflight)))) ∧
  (∀ (s : State) (pages : List (Fin 16384)) (spare : Bool) (i : Nat) (v : VSlot), let c := s.chip
    let due := c.latestSlot fun v => decide (v.state = 1)
    (c.pwr.restore = some i → exec .restore s = .next s) ∧
    (c.pwr.restore = none → (due = none ∨ c.restoreOverlaps = true) → Completes .restore s fun t => t.mem = s.mem ∧
      t.chip.fld PWR_RESTORE_RESULT.result = 2 ∧ t.chip.pwr = c.pwr) ∧
    (c.pwr.restore = none → due = some (i, v) → c.restoreOverlaps = false → Completes .restore s fun t => t.mem = s.mem ∧
      t.chip.fld PWR_RESTORE_RESULT.result = 0 ∧ t.chip.pwr = { c.pwr with restore := some i }) ∧
    (c.pwr.restore = none → exec (.restoreDone pages) s = .next s) ∧
    (c.pwr.restore = some i → Completes (.restoreDone pages) s fun t => t.chip.fld PWR_RESTORE_RESULT.result = 1 ∧
      t.chip.fld PWR_RESTORE_RESULT.poisoned = pages.length % 2 ^ 16 ∧ t.chip.pwr.restore = none ∧ t.chip.pwr.restored = some i ∧
      ∃ x, ⟨6, 2, x, [i]⟩ ∈ t.chip.inflight) ∧
    (c.pwr.restored = none → exec .vaultRelease s = .next s) ∧
    (c.pwr.restored = some i → Tab.get none c.pwr.slots i = some v → v.state = 1 → Completes .vaultRelease s fun t => t.mem = s.mem ∧
      Tab.get none t.chip.pwr.slots i = some { v with state := 2 } ∧ t.chip.pwr.restored = none) ∧
    (c.pwr.next = some i → exec (.vaultEraseDone spare) s = .next s) ∧
    (c.pwr.next = none → Completes (.vaultEraseDone false) s fun t => t.mem = s.mem ∧ t.chip.pwr = c.pwr ∧
      t.chip.flag PWR_STATUS.vault_ready = c.flag PWR_STATUS.vault_ready ∧ ⟨6, 1, recStamp c.now, [c.slotDue.1]⟩ ∈ t.chip.inflight) ∧
    (c.pwr.next = none → Completes (.vaultEraseDone true) s fun t => t.mem = s.mem ∧ t.chip.pwr.next = some c.slotDue.1 ∧
      t.chip.flag PWR_STATUS.vault_ready = true ∧ Tab.get none t.chip.pwr.slots c.slotDue.1 = none ∧
      (c.slotDue.2 = true → t.chip.flag PWR_ERR.vault = true))) ∧
  (∀ (s : State) (rail : Fin 11) (temp : BitVec 16) (ls : List Levels), let c := s.chip
    let warn := c.fldS PWR_TEMP_WARN.warn
    let crit := c.fldS PWR_TEMP_CRIT.crit
    (Completes (.railFault rail ls) s fun t => t.mem = s.mem ∧ t.chip.flag PWR_ERR.rail_fault = true ∧
      bit (t.chip.fld PWR_RAIL_STATUS.good) rail = false ∧
      (6 ≤ rail.val → rail.val ≤ 9 → c.offline (rail.val - 6) = false → t.chip.offline (rail.val - 6) = true ∧
        ⟨11, 1, recStamp c.now, [rail.val - 6]⟩ ∈ t.chip.inflight) ∧
      (rail.val = 4 ∨ rail.val = 5 ∨ rail.val = 10 → 3 ∈ t.chip.pwr.shut ∧ (open_ s → t.chip.pwr.mark = some c.now ∧
        t.chip.pwr.sealing.map (fun x => (x.cause, x.at_)) = some (6, c.now))) ∧
      (rail.val < 4 → t.chip.pwr = c.pwr)) ∧
    (Completes (.thermalWarn temp) s fun t => t.mem = s.mem ∧ t.chip.fldS PWR_TEMP.temp = temp.toInt ∧
      t.chip.pwr.mark = c.pwr.mark ∧ (warn ≤ temp.toInt → t.chip.flag PWR_ERR.thermal_warn = true) ∧
      (temp.toInt < warn → t.chip.flag PWR_ERR.thermal_warn = c.flag PWR_ERR.thermal_warn)) ∧
    (crit ≤ temp.toInt → open_ s → Completes (.thermalCrit temp ls) s fun t => marks s t 5 ∧
      t.chip.flag PWR_ERR.thermal_crit = true ∧ 2 ∈ t.chip.pwr.shut) ∧
    (temp.toInt < crit → Completes (.thermalCrit temp ls) s fun t => t.mem = s.mem ∧ t.chip.pwr.mark = c.pwr.mark ∧
      t.chip.pwr.sealing = c.pwr.sealing ∧ t.chip.flag PWR_ERR.thermal_crit = c.flag PWR_ERR.thermal_crit) ∧
    (temp.toInt < warn → Completes (.thermalClear temp) s fun t => t.mem = s.mem ∧ 2 ∉ t.chip.pwr.shut ∧
      ⟨4, 3, recStamp c.now, [temp.toNat]⟩ ∈ t.chip.inflight) ∧
    (warn ≤ temp.toInt → exec (.thermalClear temp) s = .next { s with chip := c.put PWR_TEMP.temp temp.toNat })) ∧
  (∀ (s : State) (ls : List Levels) (v : BitVec 8), let c := s.chip
    (Completes (.operation none ls) s fun t => t.mem = s.mem ∧
      t.chip.out = c.out ++ [.pmbus true [if c.pwr.shut.contains 1 then 0 else 0x80]]) ∧
    (open_ s → Completes (.operation (some 0) ls) s fun t => marks s t 4 ∧ 1 ∈ t.chip.pwr.shut ∧ .pmbus true [] ∈ t.chip.out) ∧
    (Completes (.operation (some 0x80) ls) s fun t => t.mem = s.mem ∧ 1 ∉ t.chip.pwr.shut ∧ .pmbus true [] ∈ t.chip.out) ∧
    (v ≠ 0 → v ≠ 0x80 → exec (.operation (some v) ls) s = .next { s with chip := c.emit (.pmbus false []) }))

/-- O58. Signpost's judgements and wakes, the end of a wake, and the PMBus readings act as R497, R498, R500 and R513 say. -/
def Obligations.SignpostAndPmbus : Prop :=
  let free (s : State) : Prop := s.chip.flag PWR_CTRL.signpost_en = true ∧ s.chip.tileUp = true ∧ s.chip.pwr.mark = none ∧
    s.chip.pwr.sealing = none ∧ 4 ∉ s.chip.pwr.waking
  (∀ s : State, let c := s.chip
    c.flag PWR_CTRL.signpost_en = false ∨ c.tileUp = false ∨ c.pwr.mark ≠ none ∨ 4 ∈ c.pwr.waking → exec .signpostJudge s = .next s) ∧
  (∀ (s : State) (q : Fin 4), let c := s.chip
    let want := c.pickQuarter q
    let ks := ctlsOf q
    let st := if want = 2 then 4 else 3
    let after (P : State → Prop) : Prop := Completes .signpostJudge s fun t => t.mem = s.mem ∧ P t
    free s → c.pickTile = none → c.pwr.entering = none → (∀ r : Fin 4, r ≠ q → c.offline r = true) →
    c.offline q = false → (c.quarter q).resetting = false → q.val ∉ c.pwr.waking →
    (c.barred q = true → after fun t => q.val ∈ t.chip.pwr.waking ∧ t.chip.fld PWR_STATUS.wake_cause = 1 ∧
      t.chip.qstate q = c.qstate q) ∧
    (c.barred q = false → want ≤ c.qstate q → after fun t => t.chip.qstate q = c.qstate q ∧ t.chip.pwr = c.pwr) ∧
    (c.qstate q < want → c.lpRefused ks = true → after fun t => t.chip.qstate q = c.qstate q ∧ Tab.get 0 t.chip.pwr.busyAt q = c.now) ∧
    (c.qstate q < want → c.lpRefused ks = false → c.lpReady ks st = false → after fun t => t.chip.qstate q = c.qstate q ∧
      t.chip.pwr = c.pwr) ∧
    (c.qstate q < want → c.lpRefused ks = false → c.lpReady ks st = true → after fun t => t.chip.qstate q = want ∧
      ∀ k ∈ ks, t.chip.fld (DMC_STATUS.state k) = st)) ∧
  (∀ (s : State) (want : Nat), let c := s.chip
    let ks := ((List.range 4).filter fun q => !c.offline q).flatMap ctlsOf
    free s → c.pickTile = some want →
    (c.pwr.entering ≠ some want → Completes .signpostJudge s fun t => t.mem = s.mem ∧ t.chip.pwr.entering = some want ∧
      t.chip.fld PWR_STATUS.state = c.fld PWR_STATUS.state) ∧
    (c.pwr.entering = some want → c.lpRefused ks = false → (∀ q < 4, c.offline q = false → c.logIdle q = true) →
      c.lpReady ks 5 = true → Completes .signpostJudge s fun t => t.chip.fld PWR_STATUS.state = want ∧ t.chip.pwr.entering = none ∧
        t.chip.fld MP_STATUS.state = 3 ∧ (want = 3 → t.mem = s.mem) ∧ (want = 4 → t.mem = [] ∧
          t.chip.lq.entries.map (·.t) = c.lq.entries.map (·.t)))) ∧
  (∀ (s : State) (q : Fin 4) (e : LqEntry), let c := s.chip
    let due (st : Nat) : Prop := e.t ≤ c.now + wakeTime st + c.fld PWR_MARGIN.us * 1024000
    let woken (i : Instr) (d cause : Nat) : Prop := Completes i s fun t => t.mem = s.mem ∧ d ∈ t.chip.pwr.waking ∧
      t.chip.fld PWR_STATUS.wake_cause = cause
    let asleep : Prop := c.tileUp = false ∧ c.pwr.sealing = none ∧ (c.fld PWR_STATUS.state ≠ 4 ∨ c.pwr.shut = [])
    (c.earliest = none ∨ c.flag PWR_CTRL.signpost_en = false → exec .signpostWake s = .next s) ∧
    (c.earliest = some e → c.flag PWR_CTRL.signpost_en = true →
      (asleep → 4 ∉ c.pwr.waking → due (c.fld PWR_STATUS.state) → woken .signpostWake 4 1) ∧
      (c.tileUp = false → ¬due (c.fld PWR_STATUS.state) → exec .signpostWake s = .next s) ∧
      (c.tileUp = true → c.pwr.sealing = none → c.qstate q ≠ 0 → q.val ∉ c.pwr.waking → due (c.qstate q) → woken .signpostWake q 1) ∧
      (c.tileUp = true → (∀ r < 4, c.qstate r = 0 ∨ ¬due (c.qstate r)) → exec .signpostWake s = .next s)) ∧
    (c.tileUp = false → exec .wakeNow s = .next s) ∧
    (c.tileUp = true → c.pwr.sealing = none → c.qstate q ≠ 0 → woken .wakeNow q 7) ∧
    (c.tileUp = true → exec .hostLinkTraining s = .next s) ∧
    (asleep → woken .hostLinkTraining 4 5)) ∧
  (∀ (s : State) (d : Fin 5) (cals : List GroupCal) (x : PowerUp), let c := s.chip
    c.csr.waiting = [] →
    (d.val ∉ c.pwr.waking → exec (.wakeDone d cals x) s = .next s) ∧
    (d.val < 4 → d.val ∈ c.pwr.waking → c.tileUp = true → Completes (.wakeDone d cals x) s fun t => t.mem = s.mem ∧
      t.chip.qstate d = 0 ∧ d.val ∉ t.chip.pwr.waking) ∧
    (d.val = 4 → 4 ∈ c.pwr.waking → c.fld PWR_STATUS.state = 3 ∨ c.fld PWR_STATUS.state = 4 → Completes (.wakeDone d cals x) s fun t =>
      t.mem = s.mem ∧ t.chip.fld PWR_STATUS.state = 0 ∧ 4 ∉ t.chip.pwr.waking)) ∧
  (∀ (s : State) (code : BitVec 8), let c := s.chip
    let gives (i : Instr) (b : List Nat) : Prop := exec i s = .next { s with chip := c.emit (.pmbus true b) }
    let word (v : Nat) : List Nat := [v % 256, v / 256 % 256]
    let good : Nat := if c.flag PWR_STATUS.input_ok = true then 0 else 3
    let off : Nat := if c.fld PWR_STATUS.state = 4 then 1 else 0
    gives .capability [0xB0] ∧ gives .pmbusRevision [0x44] ∧ gives .mfrId [4, 0x4C, 0x52, 0x56, 0x4E] ∧
    gives .mfrModel (9 :: [0x52, 0x48, 0x54, 0x34, 0x2D, 0x32, 0x54, 0x31, 0x4B]) ∧
    gives .mfrSerial (8 :: (List.range 8).map fun i => c.serial / 2 ^ (8 * i) % 256) ∧
    gives .statusWord (word (2 ^ 13 * (if c.pwr.faults % 4 = 0 then 0 else 1) + (2 ^ 11 + 2 ^ 6) * off +
      4 * (if c.pwr.faults / 4 = 0 then 0 else 1))) ∧
    gives .statusInput [16 * (c.pwr.faults % 2) + 8 * (c.pwr.faults / 2 % 2)] ∧
    gives .statusTemperature [64 * (c.pwr.faults / 4 % 2) + 128 * (c.pwr.faults / 8 % 2)] ∧
    gives .readVin (word (linear11 (c.fld PWR_VIN.vin) 10 32 0)) ∧ gives .readIin (word (linear11 (c.fld PWR_IIN.iin) 1000 32 0)) ∧
    gives .readPin (word (linear11 (c.fld PWR_PIN.pin) 10 32 0)) ∧
    gives .readTemperature1 (word (linear11 (c.fldS PWR_TEMP.temp) 4 32 0)) ∧
    exec (.pmbusUnsupported code) s = .next { s with chip := c.emit (.pmbus false []) } ∧
    (Completes .clearFaults s fun t => t.mem = s.mem ∧ t.chip.out = c.out ++ [.pmbus true []] ∧
      ∀ i < 2, bit t.chip.pwr.faults i = (bit c.pwr.faults i && bit good i)))

/-- O59. Odometer's measurements, margins, plans and stores act as R517 to R521 and R523 say. -/
def Obligations.OdometerPlans : Prop :=
  (∀ (s : State) (q : Fin 4), let c := s.chip
    let due : Prop := q.val ∈ c.od.due ∨ Tab.get 0 c.od.last q + c.odInterval ≤ c.now
    let late : Prop := Tab.get 0 c.od.last q + 2 * c.odInterval ≤ c.now
    let on : Prop := c.flag OD_CTRL.en = true
    (¬(on ∧ due ∧ c.odWindow q = true) → exec (.odMeasure q) s = .next s) ∧
    (on → due → c.odWindow q = true → Completes (.odMeasure q) s fun t => t.mem = s.mem ∧ q.val ∉ t.chip.od.due ∧
      ∀ r : Fin 4, bit (t.chip.fld OD_STATUS.measuring) r = if r = q then true else bit (c.fld OD_STATUS.measuring) r) ∧
    (Completes (.measureNow q) s fun t => t.mem = s.mem ∧ q.val ∈ t.chip.od.due ∧ (∀ r, r ∈ c.od.due → r ∈ t.chip.od.due) ∧
      t.chip = { c with od := { c.od with due := t.chip.od.due } }) ∧
    (¬(on ∧ late) → exec (.odOverdue q) s = .next s) ∧
    (on → late → Completes (.odOverdue q) s fun t => t.mem = s.mem ∧ bit (t.chip.fld OD_ERR.overdue) q = true ∧
      (bit (c.fld OD_ERR.overdue) q = true → t = s) ∧
      (bit (c.fld OD_ERR.overdue) q = false → ⟨200 + q.val, 6, recStamp c.now, [c.fld (PWR_VCORE.code q), c.fld (OD_PLAN.plan q),
        c.fld (OD_Q_MARGIN.margin q), c.fld (OD_Q_AGE.hours q)]⟩ ∈ t.chip.inflight)) ∧
    (Completes .odStore s fun t => t.mem = s.mem ∧ ∀ r < 4,
      Tab.get none t.chip.od.stored r = some (c.fld (PWR_VCORE.code r), c.fld (OD_Q_AGE.hours r)))) ∧
  (∀ (s : State) (q : Fin 4) (reps : List (Nat × Nat)) (rings : List Nat) (temp : Int) (dlm : List Int), let c := s.chip
    let four (r : Nat) := (reps.drop (4 * r)).take 4
    let ms := (List.range 16).map fun r => (regionRatio (four r)).map marginOf
    let dm := (List.range 16).filterMap fun g => c.domainMargin q g ms
    let code := c.fld (PWR_VCORE.code q)
    let min := c.fld OD_MARGIN_MIN.min
    let ends (P : State → Prop) : Prop := Completes (.odMeasureDone q reps rings temp dlm) s fun t => t.mem = s.mem ∧ P t
    let low (m : Ratio) : Prop := m.num * 10000 < min * m.den
    (bit (c.fld OD_STATUS.measuring) q = false → exec (.odMeasureDone q reps rings temp dlm) s = .next s) ∧
    (bit (c.fld OD_STATUS.measuring) q = true →
      (ends fun t => bit (t.chip.fld OD_STATUS.measuring) q = false ∧ Tab.get 0 t.chip.od.last q = c.now ∧
        t.chip.fld2 (OD_Q_STAMP_LO.stamp_lo q) (OD_Q_STAMP_HI.stamp_hi q) = recStamp c.now ∧
        (∀ r < 16, match regionRatio (four r) with
          | some x => t.chip.flag (OD_RMARGIN.valid q r) = true ∧
              t.chip.fldS (OD_RMARGIN.margin q r) = clampS 16 (marginUnits (marginOf x))
          | none => t.chip.flag (OD_RMARGIN.valid q r) = false ∧ t.chip.fld (OD_RMARGIN.margin q r) = 0) ∧
        (∀ i < 8, t.chip.fld (OD_RO_FREQ.khz q i) = rings.getD i 0 % 2 ^ 24) ∧
        (∀ m, Ratio.least (ms.filterMap id) = some m → t.chip.fldS (OD_Q_MARGIN.margin q) = clampS 16 (marginUnits m)) ∧
        (∀ r < 4, bit (t.chip.fld OD_STATUS.pending) r = decide (t.chip.fld (PWR_VCORE.code r) < t.chip.fld (OD_PLAN.plan r))) ∧
        ∀ r < 4, t.chip.fld (PWR_VCORE.code r) = c.fld (PWR_VCORE.code r)) ∧
      ((∀ m ∈ dm, ¬low m) → ends fun t => t.chip.fld (OD_PLAN.plan q) = c.fld (OD_PLAN.plan q)) ∧
      (∀ m, Ratio.least dm = some m → low m → ends fun t => bit (t.chip.fld OD_ERR.low_margin) q = true ∧
        t.chip.fld (OD_PLAN.plan q) = Nat.max (c.fld (OD_PLAN.plan q)) (Nat.min 24 (code + planStep m min (c.fld OD_STEP_MAX.codes)))) ∧
      ((∃ m ∈ dm, m.num ≤ 0) → ends fun t => bit (t.chip.fld OD_ERR.negative) q = true) ∧
      (code = 24 → ends fun t => bit (t.chip.fld OD_ERR.exhausted) q = true)))

/-- O60. The Twivel port, halts, steps, the watchdog and the Detours act as R530 to R541 say. -/
def Obligations.DebugPort : Prop :=
  let fault (s t : State) (cause : Nat) : Prop := t.mem = s.mem ∧ t.chip.fld DBG_FAULT.cause = cause ∧ t.chip.flag DBG_ERR.fault = true ∧
    t.chip.out = s.chip.out ++ [.twivel 4 0] ∧ t.chip.dbg = s.chip.dbg
  (∀ (s : State) (a : BitVec 24) (v : Word) (quick : Bool) (x : CsrEnv) (f : Found), let c := s.chip
    let b := csrAddr a
    let open_ : Prop := c.tileUp = true ∧ c.dbg.held = none ∧ c.fld SEC_STATUS.debug = 2
    let off : Prop := c.fld PWR_STATUS.state = 4
    (∀ i : Instr, ∀ op w : Nat, (i = .twivelPeek a quick x ∧ op = 0 ∧ w = 0) ∨ (i = .twivelTake a quick x ∧ op = 1 ∧ w = 0) ∨
        (i = .twivelWrite a v quick x ∧ op = 2 ∧ w = v.toNat) →
      (off → exec i s = .next s) ∧
      (¬off → c.dbg.held ≠ none → Completes i s fun t => fault s t 4) ∧
      (¬off → c.dbg.held = none → c.twvAllowed op b w = false → Completes i s fun t => fault s t 3) ∧
      (c.fld PWR_STATUS.state = 3 → c.dbg.held = none → c.twvAllowed op b w = true → c.flag DBG_CTRL.wake_ok = false →
        Completes i s fun t => fault s t 5) ∧
      (open_ → quick = false ∨ c.csrGate .twivel b = .wait → Completes i s fun t => t.mem = s.mem ∧
        t.chip.dbg.held = some { op, addr := b, data := w } ∧ t.chip.out = c.out ++ [.twivel 2 0])) ∧
    (c.fld SEC_STATUS.debug = 0 → b = 0x100008 ∨ b = 0x100000 ∨ b = 0x0B0000 → c.twvAllowed twvPeek b 0 = true) ∧
    (open_ → c.csrGate .twivel b = .open → regFind b = some f →
      (Completes (.twivelPeek a true x) s fun t => t.mem = s.mem ∧ RegsWithin [(0x100040, 0x100044)] c t.chip ∧
        t.chip.out = c.out ++ [.twivel 1 (c.peekWord .twivel f b)] ∧ t.chip.inflight = c.inflight ∧
        Tab.get none t.chip.dbg.trace (c.fld DBG_TRACE_COUNT.count % 64) = some (0, 1, b, recStamp c.now)) ∧
      (Completes (.twivelTake a true x) s fun t => t.mem = s.mem ∧ .twivel 1 (c.csrRead .twivel x b).2 ∈ t.chip.out) ∧
      (Completes (.twivelWrite a v true x) s fun t => .twivel 1 0 ∈ t.chip.out ∧
        (b = 0x100010 → t.chip.fld DBG_CL_SEL.cluster = v.toNat % 512)))) ∧
  (∀ (s : State) (op : BitVec 4) (a : BitVec 24) (p : Bool) (x : CsrEnv) (h : TwvHeld) (f : Found) (e : TwvEnd), let c := s.chip
    let up : Prop := c.tileUp = true
    (c.fld PWR_STATUS.state = 4 → exec .twivelResult s = .next s ∧ exec (.twivelBadOp op a p) s = .next s) ∧
    (up → c.dbg.held = none → Completes .twivelResult s fun t => fault s t 2) ∧
    (up → c.dbg.held = some h → h.done = none → exec .twivelResult s = .next { s with chip := c.emit (.twivel 2 0) }) ∧
    (up → c.dbg.held = some { h with done := some e } → Completes .twivelResult s fun t => t.mem = s.mem ∧ t.chip.dbg.held = none ∧
      (∀ d, e = .ok d → h.op ≠ 2 → t.chip.out = c.out ++ [.twivel 1 d]) ∧ (∀ d, e = .ok d → ∃ d', t.chip.out = c.out ++ [.twivel 1 d']) ∧
      (∀ k r, e = .fault k r → t.chip.out = c.out ++ [.twivel 4 0])) ∧
    (up → p = true → Completes (.twivelBadOp op a p) s fun t => fault s t 1) ∧
    (up → p = false → 4 ≤ op.toNat → Completes (.twivelBadOp op a p) s fun t => fault s t 2) ∧
    (c.dbg.held = none → exec (.twivelAccessDone x) s = .next s ∧ exec .twivelProtocolReset s = .next s) ∧
    (up → c.dbg.held = some h → h.done = none → h.op = 0 → c.csrGate .twivel h.addr = .open → regFind h.addr = some f →
      Completes (.twivelAccessDone x) s fun t => t.mem = s.mem ∧ t.chip.out = c.out ∧ RegsWithin [(0x100040, 0x100044)] c t.chip ∧
        t.chip.dbg.held = if h.drop = true then none else some { h with done := some (.ok (c.peekWord .twivel f h.addr)) }) ∧
    (c.dbg.held = some h → Completes .twivelProtocolReset s fun t =>
      t = { s with chip := { c with dbg := { c.dbg with held := if h.done = none then some { h with drop := true } else none } } })) ∧
  (∀ (s : State) (pc : Word), let c := s.chip
    let st (t : State) (n : Nat) : Prop := t.mem = s.mem ∧ t.chip.coreState = n
    let bad (t : State) : Prop := t.mem = s.mem ∧ t.chip.coreState = c.coreState ∧ t.chip.flag DBG_ERR.bad_value = true
    let least := c.fld WDG_PERIOD.ms * 1024000000 / 8
    (c.coreState = 0 → (Completes .haltCore s fun t => st t 1 ∧ t.chip.dbg = c.dbg) ∧ (Completes .resumeCore s fun t => bad t) ∧
      Completes (.stepCore pc) s fun t => bad t) ∧
    (c.coreState = 1 → (Completes .haltCore s fun t => bad t) ∧ (Completes .resumeCore s fun t => st t 0) ∧
      exec (.stepCore pc) s = .next s ∧
      Completes (.coresHalted pc) s fun t => st t 2 ∧ t.chip.fld DBG_HALT_PC.pc = pc.toNat ∧
        t.chip.fld2 DBG_HALT_STAMP_LO.stamp_lo DBG_HALT_STAMP_HI.stamp_hi = recStamp c.now ∧
        (c.fwLocks = [] → ⟨216, 1, recStamp c.now, [pc.toNat, 0]⟩ ∈ t.chip.inflight) ∧
        ∀ w l, c.fwLocks = w :: l → ⟨216, 2, recStamp c.now, [pc.toNat, w]⟩ ∈ t.chip.inflight ∧
          t.chip.flag DBG_STATUS.lockheld = true ∧ t.chip.flag DBG_HALT_INFO.valid = true ∧ t.chip.fld DBG_HALT_INFO.ws = w) ∧
    (c.coreState = 2 → (Completes .haltCore s fun t => bad t) ∧
      (Completes .resumeCore s fun t => st t 0 ∧ t.chip.flag DBG_HALT_INFO.valid = false ∧
        t.chip.dbg.wdgLeft = max c.wdgRemain least ∧ ⟨217, 1, recStamp c.now, [c.now - c.dbg.haltAt]⟩ ∈ t.chip.inflight) ∧
      Completes (.stepCore pc) s fun t => st t 2 ∧ t.chip.fld DBG_HALT_PC.pc = pc.toNat) ∧
    (c.coreState ≠ 1 → exec (.coresHalted pc) s = .next s)) ∧
  (∀ s : State, let c := s.chip
    let j := c.fld DBG_CL_SEL.cluster
    let x := c.cl j
    let irq : Prop := x.handler = false ∧ x.redirs = [] ∧ c.fld (CL_IRQ_PEND.pend j) &&& c.fld (CL_IRQ_EN.en j) ≠ 0
    let refused (i : Instr) : Prop := Completes i s fun t => t.mem = s.mem ∧ t.chip.flag (CL_ERR.start_refused j) = true ∧
      t.chip.clState j = c.clState j
    (c.clState j < 2 → refused .haltCl) ∧
    (2 ≤ c.clState j → x.redirs = [] ∨ c.clState j = 4 → Completes .haltCl s fun t => t.mem = s.mem ∧ t.chip.clState j = 1 ∧
      ⟨216, 3, recStamp c.now, [j]⟩ ∈ t.chip.inflight) ∧
    (2 ≤ c.clState j → x.redirs ≠ [] → c.clState j ≠ 4 → Completes .haltCl s fun t => t.mem = s.mem ∧
      (t.chip.cl j).haltReq = true ∧ t.chip.clState j = c.clState j) ∧
    (c.clState j ≠ 1 → refused .resumeCl ∧ refused .stepCl) ∧
    (c.clState j = 1 → (Completes .resumeCl s fun t => t.mem = s.mem ∧ t.chip.clState j = (if x.handler = true then 3 else 2) ∧
        (t.chip.cl j).haltReq = false) ∧
      (c.flag DBG_CTRL.step_irq = true → irq → Completes .stepCl s fun t => t.mem = s.mem ∧ t.chip.fld (CL_PC.pc j) = 0xF40 ∧
        t.chip.fld (CL_IRA.ira j) = c.fld (CL_PC.pc j) ∧ (t.chip.cl j).handler = true ∧ t.chip.clState j = 1) ∧
      (c.flag DBG_CTRL.step_irq = false ∨ ¬irq → Completes .stepCl s fun t => t.mem = s.mem ∧ (t.chip.cl j).haltReq = true ∧
        t.chip.fld (CL_PC.pc j) = c.fld (CL_PC.pc j) ∧ t.chip.clState j = if x.handler = true then 3 else 2))) ∧
  (∀ (s : State) (src : Src) (d : Fin 32) (w : Fin 4) (v pc : Word) (a : Fin 0x800000), let c := s.chip
    let run : Prop := c.wdgRuns = true ∧ c.wdgRemain = 0
    let may : Prop := src = .firmware ∨ (src = .twivel ∧ c.fld SEC_STATUS.debug = 2)
    let bad (t : State) : Prop := t.mem = s.mem ∧ t.chip.flag DBG_ERR.bad_value = true ∧ RegsWithin [(0x100008, 0x10000C)] c t.chip
    let acts : Prop := c.flag (DTR_CTL.en d) = true ∧ c.fld (DTR_ADDR.addr d) = a / 4 ∧
      ∀ e < d, c.flag (DTR_CTL.en e.val) = true → c.fld (DTR_ADDR.addr e.val) ≠ a / 4
    (src = .host → Completes (.wdgKick src) s fun t => bad t ∧ t.chip.dbg = c.dbg) ∧
    (src ≠ .host → Completes (.wdgKick src) s fun t => t.mem = s.mem ∧ t.chip.dbg.wdgLeft = c.fld WDG_PERIOD.ms * 1024000000 ∧
      t.chip.dbg.wdgAt = c.now ∧ t.chip.regs = c.regs) ∧
    (¬run → exec .wdgExpire s = .next s) ∧
    (run → Completes .wdgExpire s fun t => t.mem = s.mem ∧ t.chip.coreState = 0 ∧
      t.chip.fld WDG_EXPIRE_CNT.count = satN 16 (c.fld WDG_EXPIRE_CNT.count + 1) ∧
      t.chip.dbg.wdgLeft = c.fld WDG_PERIOD.ms * 1024000000 ∧
      ⟨219, 1, recStamp c.now, [t.chip.fld WDG_EXPIRE_CNT.count]⟩ ∈ t.chip.inflight) ∧
    ((∀ e < 32, c.flag (DTR_CTL.en e) = true → c.fld (DTR_ADDR.addr e) ≠ a / 4) → exec (.detourBreak a pc) s = .next s) ∧
    (acts → c.flag (DTR_CTL.mode d) = false → Completes (.detourBreak a pc) s fun t => t.mem = s.mem ∧
      t.chip.fld (DTR_HITCNT.count d) = satN 32 (c.fld (DTR_HITCNT.count d) + 1) ∧ t.chip.dbg = c.dbg) ∧
    (acts → c.flag (DTR_CTL.mode d) = true →
      (c.fld SEC_STATUS.debug ≠ 2 → exec (.detourBreak a pc) s = .next s) ∧
      (c.fld SEC_STATUS.debug = 2 → c.coreState ≠ 2 → Completes (.detourBreak a pc) s fun t => t.mem = s.mem ∧ t.chip.coreState = 2 ∧
        t.chip.flag (DTR_CTL.hit d) = true ∧ t.chip.fld DBG_HALT_PC.pc = pc.toNat ∧
        ⟨218, 1, recStamp c.now, [d.val, a.val]⟩ ∈ t.chip.inflight)) ∧
    (¬may → Completes (.dtrWrite src d w v) s fun t => bad t) ∧
    (may → (w < 2 → c.flag (DTR_CTL.en d) = true → Completes (.dtrWrite src d w v) s fun t => bad t) ∧
      (c.flag (DTR_CTL.en d) = false → (Completes (.dtrWrite src d 0 v) s fun t => t.chip.fld (DTR_ADDR.addr d) = v.toNat / 4 % 2 ^ 21) ∧
        Completes (.dtrWrite src d 1 v) s fun t => t.chip.fld (DTR_DATA.data d) = v.toNat) ∧
      (Completes (.dtrWrite src d 2 v) s fun t => t.mem = s.mem ∧ t.chip.fld (DTR_CTL.en d) = v.toNat % 2 ∧
        t.chip.fld (DTR_CTL.mode d) = v.toNat / 2 % 2 ∧
        (v.toNat % 4 ≠ c.fld (DTR_CTL.en d) + 2 * c.fld (DTR_CTL.mode d) →
          ⟨221, 1, recStamp c.now, [d.val, v.toNat % 2, v.toNat / 2 % 2]⟩ ∈ t.chip.inflight ∧
          t.chip.fld SEC_LOG_COUNT.count = (c.fld SEC_LOG_COUNT.count + 1) % 2 ^ 32) ∧
        (v.toNat % 4 = c.fld (DTR_CTL.en d) + 2 * c.fld (DTR_CTL.mode d) → t.chip.inflight = c.inflight ∧ t.chip.sec = c.sec)) ∧
      exec (.dtrWrite src d 3 v) s = .next s) ∧
    (Completes .sdReset s fun t => t.mem = s.mem ∧ t.chip.dbg = { c.dbg with held := none, trace := [] } ∧
      (∀ e < 32, t.chip.flag (DTR_CTL.en e) = false) ∧ t.chip.fld DBG_CTRL.max_wait = 0x100 ∧
      t.chip.fld DBG_TRACE_COUNT.count = 0 ∧ t.chip.fld SEC_LOG_COUNT.count = (c.fld SEC_LOG_COUNT.count + 1) % 2 ^ 32))
end

