-- ==== Sys2Proof/Laws/Tab.lean ====
section
/-! SUPPORT. Laws of sparse tables: a read after a write, and the canonical form kept by every operation. -/

namespace Sys2Proof.Machine

variable {α : Type}

theorem Tab.get_del (d : α) (t : Tab α) (k j : Nat) : Tab.get d (Tab.del t k) j = if j = k then d else Tab.get d t j := by
  induction t with
  | nil => simp [Tab.del, Tab.get]
  | cons e t ih =>
    by_cases h : e.1 = k
    · simp only [Tab.del, h, if_true, ih, Tab.get]
      split <;> rename_i hj
      · rfl
      · rw [if_neg (fun he => hj he.symm)]
    · simp only [Tab.del, if_neg h, Tab.get]
      by_cases hj : e.1 = j
      · simp [hj]; intro hk; exact absurd (hj.trans hk) h
      · simp [hj, ih]

theorem Tab.get_ins (d : α) (t : Tab α) (k j : Nat) (v : α) :
    Tab.get d (Tab.ins (Tab.del t k) k v) j = if j = k then v else Tab.get d (Tab.del t k) j := by
  have key : ∀ s : Tab α, (∀ e ∈ s, e.1 ≠ k) →
      Tab.get d (Tab.ins s k v) j = if j = k then v else Tab.get d s j := by
    intro s
    induction s with
    | nil => intro _; simp only [Tab.ins, Tab.get]; split <;> rename_i hk <;> simp_all [eq_comm]
    | cons e s ih =>
      intro hs
      have he : e.1 ≠ k := hs e (by simp)
      have ih := ih (fun x hx => hs x (by simp [hx]))
      simp only [Tab.ins]
      split
      · simp only [Tab.get]
        by_cases hk : k = j
        · simp [hk]
        · simp [hk, Ne.symm hk]
      · simp only [Tab.get, ih]
        by_cases hj : e.1 = j
        · simp [hj]; intro hk; exact absurd (hj.trans hk) he
        · simp [hj]
  apply key
  intro e he
  induction t with
  | nil => simp [Tab.del] at he
  | cons x t ih =>
    simp only [Tab.del] at he
    split at he
    · exact ih he
    · rename_i hx
      rcases List.mem_cons.mp he with rfl | he
      · exact hx
      · exact ih he

/-- A read after a write: the value written at its number, the old value at every other. -/
theorem Tab.get_set [DecidableEq α] (d : α) (t : Tab α) (k j : Nat) (v : α) :
    Tab.get d (Tab.set d t k v) j = if j = k then v else Tab.get d t j := by
  unfold Tab.set
  split
  · rename_i h; simp [Tab.get_del, h]
  · rw [Tab.get_ins d t k j v]
    simp only [Tab.get_del]
    split <;> simp_all

@[simp] theorem Tab.get_set_same [DecidableEq α] (d : α) (t : Tab α) (k : Nat) (v : α) : Tab.get d (Tab.set d t k v) k = v := by
  simp [Tab.get_set]

/-- Another number reads as before, whatever default the reader names. -/
theorem Tab.get_set_other [DecidableEq α] (d d' : α) (t : Tab α) (k j : Nat) (v : α) (h : j ≠ k) :
    Tab.get d' (Tab.set d t k v) j = Tab.get d' t j := by
  unfold Tab.set
  split
  · simp [Tab.get_del, h]
  · rw [Tab.get_ins, if_neg h, Tab.get_del, if_neg h]

/-- Numbers strictly rising, as a proposition about the whole table. -/
theorem Tab.rising_iff (t : Tab α) : Tab.rising t = true ↔ t.Pairwise (fun a b => a.1 < b.1) := by
  induction t with
  | nil => simp [Tab.rising]
  | cons a t ih =>
    cases t with
    | nil => simp [Tab.rising]
    | cons b t =>
      simp only [Tab.rising, Bool.and_eq_true, decide_eq_true_eq, ih, List.pairwise_cons]
      constructor
      · rintro ⟨h, hb, ht⟩
        exact ⟨fun x hx => (List.mem_cons.mp hx).elim (fun e => e ▸ h) (fun hx => Nat.lt_trans h (hb x hx)), hb, ht⟩
      · rintro ⟨ha, hb, ht⟩
        exact ⟨ha b (by simp), hb, ht⟩

theorem Tab.wf_iff [DecidableEq α] (d : α) (t : Tab α) :
    Tab.wf d t = true ↔ t.Pairwise (fun a b => a.1 < b.1) ∧ ∀ e ∈ t, e.2 ≠ d := by
  simp [Tab.wf, Tab.rising_iff]

/-- Dropping entries keeps the canonical form. -/
theorem Tab.wf_filter [DecidableEq α] (d : α) (t : Tab α) (p : Nat × α → Bool) (h : Tab.wf d t = true) :
    Tab.wf d (t.filter p) = true := by
  rw [Tab.wf_iff] at *
  exact ⟨h.1.filter p, fun e he => h.2 e (List.mem_filter.mp he).1⟩

theorem Tab.del_eq_filter (t : Tab α) (k : Nat) : Tab.del t k = t.filter fun e => decide (e.1 ≠ k) := by
  induction t with
  | nil => rfl
  | cons e t ih => by_cases h : e.1 = k <;> simp [Tab.del, h, ih]

theorem Tab.mem_ins (t : Tab α) (k : Nat) (v : α) (e : Nat × α) : e ∈ Tab.ins t k v ↔ e = (k, v) ∨ e ∈ t := by
  induction t with
  | nil => simp [Tab.ins]
  | cons x t ih =>
    simp only [Tab.ins]
    split
    · simp
    · simp only [List.mem_cons, ih]; exact or_left_comm

theorem Tab.pairwise_ins (t : Tab α) (k : Nat) (v : α) (hk : ∀ e ∈ t, e.1 ≠ k) (h : t.Pairwise (fun a b => a.1 < b.1)) :
    (Tab.ins t k v).Pairwise (fun a b => a.1 < b.1) := by
  induction t with
  | nil => simp [Tab.ins]
  | cons x t ih =>
    have hx := List.pairwise_cons.mp h
    simp only [Tab.ins]
    split
    · rename_i hlt
      refine List.pairwise_cons.mpr ⟨fun e he => ?_, h⟩
      rcases List.mem_cons.mp he with rfl | he
      · exact hlt
      · exact Nat.lt_trans hlt (hx.1 e he)
    · rename_i hlt
      refine List.pairwise_cons.mpr ⟨fun e he => ?_, ih (fun e he => hk e (by simp [he])) hx.2⟩
      rcases (Tab.mem_ins t k v e).mp he with rfl | he
      · have := hk x (by simp); simp only; omega
      · exact hx.1 e he

/-- Setting an entry keeps the canonical form. -/
theorem Tab.wf_set [DecidableEq α] (d : α) (t : Tab α) (k : Nat) (v : α) (h : Tab.wf d t = true) :
    Tab.wf d (Tab.set d t k v) = true := by
  have hd : Tab.wf d (Tab.del t k) = true := by rw [Tab.del_eq_filter]; exact Tab.wf_filter d t _ h
  unfold Tab.set
  split
  · exact hd
  · rename_i hv
    rw [Tab.wf_iff] at *
    have hk : ∀ e ∈ Tab.del t k, e.1 ≠ k := by
      intro e he; rw [Tab.del_eq_filter] at he; simpa using (List.mem_filter.mp he).2
    refine ⟨Tab.pairwise_ins _ k v hk hd.1, fun e he => ?_⟩
    rcases (Tab.mem_ins _ k v e).mp he with rfl | he
    · exact hv
    · exact hd.2 e he

end Sys2Proof.Machine
end

