-- ==== Sys2Proof/Laws/Memory.lean ====
section
/-! SUPPORT. Laws of tile DRAM: every memory operation keeps the canonical form, the memory after reset has it, a read after a write
gives the bytes written and every other byte as before. -/

namespace Sys2Proof.Machine

theorem Memory.wf_nil : Memory.wf [] = true := rfl
/-- The memory after reset is in canonical form. -/
theorem Memory.wf_reset : Memory.wf State.reset.mem = true := rfl

theorem Memory.wf_setByte (m : Memory) (a : Nat) (b : BitVec 8) (h : m.wf = true) : (m.setByte a b).wf = true :=
  Tab.wf_set _ m a b h

/-- A write of bytes keeps the canonical form. -/
theorem Memory.wf_write (m : Memory) (a v n : Nat) (h : m.wf = true) : (Memory.write m a v n).wf = true := by
  induction n with
  | zero => exact h
  | succ n ih => exact Memory.wf_setByte _ _ _ ih

/-- Zeroing a range keeps the canonical form. -/
theorem Memory.wf_zero (m : Memory) (lo hi : Nat) (h : m.wf = true) : (Memory.zero m lo hi).wf = true :=
  Tab.wf_filter _ m _ h

theorem Memory.byte_setByte (m : Memory) (a j : Nat) (b : BitVec 8) :
    (m.setByte a b).byte j = if j = a then b else m.byte j := Tab.get_set _ m a j b

/-- What a byte reads after a write of `n` bytes. -/
theorem Memory.byte_write (m : Memory) (a v n j : Nat) :
    (Memory.write m a v n).byte j = if a ≤ j ∧ j < a + n then BitVec.ofNat 8 (v / 2 ^ (8 * (j - a))) else m.byte j := by
  induction n with
  | zero => rw [if_neg (by omega)]; rfl
  | succ n ih =>
    simp only [Memory.write, Memory.byte_setByte, ih]
    by_cases h : j = a + n
    · subst h; simp
    · rw [if_neg h]
      by_cases h2 : a ≤ j ∧ j < a + n
      · rw [if_pos h2, if_pos ⟨h2.1, by omega⟩]
      · rw [if_neg h2, if_neg (by omega)]

/-- Zeroed bytes read 0, every other as before. -/
theorem Memory.byte_zero (m : Memory) (lo hi j : Nat) :
    (Memory.zero m lo hi).byte j = if lo ≤ j ∧ j < hi then 0#8 else m.byte j := by
  unfold Memory.zero Memory.byte
  induction m with
  | nil => simp [Tab.get]
  | cons e m ih =>
    simp only [List.filter]
    by_cases h : lo ≤ e.1 ∧ e.1 < hi
    · have : (!(decide (lo ≤ e.1) && decide (e.1 < hi))) = false := by simp [h.1, h.2]
      rw [this, ih]
      simp only [Tab.get]
      by_cases hj : e.1 = j
      · rw [if_pos (hj ▸ h), if_pos (hj ▸ h)]
      · rw [if_neg hj]
    · have : (!(decide (lo ≤ e.1) && decide (e.1 < hi))) = true := by
        simp only [Bool.not_eq_true', Bool.and_eq_false_iff, decide_eq_false_iff_not]; omega
      rw [this]
      simp only [Tab.get, ih]
      by_cases hj : e.1 = j
      · rw [if_pos hj, if_pos hj, if_neg (hj ▸ h)]
      · rw [if_neg hj, if_neg hj]

end Sys2Proof.Machine
end

