-- ==== Sys2Proof/Laws/State.lean ====
section
/-! SUPPORT. What each named update leaves of the machine: one lemma per update and per part it does not touch. -/

namespace Sys2Proof.Machine

variable (c : Chip) (s : State)

theorem State.on_eq (f : Chip → Chip) : s.on f = .next { s with chip := f s.chip } := rfl
@[simp] theorem State.upd_chip (f : Chip → Chip) : (s.upd f).chip = f s.chip := rfl
@[simp] theorem State.upd_mem (f : Chip → Chip) : (s.upd f).mem = s.mem := rfl
@[simp] theorem State.upd_pending (f : Chip → Chip) : (s.upd f).pending = s.pending := rfl

@[simp] theorem Chip.put_active (f : Fld) (v : Nat) : (c.put f v).active = c.active := rfl
@[simp] theorem Chip.put_staged (f : Fld) (v : Nat) : (c.put f v).staged = c.staged := rfl
@[simp] theorem Chip.put_out (f : Fld) (v : Nat) : (c.put f v).out = c.out := rfl
@[simp] theorem Chip.put_inflight (f : Fld) (v : Nat) : (c.put f v).inflight = c.inflight := rfl
@[simp] theorem Chip.put_mp (f : Fld) (v : Nat) : (c.put f v).mp = c.mp := rfl
@[simp] theorem Chip.put_lq (f : Fld) (v : Nat) : (c.put f v).lq = c.lq := rfl
@[simp] theorem Chip.put_quarters (f : Fld) (v : Nat) : (c.put f v).quarters = c.quarters := rfl
@[simp] theorem Chip.put_regions (f : Fld) (v : Nat) : (c.put f v).regions = c.regions := rfl
@[simp] theorem Chip.put_blocks (f : Fld) (v : Nat) : (c.put f v).blocks = c.blocks := rfl
@[simp] theorem Chip.put_groups (f : Fld) (v : Nat) : (c.put f v).groups = c.groups := rfl
@[simp] theorem Chip.put_streams (f : Fld) (v : Nat) : (c.put f v).streams = c.streams := rfl
@[simp] theorem Chip.put_apgs (f : Fld) (v : Nat) : (c.put f v).apgs = c.apgs := rfl
@[simp] theorem Chip.put_logs (f : Fld) (v : Nat) : (c.put f v).logs = c.logs := rfl
@[simp] theorem Chip.put_clusters (f : Fld) (v : Nat) : (c.put f v).clusters = c.clusters := rfl
@[simp] theorem Chip.put_ways (f : Fld) (v : Nat) : (c.put f v).ways = c.ways := rfl
@[simp] theorem Chip.put_marks (f : Fld) (v : Nat) : (c.put f v).marks = c.marks := rfl
@[simp] theorem Chip.put_free (f : Fld) (v : Nat) : (c.put f v).free = c.free := rfl
@[simp] theorem Chip.put_dram (f : Fld) (v : Nat) : (c.put f v).dram = c.dram := rfl
@[simp] theorem Chip.put_juncs (f : Fld) (v : Nat) : (c.put f v).juncs = c.juncs := rfl
@[simp] theorem Chip.put_rings (f : Fld) (v : Nat) : (c.put f v).rings = c.rings := rfl
@[simp] theorem Chip.put_dmas (f : Fld) (v : Nat) : (c.put f v).dmas = c.dmas := rfl
@[simp] theorem Chip.put_host (f : Fld) (v : Nat) : (c.put f v).host = c.host := rfl
@[simp] theorem Chip.put_router (f : Fld) (v : Nat) : (c.put f v).router = c.router := rfl
@[simp] theorem Chip.put_pwr (f : Fld) (v : Nat) : (c.put f v).pwr = c.pwr := rfl
@[simp] theorem Chip.put_trk (f : Fld) (v : Nat) : (c.put f v).trk = c.trk := rfl
@[simp] theorem Chip.put_hy (f : Fld) (v : Nat) : (c.put f v).hy = c.hy := rfl
@[simp] theorem Chip.put_cw (f : Fld) (v : Nat) : (c.put f v).cw = c.cw := rfl
@[simp] theorem Chip.put_sec (f : Fld) (v : Nat) : (c.put f v).sec = c.sec := rfl
@[simp] theorem Chip.put_cfg (f : Fld) (v : Nat) : (c.put f v).cfg = c.cfg := rfl
@[simp] theorem Chip.put_sw (f : Fld) (v : Nat) : (c.put f v).sw = c.sw := rfl
@[simp] theorem Chip.put_bist (f : Fld) (v : Nat) : (c.put f v).bist = c.bist := rfl
@[simp] theorem Chip.put_od (f : Fld) (v : Nat) : (c.put f v).od = c.od := rfl
@[simp] theorem Chip.put_dbg (f : Fld) (v : Nat) : (c.put f v).dbg = c.dbg := rfl
@[simp] theorem Chip.put_csr (f : Fld) (v : Nat) : (c.put f v).csr = c.csr := rfl

@[simp] theorem Chip.putAct_regs (f : Fld) (v : Nat) : (c.putAct f v).regs = c.regs := rfl
@[simp] theorem Chip.putAct_staged (f : Fld) (v : Nat) : (c.putAct f v).staged = c.staged := rfl
@[simp] theorem Chip.putAct_out (f : Fld) (v : Nat) : (c.putAct f v).out = c.out := rfl
@[simp] theorem Chip.putAct_inflight (f : Fld) (v : Nat) : (c.putAct f v).inflight = c.inflight := rfl
@[simp] theorem Chip.putAct_mp (f : Fld) (v : Nat) : (c.putAct f v).mp = c.mp := rfl
@[simp] theorem Chip.putAct_lq (f : Fld) (v : Nat) : (c.putAct f v).lq = c.lq := rfl
@[simp] theorem Chip.putAct_quarters (f : Fld) (v : Nat) : (c.putAct f v).quarters = c.quarters := rfl
@[simp] theorem Chip.putAct_regions (f : Fld) (v : Nat) : (c.putAct f v).regions = c.regions := rfl
@[simp] theorem Chip.putAct_blocks (f : Fld) (v : Nat) : (c.putAct f v).blocks = c.blocks := rfl
@[simp] theorem Chip.putAct_groups (f : Fld) (v : Nat) : (c.putAct f v).groups = c.groups := rfl
@[simp] theorem Chip.putAct_streams (f : Fld) (v : Nat) : (c.putAct f v).streams = c.streams := rfl
@[simp] theorem Chip.putAct_apgs (f : Fld) (v : Nat) : (c.putAct f v).apgs = c.apgs := rfl
@[simp] theorem Chip.putAct_logs (f : Fld) (v : Nat) : (c.putAct f v).logs = c.logs := rfl
@[simp] theorem Chip.putAct_clusters (f : Fld) (v : Nat) : (c.putAct f v).clusters = c.clusters := rfl
@[simp] theorem Chip.putAct_ways (f : Fld) (v : Nat) : (c.putAct f v).ways = c.ways := rfl
@[simp] theorem Chip.putAct_marks (f : Fld) (v : Nat) : (c.putAct f v).marks = c.marks := rfl
@[simp] theorem Chip.putAct_free (f : Fld) (v : Nat) : (c.putAct f v).free = c.free := rfl
@[simp] theorem Chip.putAct_dram (f : Fld) (v : Nat) : (c.putAct f v).dram = c.dram := rfl
@[simp] theorem Chip.putAct_juncs (f : Fld) (v : Nat) : (c.putAct f v).juncs = c.juncs := rfl
@[simp] theorem Chip.putAct_rings (f : Fld) (v : Nat) : (c.putAct f v).rings = c.rings := rfl
@[simp] theorem Chip.putAct_dmas (f : Fld) (v : Nat) : (c.putAct f v).dmas = c.dmas := rfl
@[simp] theorem Chip.putAct_host (f : Fld) (v : Nat) : (c.putAct f v).host = c.host := rfl
@[simp] theorem Chip.putAct_router (f : Fld) (v : Nat) : (c.putAct f v).router = c.router := rfl
@[simp] theorem Chip.putAct_pwr (f : Fld) (v : Nat) : (c.putAct f v).pwr = c.pwr := rfl
@[simp] theorem Chip.putAct_trk (f : Fld) (v : Nat) : (c.putAct f v).trk = c.trk := rfl
@[simp] theorem Chip.putAct_hy (f : Fld) (v : Nat) : (c.putAct f v).hy = c.hy := rfl
@[simp] theorem Chip.putAct_cw (f : Fld) (v : Nat) : (c.putAct f v).cw = c.cw := rfl
@[simp] theorem Chip.putAct_sec (f : Fld) (v : Nat) : (c.putAct f v).sec = c.sec := rfl
@[simp] theorem Chip.putAct_cfg (f : Fld) (v : Nat) : (c.putAct f v).cfg = c.cfg := rfl
@[simp] theorem Chip.putAct_sw (f : Fld) (v : Nat) : (c.putAct f v).sw = c.sw := rfl
@[simp] theorem Chip.putAct_bist (f : Fld) (v : Nat) : (c.putAct f v).bist = c.bist := rfl
@[simp] theorem Chip.putAct_od (f : Fld) (v : Nat) : (c.putAct f v).od = c.od := rfl
@[simp] theorem Chip.putAct_dbg (f : Fld) (v : Nat) : (c.putAct f v).dbg = c.dbg := rfl
@[simp] theorem Chip.putAct_csr (f : Fld) (v : Nat) : (c.putAct f v).csr = c.csr := rfl

@[simp] theorem Chip.putStg_regs (f : Fld) (v : Nat) : (c.putStg f v).regs = c.regs := rfl
@[simp] theorem Chip.putStg_active (f : Fld) (v : Nat) : (c.putStg f v).active = c.active := rfl
@[simp] theorem Chip.putStg_out (f : Fld) (v : Nat) : (c.putStg f v).out = c.out := rfl
@[simp] theorem Chip.putStg_inflight (f : Fld) (v : Nat) : (c.putStg f v).inflight = c.inflight := rfl
@[simp] theorem Chip.putStg_mp (f : Fld) (v : Nat) : (c.putStg f v).mp = c.mp := rfl
@[simp] theorem Chip.putStg_lq (f : Fld) (v : Nat) : (c.putStg f v).lq = c.lq := rfl
@[simp] theorem Chip.putStg_quarters (f : Fld) (v : Nat) : (c.putStg f v).quarters = c.quarters := rfl
@[simp] theorem Chip.putStg_regions (f : Fld) (v : Nat) : (c.putStg f v).regions = c.regions := rfl
@[simp] theorem Chip.putStg_blocks (f : Fld) (v : Nat) : (c.putStg f v).blocks = c.blocks := rfl
@[simp] theorem Chip.putStg_groups (f : Fld) (v : Nat) : (c.putStg f v).groups = c.groups := rfl
@[simp] theorem Chip.putStg_streams (f : Fld) (v : Nat) : (c.putStg f v).streams = c.streams := rfl
@[simp] theorem Chip.putStg_apgs (f : Fld) (v : Nat) : (c.putStg f v).apgs = c.apgs := rfl
@[simp] theorem Chip.putStg_logs (f : Fld) (v : Nat) : (c.putStg f v).logs = c.logs := rfl
@[simp] theorem Chip.putStg_clusters (f : Fld) (v : Nat) : (c.putStg f v).clusters = c.clusters := rfl
@[simp] theorem Chip.putStg_ways (f : Fld) (v : Nat) : (c.putStg f v).ways = c.ways := rfl
@[simp] theorem Chip.putStg_marks (f : Fld) (v : Nat) : (c.putStg f v).marks = c.marks := rfl
@[simp] theorem Chip.putStg_free (f : Fld) (v : Nat) : (c.putStg f v).free = c.free := rfl
@[simp] theorem Chip.putStg_dram (f : Fld) (v : Nat) : (c.putStg f v).dram = c.dram := rfl
@[simp] theorem Chip.putStg_juncs (f : Fld) (v : Nat) : (c.putStg f v).juncs = c.juncs := rfl
@[simp] theorem Chip.putStg_rings (f : Fld) (v : Nat) : (c.putStg f v).rings = c.rings := rfl
@[simp] theorem Chip.putStg_dmas (f : Fld) (v : Nat) : (c.putStg f v).dmas = c.dmas := rfl
@[simp] theorem Chip.putStg_host (f : Fld) (v : Nat) : (c.putStg f v).host = c.host := rfl
@[simp] theorem Chip.putStg_router (f : Fld) (v : Nat) : (c.putStg f v).router = c.router := rfl
@[simp] theorem Chip.putStg_pwr (f : Fld) (v : Nat) : (c.putStg f v).pwr = c.pwr := rfl
@[simp] theorem Chip.putStg_trk (f : Fld) (v : Nat) : (c.putStg f v).trk = c.trk := rfl
@[simp] theorem Chip.putStg_hy (f : Fld) (v : Nat) : (c.putStg f v).hy = c.hy := rfl
@[simp] theorem Chip.putStg_cw (f : Fld) (v : Nat) : (c.putStg f v).cw = c.cw := rfl
@[simp] theorem Chip.putStg_sec (f : Fld) (v : Nat) : (c.putStg f v).sec = c.sec := rfl
@[simp] theorem Chip.putStg_cfg (f : Fld) (v : Nat) : (c.putStg f v).cfg = c.cfg := rfl
@[simp] theorem Chip.putStg_sw (f : Fld) (v : Nat) : (c.putStg f v).sw = c.sw := rfl
@[simp] theorem Chip.putStg_bist (f : Fld) (v : Nat) : (c.putStg f v).bist = c.bist := rfl
@[simp] theorem Chip.putStg_od (f : Fld) (v : Nat) : (c.putStg f v).od = c.od := rfl
@[simp] theorem Chip.putStg_dbg (f : Fld) (v : Nat) : (c.putStg f v).dbg = c.dbg := rfl
@[simp] theorem Chip.putStg_csr (f : Fld) (v : Nat) : (c.putStg f v).csr = c.csr := rfl

@[simp] theorem Chip.putB_active (f : Fld) (b : Bool) : (c.putB f b).active = c.active := rfl
@[simp] theorem Chip.putB_staged (f : Fld) (b : Bool) : (c.putB f b).staged = c.staged := rfl
@[simp] theorem Chip.putB_out (f : Fld) (b : Bool) : (c.putB f b).out = c.out := rfl
@[simp] theorem Chip.putB_inflight (f : Fld) (b : Bool) : (c.putB f b).inflight = c.inflight := rfl
@[simp] theorem Chip.putB_mp (f : Fld) (b : Bool) : (c.putB f b).mp = c.mp := rfl
@[simp] theorem Chip.putB_lq (f : Fld) (b : Bool) : (c.putB f b).lq = c.lq := rfl
@[simp] theorem Chip.putB_quarters (f : Fld) (b : Bool) : (c.putB f b).quarters = c.quarters := rfl
@[simp] theorem Chip.putB_regions (f : Fld) (b : Bool) : (c.putB f b).regions = c.regions := rfl
@[simp] theorem Chip.putB_blocks (f : Fld) (b : Bool) : (c.putB f b).blocks = c.blocks := rfl
@[simp] theorem Chip.putB_groups (f : Fld) (b : Bool) : (c.putB f b).groups = c.groups := rfl
@[simp] theorem Chip.putB_streams (f : Fld) (b : Bool) : (c.putB f b).streams = c.streams := rfl
@[simp] theorem Chip.putB_apgs (f : Fld) (b : Bool) : (c.putB f b).apgs = c.apgs := rfl
@[simp] theorem Chip.putB_logs (f : Fld) (b : Bool) : (c.putB f b).logs = c.logs := rfl
@[simp] theorem Chip.putB_clusters (f : Fld) (b : Bool) : (c.putB f b).clusters = c.clusters := rfl
@[simp] theorem Chip.putB_ways (f : Fld) (b : Bool) : (c.putB f b).ways = c.ways := rfl
@[simp] theorem Chip.putB_marks (f : Fld) (b : Bool) : (c.putB f b).marks = c.marks := rfl
@[simp] theorem Chip.putB_free (f : Fld) (b : Bool) : (c.putB f b).free = c.free := rfl
@[simp] theorem Chip.putB_dram (f : Fld) (b : Bool) : (c.putB f b).dram = c.dram := rfl
@[simp] theorem Chip.putB_juncs (f : Fld) (b : Bool) : (c.putB f b).juncs = c.juncs := rfl
@[simp] theorem Chip.putB_rings (f : Fld) (b : Bool) : (c.putB f b).rings = c.rings := rfl
@[simp] theorem Chip.putB_dmas (f : Fld) (b : Bool) : (c.putB f b).dmas = c.dmas := rfl
@[simp] theorem Chip.putB_host (f : Fld) (b : Bool) : (c.putB f b).host = c.host := rfl
@[simp] theorem Chip.putB_router (f : Fld) (b : Bool) : (c.putB f b).router = c.router := rfl
@[simp] theorem Chip.putB_pwr (f : Fld) (b : Bool) : (c.putB f b).pwr = c.pwr := rfl
@[simp] theorem Chip.putB_trk (f : Fld) (b : Bool) : (c.putB f b).trk = c.trk := rfl
@[simp] theorem Chip.putB_hy (f : Fld) (b : Bool) : (c.putB f b).hy = c.hy := rfl
@[simp] theorem Chip.putB_cw (f : Fld) (b : Bool) : (c.putB f b).cw = c.cw := rfl
@[simp] theorem Chip.putB_sec (f : Fld) (b : Bool) : (c.putB f b).sec = c.sec := rfl
@[simp] theorem Chip.putB_cfg (f : Fld) (b : Bool) : (c.putB f b).cfg = c.cfg := rfl
@[simp] theorem Chip.putB_sw (f : Fld) (b : Bool) : (c.putB f b).sw = c.sw := rfl
@[simp] theorem Chip.putB_bist (f : Fld) (b : Bool) : (c.putB f b).bist = c.bist := rfl
@[simp] theorem Chip.putB_od (f : Fld) (b : Bool) : (c.putB f b).od = c.od := rfl
@[simp] theorem Chip.putB_dbg (f : Fld) (b : Bool) : (c.putB f b).dbg = c.dbg := rfl
@[simp] theorem Chip.putB_csr (f : Fld) (b : Bool) : (c.putB f b).csr = c.csr := rfl

@[simp] theorem Chip.putS_active (f : Fld) (v : Int) : (c.putS f v).active = c.active := rfl
@[simp] theorem Chip.putS_staged (f : Fld) (v : Int) : (c.putS f v).staged = c.staged := rfl
@[simp] theorem Chip.putS_out (f : Fld) (v : Int) : (c.putS f v).out = c.out := rfl
@[simp] theorem Chip.putS_inflight (f : Fld) (v : Int) : (c.putS f v).inflight = c.inflight := rfl
@[simp] theorem Chip.putS_mp (f : Fld) (v : Int) : (c.putS f v).mp = c.mp := rfl
@[simp] theorem Chip.putS_lq (f : Fld) (v : Int) : (c.putS f v).lq = c.lq := rfl
@[simp] theorem Chip.putS_quarters (f : Fld) (v : Int) : (c.putS f v).quarters = c.quarters := rfl
@[simp] theorem Chip.putS_regions (f : Fld) (v : Int) : (c.putS f v).regions = c.regions := rfl
@[simp] theorem Chip.putS_blocks (f : Fld) (v : Int) : (c.putS f v).blocks = c.blocks := rfl
@[simp] theorem Chip.putS_groups (f : Fld) (v : Int) : (c.putS f v).groups = c.groups := rfl
@[simp] theorem Chip.putS_streams (f : Fld) (v : Int) : (c.putS f v).streams = c.streams := rfl
@[simp] theorem Chip.putS_apgs (f : Fld) (v : Int) : (c.putS f v).apgs = c.apgs := rfl
@[simp] theorem Chip.putS_logs (f : Fld) (v : Int) : (c.putS f v).logs = c.logs := rfl
@[simp] theorem Chip.putS_clusters (f : Fld) (v : Int) : (c.putS f v).clusters = c.clusters := rfl
@[simp] theorem Chip.putS_ways (f : Fld) (v : Int) : (c.putS f v).ways = c.ways := rfl
@[simp] theorem Chip.putS_marks (f : Fld) (v : Int) : (c.putS f v).marks = c.marks := rfl
@[simp] theorem Chip.putS_free (f : Fld) (v : Int) : (c.putS f v).free = c.free := rfl
@[simp] theorem Chip.putS_dram (f : Fld) (v : Int) : (c.putS f v).dram = c.dram := rfl
@[simp] theorem Chip.putS_juncs (f : Fld) (v : Int) : (c.putS f v).juncs = c.juncs := rfl
@[simp] theorem Chip.putS_rings (f : Fld) (v : Int) : (c.putS f v).rings = c.rings := rfl
@[simp] theorem Chip.putS_dmas (f : Fld) (v : Int) : (c.putS f v).dmas = c.dmas := rfl
@[simp] theorem Chip.putS_host (f : Fld) (v : Int) : (c.putS f v).host = c.host := rfl
@[simp] theorem Chip.putS_router (f : Fld) (v : Int) : (c.putS f v).router = c.router := rfl
@[simp] theorem Chip.putS_pwr (f : Fld) (v : Int) : (c.putS f v).pwr = c.pwr := rfl
@[simp] theorem Chip.putS_trk (f : Fld) (v : Int) : (c.putS f v).trk = c.trk := rfl
@[simp] theorem Chip.putS_hy (f : Fld) (v : Int) : (c.putS f v).hy = c.hy := rfl
@[simp] theorem Chip.putS_cw (f : Fld) (v : Int) : (c.putS f v).cw = c.cw := rfl
@[simp] theorem Chip.putS_sec (f : Fld) (v : Int) : (c.putS f v).sec = c.sec := rfl
@[simp] theorem Chip.putS_cfg (f : Fld) (v : Int) : (c.putS f v).cfg = c.cfg := rfl
@[simp] theorem Chip.putS_sw (f : Fld) (v : Int) : (c.putS f v).sw = c.sw := rfl
@[simp] theorem Chip.putS_bist (f : Fld) (v : Int) : (c.putS f v).bist = c.bist := rfl
@[simp] theorem Chip.putS_od (f : Fld) (v : Int) : (c.putS f v).od = c.od := rfl
@[simp] theorem Chip.putS_dbg (f : Fld) (v : Int) : (c.putS f v).dbg = c.dbg := rfl
@[simp] theorem Chip.putS_csr (f : Fld) (v : Int) : (c.putS f v).csr = c.csr := rfl

@[simp] theorem Chip.put2_active (lo hi : Fld) (v : Nat) : (c.put2 lo hi v).active = c.active := rfl
@[simp] theorem Chip.put2_staged (lo hi : Fld) (v : Nat) : (c.put2 lo hi v).staged = c.staged := rfl
@[simp] theorem Chip.put2_out (lo hi : Fld) (v : Nat) : (c.put2 lo hi v).out = c.out := rfl
@[simp] theorem Chip.put2_inflight (lo hi : Fld) (v : Nat) : (c.put2 lo hi v).inflight = c.inflight := rfl
@[simp] theorem Chip.put2_mp (lo hi : Fld) (v : Nat) : (c.put2 lo hi v).mp = c.mp := rfl
@[simp] theorem Chip.put2_lq (lo hi : Fld) (v : Nat) : (c.put2 lo hi v).lq = c.lq := rfl
@[simp] theorem Chip.put2_quarters (lo hi : Fld) (v : Nat) : (c.put2 lo hi v).quarters = c.quarters := rfl
@[simp] theorem Chip.put2_regions (lo hi : Fld) (v : Nat) : (c.put2 lo hi v).regions = c.regions := rfl
@[simp] theorem Chip.put2_blocks (lo hi : Fld) (v : Nat) : (c.put2 lo hi v).blocks = c.blocks := rfl
@[simp] theorem Chip.put2_groups (lo hi : Fld) (v : Nat) : (c.put2 lo hi v).groups = c.groups := rfl
@[simp] theorem Chip.put2_streams (lo hi : Fld) (v : Nat) : (c.put2 lo hi v).streams = c.streams := rfl
@[simp] theorem Chip.put2_apgs (lo hi : Fld) (v : Nat) : (c.put2 lo hi v).apgs = c.apgs := rfl
@[simp] theorem Chip.put2_logs (lo hi : Fld) (v : Nat) : (c.put2 lo hi v).logs = c.logs := rfl
@[simp] theorem Chip.put2_clusters (lo hi : Fld) (v : Nat) : (c.put2 lo hi v).clusters = c.clusters := rfl
@[simp] theorem Chip.put2_ways (lo hi : Fld) (v : Nat) : (c.put2 lo hi v).ways = c.ways := rfl
@[simp] theorem Chip.put2_marks (lo hi : Fld) (v : Nat) : (c.put2 lo hi v).marks = c.marks := rfl
@[simp] theorem Chip.put2_free (lo hi : Fld) (v : Nat) : (c.put2 lo hi v).free = c.free := rfl
@[simp] theorem Chip.put2_dram (lo hi : Fld) (v : Nat) : (c.put2 lo hi v).dram = c.dram := rfl
@[simp] theorem Chip.put2_juncs (lo hi : Fld) (v : Nat) : (c.put2 lo hi v).juncs = c.juncs := rfl
@[simp] theorem Chip.put2_rings (lo hi : Fld) (v : Nat) : (c.put2 lo hi v).rings = c.rings := rfl
@[simp] theorem Chip.put2_dmas (lo hi : Fld) (v : Nat) : (c.put2 lo hi v).dmas = c.dmas := rfl
@[simp] theorem Chip.put2_host (lo hi : Fld) (v : Nat) : (c.put2 lo hi v).host = c.host := rfl
@[simp] theorem Chip.put2_router (lo hi : Fld) (v : Nat) : (c.put2 lo hi v).router = c.router := rfl
@[simp] theorem Chip.put2_pwr (lo hi : Fld) (v : Nat) : (c.put2 lo hi v).pwr = c.pwr := rfl
@[simp] theorem Chip.put2_trk (lo hi : Fld) (v : Nat) : (c.put2 lo hi v).trk = c.trk := rfl
@[simp] theorem Chip.put2_hy (lo hi : Fld) (v : Nat) : (c.put2 lo hi v).hy = c.hy := rfl
@[simp] theorem Chip.put2_cw (lo hi : Fld) (v : Nat) : (c.put2 lo hi v).cw = c.cw := rfl
@[simp] theorem Chip.put2_sec (lo hi : Fld) (v : Nat) : (c.put2 lo hi v).sec = c.sec := rfl
@[simp] theorem Chip.put2_cfg (lo hi : Fld) (v : Nat) : (c.put2 lo hi v).cfg = c.cfg := rfl
@[simp] theorem Chip.put2_sw (lo hi : Fld) (v : Nat) : (c.put2 lo hi v).sw = c.sw := rfl
@[simp] theorem Chip.put2_bist (lo hi : Fld) (v : Nat) : (c.put2 lo hi v).bist = c.bist := rfl
@[simp] theorem Chip.put2_od (lo hi : Fld) (v : Nat) : (c.put2 lo hi v).od = c.od := rfl
@[simp] theorem Chip.put2_dbg (lo hi : Fld) (v : Nat) : (c.put2 lo hi v).dbg = c.dbg := rfl
@[simp] theorem Chip.put2_csr (lo hi : Fld) (v : Nat) : (c.put2 lo hi v).csr = c.csr := rfl

@[simp] theorem Chip.put3_active (lo hi top : Fld) (v : Nat) : (c.put3 lo hi top v).active = c.active := rfl
@[simp] theorem Chip.put3_staged (lo hi top : Fld) (v : Nat) : (c.put3 lo hi top v).staged = c.staged := rfl
@[simp] theorem Chip.put3_out (lo hi top : Fld) (v : Nat) : (c.put3 lo hi top v).out = c.out := rfl
@[simp] theorem Chip.put3_inflight (lo hi top : Fld) (v : Nat) : (c.put3 lo hi top v).inflight = c.inflight := rfl
@[simp] theorem Chip.put3_mp (lo hi top : Fld) (v : Nat) : (c.put3 lo hi top v).mp = c.mp := rfl
@[simp] theorem Chip.put3_lq (lo hi top : Fld) (v : Nat) : (c.put3 lo hi top v).lq = c.lq := rfl
@[simp] theorem Chip.put3_quarters (lo hi top : Fld) (v : Nat) : (c.put3 lo hi top v).quarters = c.quarters := rfl
@[simp] theorem Chip.put3_regions (lo hi top : Fld) (v : Nat) : (c.put3 lo hi top v).regions = c.regions := rfl
@[simp] theorem Chip.put3_blocks (lo hi top : Fld) (v : Nat) : (c.put3 lo hi top v).blocks = c.blocks := rfl
@[simp] theorem Chip.put3_groups (lo hi top : Fld) (v : Nat) : (c.put3 lo hi top v).groups = c.groups := rfl
@[simp] theorem Chip.put3_streams (lo hi top : Fld) (v : Nat) : (c.put3 lo hi top v).streams = c.streams := rfl
@[simp] theorem Chip.put3_apgs (lo hi top : Fld) (v : Nat) : (c.put3 lo hi top v).apgs = c.apgs := rfl
@[simp] theorem Chip.put3_logs (lo hi top : Fld) (v : Nat) : (c.put3 lo hi top v).logs = c.logs := rfl
@[simp] theorem Chip.put3_clusters (lo hi top : Fld) (v : Nat) : (c.put3 lo hi top v).clusters = c.clusters := rfl
@[simp] theorem Chip.put3_ways (lo hi top : Fld) (v : Nat) : (c.put3 lo hi top v).ways = c.ways := rfl
@[simp] theorem Chip.put3_marks (lo hi top : Fld) (v : Nat) : (c.put3 lo hi top v).marks = c.marks := rfl
@[simp] theorem Chip.put3_free (lo hi top : Fld) (v : Nat) : (c.put3 lo hi top v).free = c.free := rfl
@[simp] theorem Chip.put3_dram (lo hi top : Fld) (v : Nat) : (c.put3 lo hi top v).dram = c.dram := rfl
@[simp] theorem Chip.put3_juncs (lo hi top : Fld) (v : Nat) : (c.put3 lo hi top v).juncs = c.juncs := rfl
@[simp] theorem Chip.put3_rings (lo hi top : Fld) (v : Nat) : (c.put3 lo hi top v).rings = c.rings := rfl
@[simp] theorem Chip.put3_dmas (lo hi top : Fld) (v : Nat) : (c.put3 lo hi top v).dmas = c.dmas := rfl
@[simp] theorem Chip.put3_host (lo hi top : Fld) (v : Nat) : (c.put3 lo hi top v).host = c.host := rfl
@[simp] theorem Chip.put3_router (lo hi top : Fld) (v : Nat) : (c.put3 lo hi top v).router = c.router := rfl
@[simp] theorem Chip.put3_pwr (lo hi top : Fld) (v : Nat) : (c.put3 lo hi top v).pwr = c.pwr := rfl
@[simp] theorem Chip.put3_trk (lo hi top : Fld) (v : Nat) : (c.put3 lo hi top v).trk = c.trk := rfl
@[simp] theorem Chip.put3_hy (lo hi top : Fld) (v : Nat) : (c.put3 lo hi top v).hy = c.hy := rfl
@[simp] theorem Chip.put3_cw (lo hi top : Fld) (v : Nat) : (c.put3 lo hi top v).cw = c.cw := rfl
@[simp] theorem Chip.put3_sec (lo hi top : Fld) (v : Nat) : (c.put3 lo hi top v).sec = c.sec := rfl
@[simp] theorem Chip.put3_cfg (lo hi top : Fld) (v : Nat) : (c.put3 lo hi top v).cfg = c.cfg := rfl
@[simp] theorem Chip.put3_sw (lo hi top : Fld) (v : Nat) : (c.put3 lo hi top v).sw = c.sw := rfl
@[simp] theorem Chip.put3_bist (lo hi top : Fld) (v : Nat) : (c.put3 lo hi top v).bist = c.bist := rfl
@[simp] theorem Chip.put3_od (lo hi top : Fld) (v : Nat) : (c.put3 lo hi top v).od = c.od := rfl
@[simp] theorem Chip.put3_dbg (lo hi top : Fld) (v : Nat) : (c.put3 lo hi top v).dbg = c.dbg := rfl
@[simp] theorem Chip.put3_csr (lo hi top : Fld) (v : Nat) : (c.put3 lo hi top v).csr = c.csr := rfl

@[simp] theorem Chip.addSat_active (f : Fld) (n : Nat) : (c.addSat f n).active = c.active := rfl
@[simp] theorem Chip.addSat_staged (f : Fld) (n : Nat) : (c.addSat f n).staged = c.staged := rfl
@[simp] theorem Chip.addSat_out (f : Fld) (n : Nat) : (c.addSat f n).out = c.out := rfl
@[simp] theorem Chip.addSat_inflight (f : Fld) (n : Nat) : (c.addSat f n).inflight = c.inflight := rfl
@[simp] theorem Chip.addSat_mp (f : Fld) (n : Nat) : (c.addSat f n).mp = c.mp := rfl
@[simp] theorem Chip.addSat_lq (f : Fld) (n : Nat) : (c.addSat f n).lq = c.lq := rfl
@[simp] theorem Chip.addSat_quarters (f : Fld) (n : Nat) : (c.addSat f n).quarters = c.quarters := rfl
@[simp] theorem Chip.addSat_regions (f : Fld) (n : Nat) : (c.addSat f n).regions = c.regions := rfl
@[simp] theorem Chip.addSat_blocks (f : Fld) (n : Nat) : (c.addSat f n).blocks = c.blocks := rfl
@[simp] theorem Chip.addSat_groups (f : Fld) (n : Nat) : (c.addSat f n).groups = c.groups := rfl
@[simp] theorem Chip.addSat_streams (f : Fld) (n : Nat) : (c.addSat f n).streams = c.streams := rfl
@[simp] theorem Chip.addSat_apgs (f : Fld) (n : Nat) : (c.addSat f n).apgs = c.apgs := rfl
@[simp] theorem Chip.addSat_logs (f : Fld) (n : Nat) : (c.addSat f n).logs = c.logs := rfl
@[simp] theorem Chip.addSat_clusters (f : Fld) (n : Nat) : (c.addSat f n).clusters = c.clusters := rfl
@[simp] theorem Chip.addSat_ways (f : Fld) (n : Nat) : (c.addSat f n).ways = c.ways := rfl
@[simp] theorem Chip.addSat_marks (f : Fld) (n : Nat) : (c.addSat f n).marks = c.marks := rfl
@[simp] theorem Chip.addSat_free (f : Fld) (n : Nat) : (c.addSat f n).free = c.free := rfl
@[simp] theorem Chip.addSat_dram (f : Fld) (n : Nat) : (c.addSat f n).dram = c.dram := rfl
@[simp] theorem Chip.addSat_juncs (f : Fld) (n : Nat) : (c.addSat f n).juncs = c.juncs := rfl
@[simp] theorem Chip.addSat_rings (f : Fld) (n : Nat) : (c.addSat f n).rings = c.rings := rfl
@[simp] theorem Chip.addSat_dmas (f : Fld) (n : Nat) : (c.addSat f n).dmas = c.dmas := rfl
@[simp] theorem Chip.addSat_host (f : Fld) (n : Nat) : (c.addSat f n).host = c.host := rfl
@[simp] theorem Chip.addSat_router (f : Fld) (n : Nat) : (c.addSat f n).router = c.router := rfl
@[simp] theorem Chip.addSat_pwr (f : Fld) (n : Nat) : (c.addSat f n).pwr = c.pwr := rfl
@[simp] theorem Chip.addSat_trk (f : Fld) (n : Nat) : (c.addSat f n).trk = c.trk := rfl
@[simp] theorem Chip.addSat_hy (f : Fld) (n : Nat) : (c.addSat f n).hy = c.hy := rfl
@[simp] theorem Chip.addSat_cw (f : Fld) (n : Nat) : (c.addSat f n).cw = c.cw := rfl
@[simp] theorem Chip.addSat_sec (f : Fld) (n : Nat) : (c.addSat f n).sec = c.sec := rfl
@[simp] theorem Chip.addSat_cfg (f : Fld) (n : Nat) : (c.addSat f n).cfg = c.cfg := rfl
@[simp] theorem Chip.addSat_sw (f : Fld) (n : Nat) : (c.addSat f n).sw = c.sw := rfl
@[simp] theorem Chip.addSat_bist (f : Fld) (n : Nat) : (c.addSat f n).bist = c.bist := rfl
@[simp] theorem Chip.addSat_od (f : Fld) (n : Nat) : (c.addSat f n).od = c.od := rfl
@[simp] theorem Chip.addSat_dbg (f : Fld) (n : Nat) : (c.addSat f n).dbg = c.dbg := rfl
@[simp] theorem Chip.addSat_csr (f : Fld) (n : Nat) : (c.addSat f n).csr = c.csr := rfl

@[simp] theorem Chip.incSat_active (f : Fld) : (c.incSat f).active = c.active := rfl
@[simp] theorem Chip.incSat_staged (f : Fld) : (c.incSat f).staged = c.staged := rfl
@[simp] theorem Chip.incSat_out (f : Fld) : (c.incSat f).out = c.out := rfl
@[simp] theorem Chip.incSat_inflight (f : Fld) : (c.incSat f).inflight = c.inflight := rfl
@[simp] theorem Chip.incSat_mp (f : Fld) : (c.incSat f).mp = c.mp := rfl
@[simp] theorem Chip.incSat_lq (f : Fld) : (c.incSat f).lq = c.lq := rfl
@[simp] theorem Chip.incSat_quarters (f : Fld) : (c.incSat f).quarters = c.quarters := rfl
@[simp] theorem Chip.incSat_regions (f : Fld) : (c.incSat f).regions = c.regions := rfl
@[simp] theorem Chip.incSat_blocks (f : Fld) : (c.incSat f).blocks = c.blocks := rfl
@[simp] theorem Chip.incSat_groups (f : Fld) : (c.incSat f).groups = c.groups := rfl
@[simp] theorem Chip.incSat_streams (f : Fld) : (c.incSat f).streams = c.streams := rfl
@[simp] theorem Chip.incSat_apgs (f : Fld) : (c.incSat f).apgs = c.apgs := rfl
@[simp] theorem Chip.incSat_logs (f : Fld) : (c.incSat f).logs = c.logs := rfl
@[simp] theorem Chip.incSat_clusters (f : Fld) : (c.incSat f).clusters = c.clusters := rfl
@[simp] theorem Chip.incSat_ways (f : Fld) : (c.incSat f).ways = c.ways := rfl
@[simp] theorem Chip.incSat_marks (f : Fld) : (c.incSat f).marks = c.marks := rfl
@[simp] theorem Chip.incSat_free (f : Fld) : (c.incSat f).free = c.free := rfl
@[simp] theorem Chip.incSat_dram (f : Fld) : (c.incSat f).dram = c.dram := rfl
@[simp] theorem Chip.incSat_juncs (f : Fld) : (c.incSat f).juncs = c.juncs := rfl
@[simp] theorem Chip.incSat_rings (f : Fld) : (c.incSat f).rings = c.rings := rfl
@[simp] theorem Chip.incSat_dmas (f : Fld) : (c.incSat f).dmas = c.dmas := rfl
@[simp] theorem Chip.incSat_host (f : Fld) : (c.incSat f).host = c.host := rfl
@[simp] theorem Chip.incSat_router (f : Fld) : (c.incSat f).router = c.router := rfl
@[simp] theorem Chip.incSat_pwr (f : Fld) : (c.incSat f).pwr = c.pwr := rfl
@[simp] theorem Chip.incSat_trk (f : Fld) : (c.incSat f).trk = c.trk := rfl
@[simp] theorem Chip.incSat_hy (f : Fld) : (c.incSat f).hy = c.hy := rfl
@[simp] theorem Chip.incSat_cw (f : Fld) : (c.incSat f).cw = c.cw := rfl
@[simp] theorem Chip.incSat_sec (f : Fld) : (c.incSat f).sec = c.sec := rfl
@[simp] theorem Chip.incSat_cfg (f : Fld) : (c.incSat f).cfg = c.cfg := rfl
@[simp] theorem Chip.incSat_sw (f : Fld) : (c.incSat f).sw = c.sw := rfl
@[simp] theorem Chip.incSat_bist (f : Fld) : (c.incSat f).bist = c.bist := rfl
@[simp] theorem Chip.incSat_od (f : Fld) : (c.incSat f).od = c.od := rfl
@[simp] theorem Chip.incSat_dbg (f : Fld) : (c.incSat f).dbg = c.dbg := rfl
@[simp] theorem Chip.incSat_csr (f : Fld) : (c.incSat f).csr = c.csr := rfl

@[simp] theorem Chip.incWrap_active (f : Fld) : (c.incWrap f).active = c.active := rfl
@[simp] theorem Chip.incWrap_staged (f : Fld) : (c.incWrap f).staged = c.staged := rfl
@[simp] theorem Chip.incWrap_out (f : Fld) : (c.incWrap f).out = c.out := rfl
@[simp] theorem Chip.incWrap_inflight (f : Fld) : (c.incWrap f).inflight = c.inflight := rfl
@[simp] theorem Chip.incWrap_mp (f : Fld) : (c.incWrap f).mp = c.mp := rfl
@[simp] theorem Chip.incWrap_lq (f : Fld) : (c.incWrap f).lq = c.lq := rfl
@[simp] theorem Chip.incWrap_quarters (f : Fld) : (c.incWrap f).quarters = c.quarters := rfl
@[simp] theorem Chip.incWrap_regions (f : Fld) : (c.incWrap f).regions = c.regions := rfl
@[simp] theorem Chip.incWrap_blocks (f : Fld) : (c.incWrap f).blocks = c.blocks := rfl
@[simp] theorem Chip.incWrap_groups (f : Fld) : (c.incWrap f).groups = c.groups := rfl
@[simp] theorem Chip.incWrap_streams (f : Fld) : (c.incWrap f).streams = c.streams := rfl
@[simp] theorem Chip.incWrap_apgs (f : Fld) : (c.incWrap f).apgs = c.apgs := rfl
@[simp] theorem Chip.incWrap_logs (f : Fld) : (c.incWrap f).logs = c.logs := rfl
@[simp] theorem Chip.incWrap_clusters (f : Fld) : (c.incWrap f).clusters = c.clusters := rfl
@[simp] theorem Chip.incWrap_ways (f : Fld) : (c.incWrap f).ways = c.ways := rfl
@[simp] theorem Chip.incWrap_marks (f : Fld) : (c.incWrap f).marks = c.marks := rfl
@[simp] theorem Chip.incWrap_free (f : Fld) : (c.incWrap f).free = c.free := rfl
@[simp] theorem Chip.incWrap_dram (f : Fld) : (c.incWrap f).dram = c.dram := rfl
@[simp] theorem Chip.incWrap_juncs (f : Fld) : (c.incWrap f).juncs = c.juncs := rfl
@[simp] theorem Chip.incWrap_rings (f : Fld) : (c.incWrap f).rings = c.rings := rfl
@[simp] theorem Chip.incWrap_dmas (f : Fld) : (c.incWrap f).dmas = c.dmas := rfl
@[simp] theorem Chip.incWrap_host (f : Fld) : (c.incWrap f).host = c.host := rfl
@[simp] theorem Chip.incWrap_router (f : Fld) : (c.incWrap f).router = c.router := rfl
@[simp] theorem Chip.incWrap_pwr (f : Fld) : (c.incWrap f).pwr = c.pwr := rfl
@[simp] theorem Chip.incWrap_trk (f : Fld) : (c.incWrap f).trk = c.trk := rfl
@[simp] theorem Chip.incWrap_hy (f : Fld) : (c.incWrap f).hy = c.hy := rfl
@[simp] theorem Chip.incWrap_cw (f : Fld) : (c.incWrap f).cw = c.cw := rfl
@[simp] theorem Chip.incWrap_sec (f : Fld) : (c.incWrap f).sec = c.sec := rfl
@[simp] theorem Chip.incWrap_cfg (f : Fld) : (c.incWrap f).cfg = c.cfg := rfl
@[simp] theorem Chip.incWrap_sw (f : Fld) : (c.incWrap f).sw = c.sw := rfl
@[simp] theorem Chip.incWrap_bist (f : Fld) : (c.incWrap f).bist = c.bist := rfl
@[simp] theorem Chip.incWrap_od (f : Fld) : (c.incWrap f).od = c.od := rfl
@[simp] theorem Chip.incWrap_dbg (f : Fld) : (c.incWrap f).dbg = c.dbg := rfl
@[simp] theorem Chip.incWrap_csr (f : Fld) : (c.incWrap f).csr = c.csr := rfl

@[simp] theorem Chip.emit_regs (o : Out) : (c.emit o).regs = c.regs := rfl
@[simp] theorem Chip.emit_active (o : Out) : (c.emit o).active = c.active := rfl
@[simp] theorem Chip.emit_staged (o : Out) : (c.emit o).staged = c.staged := rfl
@[simp] theorem Chip.emit_inflight (o : Out) : (c.emit o).inflight = c.inflight := rfl
@[simp] theorem Chip.emit_mp (o : Out) : (c.emit o).mp = c.mp := rfl
@[simp] theorem Chip.emit_lq (o : Out) : (c.emit o).lq = c.lq := rfl
@[simp] theorem Chip.emit_quarters (o : Out) : (c.emit o).quarters = c.quarters := rfl
@[simp] theorem Chip.emit_regions (o : Out) : (c.emit o).regions = c.regions := rfl
@[simp] theorem Chip.emit_blocks (o : Out) : (c.emit o).blocks = c.blocks := rfl
@[simp] theorem Chip.emit_groups (o : Out) : (c.emit o).groups = c.groups := rfl
@[simp] theorem Chip.emit_streams (o : Out) : (c.emit o).streams = c.streams := rfl
@[simp] theorem Chip.emit_apgs (o : Out) : (c.emit o).apgs = c.apgs := rfl
@[simp] theorem Chip.emit_logs (o : Out) : (c.emit o).logs = c.logs := rfl
@[simp] theorem Chip.emit_clusters (o : Out) : (c.emit o).clusters = c.clusters := rfl
@[simp] theorem Chip.emit_ways (o : Out) : (c.emit o).ways = c.ways := rfl
@[simp] theorem Chip.emit_marks (o : Out) : (c.emit o).marks = c.marks := rfl
@[simp] theorem Chip.emit_free (o : Out) : (c.emit o).free = c.free := rfl
@[simp] theorem Chip.emit_dram (o : Out) : (c.emit o).dram = c.dram := rfl
@[simp] theorem Chip.emit_juncs (o : Out) : (c.emit o).juncs = c.juncs := rfl
@[simp] theorem Chip.emit_rings (o : Out) : (c.emit o).rings = c.rings := rfl
@[simp] theorem Chip.emit_dmas (o : Out) : (c.emit o).dmas = c.dmas := rfl
@[simp] theorem Chip.emit_host (o : Out) : (c.emit o).host = c.host := rfl
@[simp] theorem Chip.emit_router (o : Out) : (c.emit o).router = c.router := rfl
@[simp] theorem Chip.emit_pwr (o : Out) : (c.emit o).pwr = c.pwr := rfl
@[simp] theorem Chip.emit_trk (o : Out) : (c.emit o).trk = c.trk := rfl
@[simp] theorem Chip.emit_hy (o : Out) : (c.emit o).hy = c.hy := rfl
@[simp] theorem Chip.emit_cw (o : Out) : (c.emit o).cw = c.cw := rfl
@[simp] theorem Chip.emit_sec (o : Out) : (c.emit o).sec = c.sec := rfl
@[simp] theorem Chip.emit_cfg (o : Out) : (c.emit o).cfg = c.cfg := rfl
@[simp] theorem Chip.emit_sw (o : Out) : (c.emit o).sw = c.sw := rfl
@[simp] theorem Chip.emit_bist (o : Out) : (c.emit o).bist = c.bist := rfl
@[simp] theorem Chip.emit_od (o : Out) : (c.emit o).od = c.od := rfl
@[simp] theorem Chip.emit_dbg (o : Out) : (c.emit o).dbg = c.dbg := rfl
@[simp] theorem Chip.emit_csr (o : Out) : (c.emit o).csr = c.csr := rfl

@[simp] theorem Chip.raise_regs (n k : Nat) (p : List Nat) : (c.raise n k p).regs = c.regs := rfl
@[simp] theorem Chip.raise_active (n k : Nat) (p : List Nat) : (c.raise n k p).active = c.active := rfl
@[simp] theorem Chip.raise_staged (n k : Nat) (p : List Nat) : (c.raise n k p).staged = c.staged := rfl
@[simp] theorem Chip.raise_out (n k : Nat) (p : List Nat) : (c.raise n k p).out = c.out := rfl
@[simp] theorem Chip.raise_mp (n k : Nat) (p : List Nat) : (c.raise n k p).mp = c.mp := rfl
@[simp] theorem Chip.raise_lq (n k : Nat) (p : List Nat) : (c.raise n k p).lq = c.lq := rfl
@[simp] theorem Chip.raise_quarters (n k : Nat) (p : List Nat) : (c.raise n k p).quarters = c.quarters := rfl
@[simp] theorem Chip.raise_regions (n k : Nat) (p : List Nat) : (c.raise n k p).regions = c.regions := rfl
@[simp] theorem Chip.raise_blocks (n k : Nat) (p : List Nat) : (c.raise n k p).blocks = c.blocks := rfl
@[simp] theorem Chip.raise_groups (n k : Nat) (p : List Nat) : (c.raise n k p).groups = c.groups := rfl
@[simp] theorem Chip.raise_streams (n k : Nat) (p : List Nat) : (c.raise n k p).streams = c.streams := rfl
@[simp] theorem Chip.raise_apgs (n k : Nat) (p : List Nat) : (c.raise n k p).apgs = c.apgs := rfl
@[simp] theorem Chip.raise_logs (n k : Nat) (p : List Nat) : (c.raise n k p).logs = c.logs := rfl
@[simp] theorem Chip.raise_clusters (n k : Nat) (p : List Nat) : (c.raise n k p).clusters = c.clusters := rfl
@[simp] theorem Chip.raise_ways (n k : Nat) (p : List Nat) : (c.raise n k p).ways = c.ways := rfl
@[simp] theorem Chip.raise_marks (n k : Nat) (p : List Nat) : (c.raise n k p).marks = c.marks := rfl
@[simp] theorem Chip.raise_free (n k : Nat) (p : List Nat) : (c.raise n k p).free = c.free := rfl
@[simp] theorem Chip.raise_dram (n k : Nat) (p : List Nat) : (c.raise n k p).dram = c.dram := rfl
@[simp] theorem Chip.raise_juncs (n k : Nat) (p : List Nat) : (c.raise n k p).juncs = c.juncs := rfl
@[simp] theorem Chip.raise_rings (n k : Nat) (p : List Nat) : (c.raise n k p).rings = c.rings := rfl
@[simp] theorem Chip.raise_dmas (n k : Nat) (p : List Nat) : (c.raise n k p).dmas = c.dmas := rfl
@[simp] theorem Chip.raise_host (n k : Nat) (p : List Nat) : (c.raise n k p).host = c.host := rfl
@[simp] theorem Chip.raise_router (n k : Nat) (p : List Nat) : (c.raise n k p).router = c.router := rfl
@[simp] theorem Chip.raise_pwr (n k : Nat) (p : List Nat) : (c.raise n k p).pwr = c.pwr := rfl
@[simp] theorem Chip.raise_trk (n k : Nat) (p : List Nat) : (c.raise n k p).trk = c.trk := rfl
@[simp] theorem Chip.raise_hy (n k : Nat) (p : List Nat) : (c.raise n k p).hy = c.hy := rfl
@[simp] theorem Chip.raise_cw (n k : Nat) (p : List Nat) : (c.raise n k p).cw = c.cw := rfl
@[simp] theorem Chip.raise_sec (n k : Nat) (p : List Nat) : (c.raise n k p).sec = c.sec := rfl
@[simp] theorem Chip.raise_cfg (n k : Nat) (p : List Nat) : (c.raise n k p).cfg = c.cfg := rfl
@[simp] theorem Chip.raise_sw (n k : Nat) (p : List Nat) : (c.raise n k p).sw = c.sw := rfl
@[simp] theorem Chip.raise_bist (n k : Nat) (p : List Nat) : (c.raise n k p).bist = c.bist := rfl
@[simp] theorem Chip.raise_od (n k : Nat) (p : List Nat) : (c.raise n k p).od = c.od := rfl
@[simp] theorem Chip.raise_dbg (n k : Nat) (p : List Nat) : (c.raise n k p).dbg = c.dbg := rfl
@[simp] theorem Chip.raise_csr (n k : Nat) (p : List Nat) : (c.raise n k p).csr = c.csr := rfl

@[simp] theorem Chip.raiseAt_regs (n k t : Nat) (p : List Nat) : (c.raiseAt n k t p).regs = c.regs := rfl
@[simp] theorem Chip.raiseAt_active (n k t : Nat) (p : List Nat) : (c.raiseAt n k t p).active = c.active := rfl
@[simp] theorem Chip.raiseAt_staged (n k t : Nat) (p : List Nat) : (c.raiseAt n k t p).staged = c.staged := rfl
@[simp] theorem Chip.raiseAt_out (n k t : Nat) (p : List Nat) : (c.raiseAt n k t p).out = c.out := rfl
@[simp] theorem Chip.raiseAt_mp (n k t : Nat) (p : List Nat) : (c.raiseAt n k t p).mp = c.mp := rfl
@[simp] theorem Chip.raiseAt_lq (n k t : Nat) (p : List Nat) : (c.raiseAt n k t p).lq = c.lq := rfl
@[simp] theorem Chip.raiseAt_quarters (n k t : Nat) (p : List Nat) : (c.raiseAt n k t p).quarters = c.quarters := rfl
@[simp] theorem Chip.raiseAt_regions (n k t : Nat) (p : List Nat) : (c.raiseAt n k t p).regions = c.regions := rfl
@[simp] theorem Chip.raiseAt_blocks (n k t : Nat) (p : List Nat) : (c.raiseAt n k t p).blocks = c.blocks := rfl
@[simp] theorem Chip.raiseAt_groups (n k t : Nat) (p : List Nat) : (c.raiseAt n k t p).groups = c.groups := rfl
@[simp] theorem Chip.raiseAt_streams (n k t : Nat) (p : List Nat) : (c.raiseAt n k t p).streams = c.streams := rfl
@[simp] theorem Chip.raiseAt_apgs (n k t : Nat) (p : List Nat) : (c.raiseAt n k t p).apgs = c.apgs := rfl
@[simp] theorem Chip.raiseAt_logs (n k t : Nat) (p : List Nat) : (c.raiseAt n k t p).logs = c.logs := rfl
@[simp] theorem Chip.raiseAt_clusters (n k t : Nat) (p : List Nat) : (c.raiseAt n k t p).clusters = c.clusters := rfl
@[simp] theorem Chip.raiseAt_ways (n k t : Nat) (p : List Nat) : (c.raiseAt n k t p).ways = c.ways := rfl
@[simp] theorem Chip.raiseAt_marks (n k t : Nat) (p : List Nat) : (c.raiseAt n k t p).marks = c.marks := rfl
@[simp] theorem Chip.raiseAt_free (n k t : Nat) (p : List Nat) : (c.raiseAt n k t p).free = c.free := rfl
@[simp] theorem Chip.raiseAt_dram (n k t : Nat) (p : List Nat) : (c.raiseAt n k t p).dram = c.dram := rfl
@[simp] theorem Chip.raiseAt_juncs (n k t : Nat) (p : List Nat) : (c.raiseAt n k t p).juncs = c.juncs := rfl
@[simp] theorem Chip.raiseAt_rings (n k t : Nat) (p : List Nat) : (c.raiseAt n k t p).rings = c.rings := rfl
@[simp] theorem Chip.raiseAt_dmas (n k t : Nat) (p : List Nat) : (c.raiseAt n k t p).dmas = c.dmas := rfl
@[simp] theorem Chip.raiseAt_host (n k t : Nat) (p : List Nat) : (c.raiseAt n k t p).host = c.host := rfl
@[simp] theorem Chip.raiseAt_router (n k t : Nat) (p : List Nat) : (c.raiseAt n k t p).router = c.router := rfl
@[simp] theorem Chip.raiseAt_pwr (n k t : Nat) (p : List Nat) : (c.raiseAt n k t p).pwr = c.pwr := rfl
@[simp] theorem Chip.raiseAt_trk (n k t : Nat) (p : List Nat) : (c.raiseAt n k t p).trk = c.trk := rfl
@[simp] theorem Chip.raiseAt_hy (n k t : Nat) (p : List Nat) : (c.raiseAt n k t p).hy = c.hy := rfl
@[simp] theorem Chip.raiseAt_cw (n k t : Nat) (p : List Nat) : (c.raiseAt n k t p).cw = c.cw := rfl
@[simp] theorem Chip.raiseAt_sec (n k t : Nat) (p : List Nat) : (c.raiseAt n k t p).sec = c.sec := rfl
@[simp] theorem Chip.raiseAt_cfg (n k t : Nat) (p : List Nat) : (c.raiseAt n k t p).cfg = c.cfg := rfl
@[simp] theorem Chip.raiseAt_sw (n k t : Nat) (p : List Nat) : (c.raiseAt n k t p).sw = c.sw := rfl
@[simp] theorem Chip.raiseAt_bist (n k t : Nat) (p : List Nat) : (c.raiseAt n k t p).bist = c.bist := rfl
@[simp] theorem Chip.raiseAt_od (n k t : Nat) (p : List Nat) : (c.raiseAt n k t p).od = c.od := rfl
@[simp] theorem Chip.raiseAt_dbg (n k t : Nat) (p : List Nat) : (c.raiseAt n k t p).dbg = c.dbg := rfl
@[simp] theorem Chip.raiseAt_csr (n k t : Nat) (p : List Nat) : (c.raiseAt n k t p).csr = c.csr := rfl

@[simp] theorem Chip.setErr_active (f : Fld) : (c.setErr f).active = c.active := rfl
@[simp] theorem Chip.setErr_staged (f : Fld) : (c.setErr f).staged = c.staged := rfl
@[simp] theorem Chip.setErr_out (f : Fld) : (c.setErr f).out = c.out := rfl
@[simp] theorem Chip.setErr_inflight (f : Fld) : (c.setErr f).inflight = c.inflight := rfl
@[simp] theorem Chip.setErr_mp (f : Fld) : (c.setErr f).mp = c.mp := rfl
@[simp] theorem Chip.setErr_lq (f : Fld) : (c.setErr f).lq = c.lq := rfl
@[simp] theorem Chip.setErr_quarters (f : Fld) : (c.setErr f).quarters = c.quarters := rfl
@[simp] theorem Chip.setErr_regions (f : Fld) : (c.setErr f).regions = c.regions := rfl
@[simp] theorem Chip.setErr_blocks (f : Fld) : (c.setErr f).blocks = c.blocks := rfl
@[simp] theorem Chip.setErr_groups (f : Fld) : (c.setErr f).groups = c.groups := rfl
@[simp] theorem Chip.setErr_streams (f : Fld) : (c.setErr f).streams = c.streams := rfl
@[simp] theorem Chip.setErr_apgs (f : Fld) : (c.setErr f).apgs = c.apgs := rfl
@[simp] theorem Chip.setErr_logs (f : Fld) : (c.setErr f).logs = c.logs := rfl
@[simp] theorem Chip.setErr_clusters (f : Fld) : (c.setErr f).clusters = c.clusters := rfl
@[simp] theorem Chip.setErr_ways (f : Fld) : (c.setErr f).ways = c.ways := rfl
@[simp] theorem Chip.setErr_marks (f : Fld) : (c.setErr f).marks = c.marks := rfl
@[simp] theorem Chip.setErr_free (f : Fld) : (c.setErr f).free = c.free := rfl
@[simp] theorem Chip.setErr_dram (f : Fld) : (c.setErr f).dram = c.dram := rfl
@[simp] theorem Chip.setErr_juncs (f : Fld) : (c.setErr f).juncs = c.juncs := rfl
@[simp] theorem Chip.setErr_rings (f : Fld) : (c.setErr f).rings = c.rings := rfl
@[simp] theorem Chip.setErr_dmas (f : Fld) : (c.setErr f).dmas = c.dmas := rfl
@[simp] theorem Chip.setErr_host (f : Fld) : (c.setErr f).host = c.host := rfl
@[simp] theorem Chip.setErr_router (f : Fld) : (c.setErr f).router = c.router := rfl
@[simp] theorem Chip.setErr_pwr (f : Fld) : (c.setErr f).pwr = c.pwr := rfl
@[simp] theorem Chip.setErr_trk (f : Fld) : (c.setErr f).trk = c.trk := rfl
@[simp] theorem Chip.setErr_hy (f : Fld) : (c.setErr f).hy = c.hy := rfl
@[simp] theorem Chip.setErr_cw (f : Fld) : (c.setErr f).cw = c.cw := rfl
@[simp] theorem Chip.setErr_sec (f : Fld) : (c.setErr f).sec = c.sec := rfl
@[simp] theorem Chip.setErr_cfg (f : Fld) : (c.setErr f).cfg = c.cfg := rfl
@[simp] theorem Chip.setErr_sw (f : Fld) : (c.setErr f).sw = c.sw := rfl
@[simp] theorem Chip.setErr_bist (f : Fld) : (c.setErr f).bist = c.bist := rfl
@[simp] theorem Chip.setErr_od (f : Fld) : (c.setErr f).od = c.od := rfl
@[simp] theorem Chip.setErr_dbg (f : Fld) : (c.setErr f).dbg = c.dbg := rfl
@[simp] theorem Chip.setErr_csr (f : Fld) : (c.setErr f).csr = c.csr := rfl

@[simp] theorem Chip.w1c_active (f : Fld) (v : Nat) : (c.w1c f v).active = c.active := rfl
@[simp] theorem Chip.w1c_staged (f : Fld) (v : Nat) : (c.w1c f v).staged = c.staged := rfl
@[simp] theorem Chip.w1c_out (f : Fld) (v : Nat) : (c.w1c f v).out = c.out := rfl
@[simp] theorem Chip.w1c_inflight (f : Fld) (v : Nat) : (c.w1c f v).inflight = c.inflight := rfl
@[simp] theorem Chip.w1c_mp (f : Fld) (v : Nat) : (c.w1c f v).mp = c.mp := rfl
@[simp] theorem Chip.w1c_lq (f : Fld) (v : Nat) : (c.w1c f v).lq = c.lq := rfl
@[simp] theorem Chip.w1c_quarters (f : Fld) (v : Nat) : (c.w1c f v).quarters = c.quarters := rfl
@[simp] theorem Chip.w1c_regions (f : Fld) (v : Nat) : (c.w1c f v).regions = c.regions := rfl
@[simp] theorem Chip.w1c_blocks (f : Fld) (v : Nat) : (c.w1c f v).blocks = c.blocks := rfl
@[simp] theorem Chip.w1c_groups (f : Fld) (v : Nat) : (c.w1c f v).groups = c.groups := rfl
@[simp] theorem Chip.w1c_streams (f : Fld) (v : Nat) : (c.w1c f v).streams = c.streams := rfl
@[simp] theorem Chip.w1c_apgs (f : Fld) (v : Nat) : (c.w1c f v).apgs = c.apgs := rfl
@[simp] theorem Chip.w1c_logs (f : Fld) (v : Nat) : (c.w1c f v).logs = c.logs := rfl
@[simp] theorem Chip.w1c_clusters (f : Fld) (v : Nat) : (c.w1c f v).clusters = c.clusters := rfl
@[simp] theorem Chip.w1c_ways (f : Fld) (v : Nat) : (c.w1c f v).ways = c.ways := rfl
@[simp] theorem Chip.w1c_marks (f : Fld) (v : Nat) : (c.w1c f v).marks = c.marks := rfl
@[simp] theorem Chip.w1c_free (f : Fld) (v : Nat) : (c.w1c f v).free = c.free := rfl
@[simp] theorem Chip.w1c_dram (f : Fld) (v : Nat) : (c.w1c f v).dram = c.dram := rfl
@[simp] theorem Chip.w1c_juncs (f : Fld) (v : Nat) : (c.w1c f v).juncs = c.juncs := rfl
@[simp] theorem Chip.w1c_rings (f : Fld) (v : Nat) : (c.w1c f v).rings = c.rings := rfl
@[simp] theorem Chip.w1c_dmas (f : Fld) (v : Nat) : (c.w1c f v).dmas = c.dmas := rfl
@[simp] theorem Chip.w1c_host (f : Fld) (v : Nat) : (c.w1c f v).host = c.host := rfl
@[simp] theorem Chip.w1c_router (f : Fld) (v : Nat) : (c.w1c f v).router = c.router := rfl
@[simp] theorem Chip.w1c_pwr (f : Fld) (v : Nat) : (c.w1c f v).pwr = c.pwr := rfl
@[simp] theorem Chip.w1c_trk (f : Fld) (v : Nat) : (c.w1c f v).trk = c.trk := rfl
@[simp] theorem Chip.w1c_hy (f : Fld) (v : Nat) : (c.w1c f v).hy = c.hy := rfl
@[simp] theorem Chip.w1c_cw (f : Fld) (v : Nat) : (c.w1c f v).cw = c.cw := rfl
@[simp] theorem Chip.w1c_sec (f : Fld) (v : Nat) : (c.w1c f v).sec = c.sec := rfl
@[simp] theorem Chip.w1c_cfg (f : Fld) (v : Nat) : (c.w1c f v).cfg = c.cfg := rfl
@[simp] theorem Chip.w1c_sw (f : Fld) (v : Nat) : (c.w1c f v).sw = c.sw := rfl
@[simp] theorem Chip.w1c_bist (f : Fld) (v : Nat) : (c.w1c f v).bist = c.bist := rfl
@[simp] theorem Chip.w1c_od (f : Fld) (v : Nat) : (c.w1c f v).od = c.od := rfl
@[simp] theorem Chip.w1c_dbg (f : Fld) (v : Nat) : (c.w1c f v).dbg = c.dbg := rfl
@[simp] theorem Chip.w1c_csr (f : Fld) (v : Nat) : (c.w1c f v).csr = c.csr := rfl

@[simp] theorem Chip.w1s_active (f : Fld) (v : Nat) : (c.w1s f v).active = c.active := rfl
@[simp] theorem Chip.w1s_staged (f : Fld) (v : Nat) : (c.w1s f v).staged = c.staged := rfl
@[simp] theorem Chip.w1s_out (f : Fld) (v : Nat) : (c.w1s f v).out = c.out := rfl
@[simp] theorem Chip.w1s_inflight (f : Fld) (v : Nat) : (c.w1s f v).inflight = c.inflight := rfl
@[simp] theorem Chip.w1s_mp (f : Fld) (v : Nat) : (c.w1s f v).mp = c.mp := rfl
@[simp] theorem Chip.w1s_lq (f : Fld) (v : Nat) : (c.w1s f v).lq = c.lq := rfl
@[simp] theorem Chip.w1s_quarters (f : Fld) (v : Nat) : (c.w1s f v).quarters = c.quarters := rfl
@[simp] theorem Chip.w1s_regions (f : Fld) (v : Nat) : (c.w1s f v).regions = c.regions := rfl
@[simp] theorem Chip.w1s_blocks (f : Fld) (v : Nat) : (c.w1s f v).blocks = c.blocks := rfl
@[simp] theorem Chip.w1s_groups (f : Fld) (v : Nat) : (c.w1s f v).groups = c.groups := rfl
@[simp] theorem Chip.w1s_streams (f : Fld) (v : Nat) : (c.w1s f v).streams = c.streams := rfl
@[simp] theorem Chip.w1s_apgs (f : Fld) (v : Nat) : (c.w1s f v).apgs = c.apgs := rfl
@[simp] theorem Chip.w1s_logs (f : Fld) (v : Nat) : (c.w1s f v).logs = c.logs := rfl
@[simp] theorem Chip.w1s_clusters (f : Fld) (v : Nat) : (c.w1s f v).clusters = c.clusters := rfl
@[simp] theorem Chip.w1s_ways (f : Fld) (v : Nat) : (c.w1s f v).ways = c.ways := rfl
@[simp] theorem Chip.w1s_marks (f : Fld) (v : Nat) : (c.w1s f v).marks = c.marks := rfl
@[simp] theorem Chip.w1s_free (f : Fld) (v : Nat) : (c.w1s f v).free = c.free := rfl
@[simp] theorem Chip.w1s_dram (f : Fld) (v : Nat) : (c.w1s f v).dram = c.dram := rfl
@[simp] theorem Chip.w1s_juncs (f : Fld) (v : Nat) : (c.w1s f v).juncs = c.juncs := rfl
@[simp] theorem Chip.w1s_rings (f : Fld) (v : Nat) : (c.w1s f v).rings = c.rings := rfl
@[simp] theorem Chip.w1s_dmas (f : Fld) (v : Nat) : (c.w1s f v).dmas = c.dmas := rfl
@[simp] theorem Chip.w1s_host (f : Fld) (v : Nat) : (c.w1s f v).host = c.host := rfl
@[simp] theorem Chip.w1s_router (f : Fld) (v : Nat) : (c.w1s f v).router = c.router := rfl
@[simp] theorem Chip.w1s_pwr (f : Fld) (v : Nat) : (c.w1s f v).pwr = c.pwr := rfl
@[simp] theorem Chip.w1s_trk (f : Fld) (v : Nat) : (c.w1s f v).trk = c.trk := rfl
@[simp] theorem Chip.w1s_hy (f : Fld) (v : Nat) : (c.w1s f v).hy = c.hy := rfl
@[simp] theorem Chip.w1s_cw (f : Fld) (v : Nat) : (c.w1s f v).cw = c.cw := rfl
@[simp] theorem Chip.w1s_sec (f : Fld) (v : Nat) : (c.w1s f v).sec = c.sec := rfl
@[simp] theorem Chip.w1s_cfg (f : Fld) (v : Nat) : (c.w1s f v).cfg = c.cfg := rfl
@[simp] theorem Chip.w1s_sw (f : Fld) (v : Nat) : (c.w1s f v).sw = c.sw := rfl
@[simp] theorem Chip.w1s_bist (f : Fld) (v : Nat) : (c.w1s f v).bist = c.bist := rfl
@[simp] theorem Chip.w1s_od (f : Fld) (v : Nat) : (c.w1s f v).od = c.od := rfl
@[simp] theorem Chip.w1s_dbg (f : Fld) (v : Nat) : (c.w1s f v).dbg = c.dbg := rfl
@[simp] theorem Chip.w1s_csr (f : Fld) (v : Nat) : (c.w1s f v).csr = c.csr := rfl

@[simp] theorem Chip.readClear_active (f : Fld) : (c.readClear f).active = c.active := rfl
@[simp] theorem Chip.readClear_staged (f : Fld) : (c.readClear f).staged = c.staged := rfl
@[simp] theorem Chip.readClear_out (f : Fld) : (c.readClear f).out = c.out := rfl
@[simp] theorem Chip.readClear_inflight (f : Fld) : (c.readClear f).inflight = c.inflight := rfl
@[simp] theorem Chip.readClear_mp (f : Fld) : (c.readClear f).mp = c.mp := rfl
@[simp] theorem Chip.readClear_lq (f : Fld) : (c.readClear f).lq = c.lq := rfl
@[simp] theorem Chip.readClear_quarters (f : Fld) : (c.readClear f).quarters = c.quarters := rfl
@[simp] theorem Chip.readClear_regions (f : Fld) : (c.readClear f).regions = c.regions := rfl
@[simp] theorem Chip.readClear_blocks (f : Fld) : (c.readClear f).blocks = c.blocks := rfl
@[simp] theorem Chip.readClear_groups (f : Fld) : (c.readClear f).groups = c.groups := rfl
@[simp] theorem Chip.readClear_streams (f : Fld) : (c.readClear f).streams = c.streams := rfl
@[simp] theorem Chip.readClear_apgs (f : Fld) : (c.readClear f).apgs = c.apgs := rfl
@[simp] theorem Chip.readClear_logs (f : Fld) : (c.readClear f).logs = c.logs := rfl
@[simp] theorem Chip.readClear_clusters (f : Fld) : (c.readClear f).clusters = c.clusters := rfl
@[simp] theorem Chip.readClear_ways (f : Fld) : (c.readClear f).ways = c.ways := rfl
@[simp] theorem Chip.readClear_marks (f : Fld) : (c.readClear f).marks = c.marks := rfl
@[simp] theorem Chip.readClear_free (f : Fld) : (c.readClear f).free = c.free := rfl
@[simp] theorem Chip.readClear_dram (f : Fld) : (c.readClear f).dram = c.dram := rfl
@[simp] theorem Chip.readClear_juncs (f : Fld) : (c.readClear f).juncs = c.juncs := rfl
@[simp] theorem Chip.readClear_rings (f : Fld) : (c.readClear f).rings = c.rings := rfl
@[simp] theorem Chip.readClear_dmas (f : Fld) : (c.readClear f).dmas = c.dmas := rfl
@[simp] theorem Chip.readClear_host (f : Fld) : (c.readClear f).host = c.host := rfl
@[simp] theorem Chip.readClear_router (f : Fld) : (c.readClear f).router = c.router := rfl
@[simp] theorem Chip.readClear_pwr (f : Fld) : (c.readClear f).pwr = c.pwr := rfl
@[simp] theorem Chip.readClear_trk (f : Fld) : (c.readClear f).trk = c.trk := rfl
@[simp] theorem Chip.readClear_hy (f : Fld) : (c.readClear f).hy = c.hy := rfl
@[simp] theorem Chip.readClear_cw (f : Fld) : (c.readClear f).cw = c.cw := rfl
@[simp] theorem Chip.readClear_sec (f : Fld) : (c.readClear f).sec = c.sec := rfl
@[simp] theorem Chip.readClear_cfg (f : Fld) : (c.readClear f).cfg = c.cfg := rfl
@[simp] theorem Chip.readClear_sw (f : Fld) : (c.readClear f).sw = c.sw := rfl
@[simp] theorem Chip.readClear_bist (f : Fld) : (c.readClear f).bist = c.bist := rfl
@[simp] theorem Chip.readClear_od (f : Fld) : (c.readClear f).od = c.od := rfl
@[simp] theorem Chip.readClear_dbg (f : Fld) : (c.readClear f).dbg = c.dbg := rfl
@[simp] theorem Chip.readClear_csr (f : Fld) : (c.readClear f).csr = c.csr := rfl

@[simp] theorem Chip.hold_regs (a v : Nat) : (c.hold a v).regs = c.regs := rfl
@[simp] theorem Chip.hold_active (a v : Nat) : (c.hold a v).active = c.active := rfl
@[simp] theorem Chip.hold_staged (a v : Nat) : (c.hold a v).staged = c.staged := rfl
@[simp] theorem Chip.hold_out (a v : Nat) : (c.hold a v).out = c.out := rfl
@[simp] theorem Chip.hold_inflight (a v : Nat) : (c.hold a v).inflight = c.inflight := rfl
@[simp] theorem Chip.hold_mp (a v : Nat) : (c.hold a v).mp = c.mp := rfl
@[simp] theorem Chip.hold_lq (a v : Nat) : (c.hold a v).lq = c.lq := rfl
@[simp] theorem Chip.hold_quarters (a v : Nat) : (c.hold a v).quarters = c.quarters := rfl
@[simp] theorem Chip.hold_regions (a v : Nat) : (c.hold a v).regions = c.regions := rfl
@[simp] theorem Chip.hold_blocks (a v : Nat) : (c.hold a v).blocks = c.blocks := rfl
@[simp] theorem Chip.hold_groups (a v : Nat) : (c.hold a v).groups = c.groups := rfl
@[simp] theorem Chip.hold_streams (a v : Nat) : (c.hold a v).streams = c.streams := rfl
@[simp] theorem Chip.hold_apgs (a v : Nat) : (c.hold a v).apgs = c.apgs := rfl
@[simp] theorem Chip.hold_logs (a v : Nat) : (c.hold a v).logs = c.logs := rfl
@[simp] theorem Chip.hold_clusters (a v : Nat) : (c.hold a v).clusters = c.clusters := rfl
@[simp] theorem Chip.hold_ways (a v : Nat) : (c.hold a v).ways = c.ways := rfl
@[simp] theorem Chip.hold_marks (a v : Nat) : (c.hold a v).marks = c.marks := rfl
@[simp] theorem Chip.hold_free (a v : Nat) : (c.hold a v).free = c.free := rfl
@[simp] theorem Chip.hold_dram (a v : Nat) : (c.hold a v).dram = c.dram := rfl
@[simp] theorem Chip.hold_juncs (a v : Nat) : (c.hold a v).juncs = c.juncs := rfl
@[simp] theorem Chip.hold_rings (a v : Nat) : (c.hold a v).rings = c.rings := rfl
@[simp] theorem Chip.hold_dmas (a v : Nat) : (c.hold a v).dmas = c.dmas := rfl
@[simp] theorem Chip.hold_host (a v : Nat) : (c.hold a v).host = c.host := rfl
@[simp] theorem Chip.hold_router (a v : Nat) : (c.hold a v).router = c.router := rfl
@[simp] theorem Chip.hold_pwr (a v : Nat) : (c.hold a v).pwr = c.pwr := rfl
@[simp] theorem Chip.hold_trk (a v : Nat) : (c.hold a v).trk = c.trk := rfl
@[simp] theorem Chip.hold_hy (a v : Nat) : (c.hold a v).hy = c.hy := rfl
@[simp] theorem Chip.hold_cw (a v : Nat) : (c.hold a v).cw = c.cw := rfl
@[simp] theorem Chip.hold_sec (a v : Nat) : (c.hold a v).sec = c.sec := rfl
@[simp] theorem Chip.hold_cfg (a v : Nat) : (c.hold a v).cfg = c.cfg := rfl
@[simp] theorem Chip.hold_sw (a v : Nat) : (c.hold a v).sw = c.sw := rfl
@[simp] theorem Chip.hold_bist (a v : Nat) : (c.hold a v).bist = c.bist := rfl
@[simp] theorem Chip.hold_od (a v : Nat) : (c.hold a v).od = c.od := rfl
@[simp] theorem Chip.hold_dbg (a v : Nat) : (c.hold a v).dbg = c.dbg := rfl

@[simp] theorem Chip.resetRange_active (a b : Nat) : (c.resetRange a b).active = c.active := rfl
@[simp] theorem Chip.resetRange_staged (a b : Nat) : (c.resetRange a b).staged = c.staged := rfl
@[simp] theorem Chip.resetRange_out (a b : Nat) : (c.resetRange a b).out = c.out := rfl
@[simp] theorem Chip.resetRange_inflight (a b : Nat) : (c.resetRange a b).inflight = c.inflight := rfl
@[simp] theorem Chip.resetRange_mp (a b : Nat) : (c.resetRange a b).mp = c.mp := rfl
@[simp] theorem Chip.resetRange_lq (a b : Nat) : (c.resetRange a b).lq = c.lq := rfl
@[simp] theorem Chip.resetRange_quarters (a b : Nat) : (c.resetRange a b).quarters = c.quarters := rfl
@[simp] theorem Chip.resetRange_regions (a b : Nat) : (c.resetRange a b).regions = c.regions := rfl
@[simp] theorem Chip.resetRange_blocks (a b : Nat) : (c.resetRange a b).blocks = c.blocks := rfl
@[simp] theorem Chip.resetRange_groups (a b : Nat) : (c.resetRange a b).groups = c.groups := rfl
@[simp] theorem Chip.resetRange_streams (a b : Nat) : (c.resetRange a b).streams = c.streams := rfl
@[simp] theorem Chip.resetRange_apgs (a b : Nat) : (c.resetRange a b).apgs = c.apgs := rfl
@[simp] theorem Chip.resetRange_logs (a b : Nat) : (c.resetRange a b).logs = c.logs := rfl
@[simp] theorem Chip.resetRange_clusters (a b : Nat) : (c.resetRange a b).clusters = c.clusters := rfl
@[simp] theorem Chip.resetRange_ways (a b : Nat) : (c.resetRange a b).ways = c.ways := rfl
@[simp] theorem Chip.resetRange_marks (a b : Nat) : (c.resetRange a b).marks = c.marks := rfl
@[simp] theorem Chip.resetRange_free (a b : Nat) : (c.resetRange a b).free = c.free := rfl
@[simp] theorem Chip.resetRange_dram (a b : Nat) : (c.resetRange a b).dram = c.dram := rfl
@[simp] theorem Chip.resetRange_juncs (a b : Nat) : (c.resetRange a b).juncs = c.juncs := rfl
@[simp] theorem Chip.resetRange_rings (a b : Nat) : (c.resetRange a b).rings = c.rings := rfl
@[simp] theorem Chip.resetRange_dmas (a b : Nat) : (c.resetRange a b).dmas = c.dmas := rfl
@[simp] theorem Chip.resetRange_host (a b : Nat) : (c.resetRange a b).host = c.host := rfl
@[simp] theorem Chip.resetRange_router (a b : Nat) : (c.resetRange a b).router = c.router := rfl
@[simp] theorem Chip.resetRange_pwr (a b : Nat) : (c.resetRange a b).pwr = c.pwr := rfl
@[simp] theorem Chip.resetRange_trk (a b : Nat) : (c.resetRange a b).trk = c.trk := rfl
@[simp] theorem Chip.resetRange_hy (a b : Nat) : (c.resetRange a b).hy = c.hy := rfl
@[simp] theorem Chip.resetRange_cw (a b : Nat) : (c.resetRange a b).cw = c.cw := rfl
@[simp] theorem Chip.resetRange_sec (a b : Nat) : (c.resetRange a b).sec = c.sec := rfl
@[simp] theorem Chip.resetRange_cfg (a b : Nat) : (c.resetRange a b).cfg = c.cfg := rfl
@[simp] theorem Chip.resetRange_sw (a b : Nat) : (c.resetRange a b).sw = c.sw := rfl
@[simp] theorem Chip.resetRange_bist (a b : Nat) : (c.resetRange a b).bist = c.bist := rfl
@[simp] theorem Chip.resetRange_od (a b : Nat) : (c.resetRange a b).od = c.od := rfl
@[simp] theorem Chip.resetRange_dbg (a b : Nat) : (c.resetRange a b).dbg = c.dbg := rfl
@[simp] theorem Chip.resetRange_csr (a b : Nat) : (c.resetRange a b).csr = c.csr := rfl

@[simp] theorem Chip.stir_regs (q : Nat) : (c.stir q).regs = c.regs := rfl
@[simp] theorem Chip.stir_active (q : Nat) : (c.stir q).active = c.active := rfl
@[simp] theorem Chip.stir_staged (q : Nat) : (c.stir q).staged = c.staged := rfl
@[simp] theorem Chip.stir_out (q : Nat) : (c.stir q).out = c.out := rfl
@[simp] theorem Chip.stir_inflight (q : Nat) : (c.stir q).inflight = c.inflight := rfl
@[simp] theorem Chip.stir_mp (q : Nat) : (c.stir q).mp = c.mp := rfl
@[simp] theorem Chip.stir_lq (q : Nat) : (c.stir q).lq = c.lq := rfl
@[simp] theorem Chip.stir_quarters (q : Nat) : (c.stir q).quarters = c.quarters := rfl
@[simp] theorem Chip.stir_regions (q : Nat) : (c.stir q).regions = c.regions := rfl
@[simp] theorem Chip.stir_blocks (q : Nat) : (c.stir q).blocks = c.blocks := rfl
@[simp] theorem Chip.stir_groups (q : Nat) : (c.stir q).groups = c.groups := rfl
@[simp] theorem Chip.stir_streams (q : Nat) : (c.stir q).streams = c.streams := rfl
@[simp] theorem Chip.stir_apgs (q : Nat) : (c.stir q).apgs = c.apgs := rfl
@[simp] theorem Chip.stir_logs (q : Nat) : (c.stir q).logs = c.logs := rfl
@[simp] theorem Chip.stir_clusters (q : Nat) : (c.stir q).clusters = c.clusters := rfl
@[simp] theorem Chip.stir_ways (q : Nat) : (c.stir q).ways = c.ways := rfl
@[simp] theorem Chip.stir_marks (q : Nat) : (c.stir q).marks = c.marks := rfl
@[simp] theorem Chip.stir_free (q : Nat) : (c.stir q).free = c.free := rfl
@[simp] theorem Chip.stir_dram (q : Nat) : (c.stir q).dram = c.dram := rfl
@[simp] theorem Chip.stir_juncs (q : Nat) : (c.stir q).juncs = c.juncs := rfl
@[simp] theorem Chip.stir_rings (q : Nat) : (c.stir q).rings = c.rings := rfl
@[simp] theorem Chip.stir_dmas (q : Nat) : (c.stir q).dmas = c.dmas := rfl
@[simp] theorem Chip.stir_host (q : Nat) : (c.stir q).host = c.host := rfl
@[simp] theorem Chip.stir_router (q : Nat) : (c.stir q).router = c.router := rfl
@[simp] theorem Chip.stir_trk (q : Nat) : (c.stir q).trk = c.trk := rfl
@[simp] theorem Chip.stir_hy (q : Nat) : (c.stir q).hy = c.hy := rfl
@[simp] theorem Chip.stir_cw (q : Nat) : (c.stir q).cw = c.cw := rfl
@[simp] theorem Chip.stir_sec (q : Nat) : (c.stir q).sec = c.sec := rfl
@[simp] theorem Chip.stir_cfg (q : Nat) : (c.stir q).cfg = c.cfg := rfl
@[simp] theorem Chip.stir_sw (q : Nat) : (c.stir q).sw = c.sw := rfl
@[simp] theorem Chip.stir_bist (q : Nat) : (c.stir q).bist = c.bist := rfl
@[simp] theorem Chip.stir_od (q : Nat) : (c.stir q).od = c.od := rfl
@[simp] theorem Chip.stir_dbg (q : Nat) : (c.stir q).dbg = c.dbg := rfl
@[simp] theorem Chip.stir_csr (q : Nat) : (c.stir q).csr = c.csr := rfl

end Sys2Proof.Machine
end

