-- ==== Sys2Proof/Laws/Regs.lean ====
section
/-! SUPPORT. Laws of the register file: a field read after a field is set, after events and outputs, and a memory line of what the
named operations on error bits do. -/

namespace Sys2Proof.Machine

variable (c : Chip) (f g : Fld)

/-- A field read after it is set: the bits it has of the value. -/
@[simp] theorem Chip.fld_put_same (v : Nat) : (c.put f v).fld f = v % 2 ^ f.width := by
  simp [Chip.fld, Chip.put]
/-- A field read after another is set. -/
theorem Chip.fld_put_other (v : Nat) (h : g.key ≠ f.key) : (c.put f v).fld g = c.fld g := by
  simp [Chip.fld, Chip.put, Tab.get_set_other _ _ _ _ _ _ h]
theorem Chip.fld_lt : c.fld f < 2 ^ f.width := Nat.mod_lt _ (Nat.two_pow_pos _)

@[simp] theorem Chip.fld_emit (o : Out) : (c.emit o).fld f = c.fld f := rfl
@[simp] theorem Chip.fld_raise (n k : Nat) (p : List Nat) : (c.raise n k p).fld f = c.fld f := rfl
@[simp] theorem Chip.fld_raiseAt (n k t : Nat) (p : List Nat) : (c.raiseAt n k t p).fld f = c.fld f := rfl
@[simp] theorem Chip.fld_putAct (v : Nat) : (c.putAct g v).fld f = c.fld f := rfl
@[simp] theorem Chip.fld_putStg (v : Nat) : (c.putStg g v).fld f = c.fld f := rfl
@[simp] theorem Chip.fld_hold (a v : Nat) : (c.hold a v).fld f = c.fld f := rfl

@[simp] theorem Chip.act_putAct_same (v : Nat) : (c.putAct f v).act f = v % 2 ^ f.width := by simp [Chip.act, Chip.putAct]
@[simp] theorem Chip.stg_putStg_same (v : Nat) : (c.putStg f v).stg f = v % 2 ^ f.width := by simp [Chip.stg, Chip.putStg]

@[simp] theorem Chip.flag_put_same (v : Nat) : (c.put f v).flag f = decide (v % 2 ^ f.width = 1) := by simp [Chip.flag]
theorem Chip.flag_put_other (v : Nat) (h : g.key ≠ f.key) : (c.put f v).flag g = c.flag g := by
  simp [Chip.flag, Chip.fld_put_other c f g v h]

/-- A count up saturates at the field's greatest value. -/
theorem Chip.fld_incSat_same : (c.incSat f).fld f = min (c.fld f + 1) (2 ^ f.width - 1) := by
  have := Nat.two_pow_pos f.width
  simp only [Chip.incSat, Chip.addSat, Chip.fld_put_same, satN]
  exact Nat.mod_eq_of_lt (by omega)
theorem Chip.fld_incSat_other (h : g.key ≠ f.key) : (c.incSat f).fld g = c.fld g := Chip.fld_put_other c f g _ h

/-- An error bit with its event: an already set bit changes nothing. -/
theorem Chip.errEvt_set (n k : Nat) (p : List Nat) (h : c.flag f = true) : c.errEvt f n k p = c := by simp [Chip.errEvt, h]
/-- An error bit with its event: a clear bit is set, and the event is under way. -/
theorem Chip.errEvt_clear (n k : Nat) (p : List Nat) (h : c.flag f = false) :
    c.errEvt f n k p = (c.put f 1).raise n k p := by simp [Chip.errEvt, h]
/-- The bit is set afterwards either way. -/
theorem Chip.flag_errEvt (n k : Nat) (p : List Nat) (h : 0 < f.width) : (c.errEvt f n k p).flag f = true := by
  unfold Chip.errEvt
  split
  · assumption
  · have : 1 < 2 ^ f.width := Nat.one_lt_two_pow (by omega)
    simp [Chip.flag, Nat.mod_eq_of_lt this]

theorem Chip.doIf_true (h : Chip → Chip) : c.doIf true h = h c := rfl
theorem Chip.doIf_false (h : Chip → Chip) : c.doIf false h = c := rfl

end Sys2Proof.Machine
end

