-- ==== Sys2Proof/Laws/Units.lean ====
section
/-! SUPPORT. Laws of the tables of units: a unit read after it or another is replaced, what replacing one leaves of the registers, and
the invariant of a walk over a list. -/

namespace Sys2Proof.Machine

variable (c : Chip)

/-- A property that every turn of a walk keeps holds at its end. -/
theorem Chip.each_inv {α : Type} (p : Chip → Prop) (f : Chip → α → Chip) (h : ∀ c a, p c → p (f c a)) (l : List α) :
    ∀ c : Chip, p c → p (c.each l f) := by
  induction l with
  | nil => exact fun _ hc => hc
  | cons a l ih => exact fun c hc => ih _ (h c a hc)
/-- The same of a walk over the machine. -/
theorem State.each_inv {α : Type} (p : State → Prop) (f : State → α → State) (h : ∀ s a, p s → p (f s a)) (l : List α) :
    ∀ s : State, p s → p (s.each l f) := by
  induction l with
  | nil => exact fun _ hs => hs
  | cons a l ih => exact fun s hs => ih _ (h s a hs)
@[simp] theorem Chip.each_nil {α : Type} (f : Chip → α → Chip) : c.each [] f = c := rfl
theorem Chip.each_cons {α : Type} (a : α) (l : List α) (f : Chip → α → Chip) : c.each (a :: l) f = (f c a).each l f := rfl
theorem Chip.each_append {α : Type} (l m : List α) (f : Chip → α → Chip) : c.each (l ++ m) f = (c.each l f).each m f :=
  List.foldl_append

@[simp] theorem Chip.group_setGroup_same (g : Nat) (x : PinGroup) : (c.setGroup g x).group g = x := by simp [Chip.group, Chip.setGroup]
theorem Chip.group_setGroup_other (g k : Nat) (x : PinGroup) (h : k ≠ g) : (c.setGroup g x).group k = c.group k := by
  simp [Chip.group, Chip.setGroup, Tab.get_set_other _ _ _ _ _ _ h]
@[simp] theorem Chip.fld_setGroup (g : Nat) (x : PinGroup) (f : Fld) : (c.setGroup g x).fld f = c.fld f := rfl
@[simp] theorem Chip.region_setRegion_same (r : Nat) (x : Region) : (c.setRegion r x).region r = x := by simp [Chip.region, Chip.setRegion]
theorem Chip.region_setRegion_other (r k : Nat) (x : Region) (h : k ≠ r) : (c.setRegion r x).region k = c.region k := by
  simp [Chip.region, Chip.setRegion, Tab.get_set_other _ _ _ _ _ _ h]
@[simp] theorem Chip.fld_setRegion (r : Nat) (x : Region) (f : Fld) : (c.setRegion r x).fld f = c.fld f := rfl
@[simp] theorem Chip.str_setStr_same (n : Nat) (x : Streamer) : (c.setStr n x).str n = x := by simp [Chip.str, Chip.setStr]
theorem Chip.str_setStr_other (n k : Nat) (x : Streamer) (h : k ≠ n) : (c.setStr n x).str k = c.str k := by
  simp [Chip.str, Chip.setStr, Tab.get_set_other _ _ _ _ _ _ h]
@[simp] theorem Chip.fld_setStr (n : Nat) (x : Streamer) (f : Fld) : (c.setStr n x).fld f = c.fld f := rfl
@[simp] theorem Chip.log_setLog_same (q : Nat) (x : FailLog) : (c.setLog q x).log q = x := by simp [Chip.log, Chip.setLog]
theorem Chip.log_setLog_other (q k : Nat) (x : FailLog) (h : k ≠ q) : (c.setLog q x).log k = c.log k := by
  simp [Chip.log, Chip.setLog, Tab.get_set_other _ _ _ _ _ _ h]
@[simp] theorem Chip.fld_setLog (q : Nat) (x : FailLog) (f : Fld) : (c.setLog q x).fld f = c.fld f := rfl
@[simp] theorem Chip.cl_setCl_same (j : Nat) (x : Cluster) : (c.setCl j x).cl j = x := by simp [Chip.cl, Chip.setCl]
theorem Chip.cl_setCl_other (j k : Nat) (x : Cluster) (h : k ≠ j) : (c.setCl j x).cl k = c.cl k := by
  simp [Chip.cl, Chip.setCl, Tab.get_set_other _ _ _ _ _ _ h]
@[simp] theorem Chip.fld_setCl (j : Nat) (x : Cluster) (f : Fld) : (c.setCl j x).fld f = c.fld f := rfl
@[simp] theorem Chip.block_setBlock_same (b : Nat) (x : BmBlock) : (c.setBlock b x).block b = x := by simp [Chip.block, Chip.setBlock]
theorem Chip.block_setBlock_other (b k : Nat) (x : BmBlock) (h : k ≠ b) : (c.setBlock b x).block k = c.block k := by
  simp [Chip.block, Chip.setBlock, Tab.get_set_other _ _ _ _ _ _ h]
@[simp] theorem Chip.fld_setBlock (b : Nat) (x : BmBlock) (f : Fld) : (c.setBlock b x).fld f = c.fld f := rfl
@[simp] theorem Chip.port_setPort_same (u : Nat) (x : TrkPort) : (c.setPort u x).port u = x := by simp [Chip.port, Chip.setPort]
theorem Chip.port_setPort_other (u k : Nat) (x : TrkPort) (h : k ≠ u) : (c.setPort u x).port k = c.port k := by
  simp [Chip.port, Chip.setPort, Tab.get_set_other _ _ _ _ _ _ h]
@[simp] theorem Chip.fld_setPort (u : Nat) (x : TrkPort) (f : Fld) : (c.setPort u x).fld f = c.fld f := rfl
@[simp] theorem Chip.way_setWay_same (n : Nat) (x : Waystation) : (c.setWay n x).way n = x := by simp [Chip.way, Chip.setWay]
theorem Chip.way_setWay_other (n k : Nat) (x : Waystation) (h : k ≠ n) : (c.setWay n x).way k = c.way k := by
  simp [Chip.way, Chip.setWay, Tab.get_set_other _ _ _ _ _ _ h]
@[simp] theorem Chip.fld_setWay (n : Nat) (x : Waystation) (f : Fld) : (c.setWay n x).fld f = c.fld f := rfl
@[simp] theorem Chip.region_onRegion_same (r : Nat) (f : Region → Region) : (c.onRegion r f).region r = f (c.region r) := by
  simp [Chip.region, Chip.onRegion, Chip.setRegion]
@[simp] theorem Chip.fld_onRegion (r : Nat) (f : Region → Region) (y : Fld) : (c.onRegion r f).fld y = c.fld y := rfl
@[simp] theorem Chip.now_onRegion (r : Nat) (f : Region → Region) : (c.onRegion r f).now = c.now := rfl
@[simp] theorem Chip.str_onStr_same (n : Nat) (f : Streamer → Streamer) : (c.onStr n f).str n = f (c.str n) := by
  simp [Chip.str, Chip.onStr, Chip.setStr]
@[simp] theorem Chip.fld_onStr (n : Nat) (f : Streamer → Streamer) (y : Fld) : (c.onStr n f).fld y = c.fld y := rfl
@[simp] theorem Chip.now_onStr (n : Nat) (f : Streamer → Streamer) : (c.onStr n f).now = c.now := rfl
@[simp] theorem Chip.log_onLog_same (q : Nat) (f : FailLog → FailLog) : (c.onLog q f).log q = f (c.log q) := by
  simp [Chip.log, Chip.onLog, Chip.setLog]
@[simp] theorem Chip.fld_onLog (q : Nat) (f : FailLog → FailLog) (y : Fld) : (c.onLog q f).fld y = c.fld y := rfl
@[simp] theorem Chip.now_onLog (q : Nat) (f : FailLog → FailLog) : (c.onLog q f).now = c.now := rfl
@[simp] theorem Chip.cl_onCl_same (j : Nat) (f : Cluster → Cluster) : (c.onCl j f).cl j = f (c.cl j) := by
  simp [Chip.cl, Chip.onCl, Chip.setCl]
@[simp] theorem Chip.fld_onCl (j : Nat) (f : Cluster → Cluster) (y : Fld) : (c.onCl j f).fld y = c.fld y := rfl
@[simp] theorem Chip.now_onCl (j : Nat) (f : Cluster → Cluster) : (c.onCl j f).now = c.now := rfl
@[simp] theorem Chip.port_onPort_same (u : Nat) (f : TrkPort → TrkPort) : (c.onPort u f).port u = f (c.port u) := by
  simp [Chip.port, Chip.onPort, Chip.setPort]
@[simp] theorem Chip.fld_onPort (u : Nat) (f : TrkPort → TrkPort) (y : Fld) : (c.onPort u f).fld y = c.fld y := rfl
@[simp] theorem Chip.now_onPort (u : Nat) (f : TrkPort → TrkPort) : (c.onPort u f).now = c.now := rfl
@[simp] theorem Chip.quarter_onQuarter_same (q : Nat) (f : Quarter → Quarter) : (c.onQuarter q f).quarter q = f (c.quarter q) := by
  simp [Chip.quarter, Chip.onQuarter]
@[simp] theorem Chip.fld_onQuarter (q : Nat) (f : Quarter → Quarter) (y : Fld) : (c.onQuarter q f).fld y = c.fld y := rfl
@[simp] theorem Chip.now_onQuarter (q : Nat) (f : Quarter → Quarter) : (c.onQuarter q f).now = c.now := rfl
@[simp] theorem Chip.ctl_onCtl_same (k : Nat) (f : DCtl → DCtl) : (c.onCtl k f).ctl k = f (c.ctl k) := by
  simp [Chip.ctl, Chip.onCtl, Chip.onDram]
@[simp] theorem Chip.fld_onCtl (k : Nat) (f : DCtl → DCtl) (y : Fld) : (c.onCtl k f).fld y = c.fld y := rfl
@[simp] theorem Chip.now_onCtl (k : Nat) (f : DCtl → DCtl) : (c.onCtl k f).now = c.now := rfl
@[simp] theorem Chip.prange_onPrange_same (n : Nat) (f : PRange → PRange) : (c.onPrange n f).prange n = f (c.prange n) := by
  simp [Chip.prange, Chip.onPrange, Chip.onDram]
@[simp] theorem Chip.fld_onPrange (n : Nat) (f : PRange → PRange) (y : Fld) : (c.onPrange n f).fld y = c.fld y := rfl
@[simp] theorem Chip.now_onPrange (n : Nat) (f : PRange → PRange) : (c.onPrange n f).now = c.now := rfl
@[simp] theorem Chip.ring_onRing_same (r : Nat) (f : Ring → Ring) : (c.onRing r f).ring r = f (c.ring r) := by
  simp [Chip.ring, Chip.onRing]
@[simp] theorem Chip.fld_onRing (r : Nat) (f : Ring → Ring) (y : Fld) : (c.onRing r f).fld y = c.fld y := rfl
@[simp] theorem Chip.now_onRing (r : Nat) (f : Ring → Ring) : (c.onRing r f).now = c.now := rfl
@[simp] theorem Chip.dma_onDma_same (n : Nat) (f : DmaCh → DmaCh) : (c.onDma n f).dma n = f (c.dma n) := by
  simp [Chip.dma, Chip.onDma]
@[simp] theorem Chip.fld_onDma (n : Nat) (f : DmaCh → DmaCh) (y : Fld) : (c.onDma n f).fld y = c.fld y := rfl
@[simp] theorem Chip.now_onDma (n : Nat) (f : DmaCh → DmaCh) : (c.onDma n f).now = c.now := rfl
@[simp] theorem Chip.junc_onJunc_same (j : Nat) (f : Junction → Junction) : (c.onJunc j f).junc j = f (c.junc j) := by
  simp [Chip.junc, Chip.onJunc]
@[simp] theorem Chip.fld_onJunc (j : Nat) (f : Junction → Junction) (y : Fld) : (c.onJunc j f).fld y = c.fld y := rfl
@[simp] theorem Chip.now_onJunc (j : Nat) (f : Junction → Junction) : (c.onJunc j f).now = c.now := rfl
@[simp] theorem Chip.onCw_cw (f : Causeway → Causeway) : (c.onCw f).cw = f c.cw := rfl
@[simp] theorem Chip.fld_onCw (f : Causeway → Causeway) (y : Fld) : (c.onCw f).fld y = c.fld y := rfl
@[simp] theorem Chip.now_onCw (f : Causeway → Causeway) : (c.onCw f).now = c.now := rfl
@[simp] theorem Chip.onDbg_dbg (f : Debug → Debug) : (c.onDbg f).dbg = f c.dbg := rfl
@[simp] theorem Chip.fld_onDbg (f : Debug → Debug) (y : Fld) : (c.onDbg f).fld y = c.fld y := rfl
@[simp] theorem Chip.now_onDbg (f : Debug → Debug) : (c.onDbg f).now = c.now := rfl
@[simp] theorem Chip.onHy_hy (f : Hier → Hier) : (c.onHy f).hy = f c.hy := rfl
@[simp] theorem Chip.fld_onHy (f : Hier → Hier) (y : Fld) : (c.onHy f).fld y = c.fld y := rfl
@[simp] theorem Chip.now_onHy (f : Hier → Hier) : (c.onHy f).now = c.now := rfl
@[simp] theorem Chip.onRouter_router (f : Router → Router) : (c.onRouter f).router = f c.router := rfl
@[simp] theorem Chip.fld_onRouter (f : Router → Router) (y : Fld) : (c.onRouter f).fld y = c.fld y := rfl
@[simp] theorem Chip.now_onRouter (f : Router → Router) : (c.onRouter f).now = c.now := rfl
@[simp] theorem Chip.onOd_od (f : Odometer → Odometer) : (c.onOd f).od = f c.od := rfl
@[simp] theorem Chip.fld_onOd (f : Odometer → Odometer) (y : Fld) : (c.onOd f).fld y = c.fld y := rfl
@[simp] theorem Chip.now_onOd (f : Odometer → Odometer) : (c.onOd f).now = c.now := rfl
@[simp] theorem Chip.onPwr_pwr (f : Power → Power) : (c.onPwr f).pwr = f c.pwr := rfl
@[simp] theorem Chip.fld_onPwr (f : Power → Power) (y : Fld) : (c.onPwr f).fld y = c.fld y := rfl
@[simp] theorem Chip.now_onPwr (f : Power → Power) : (c.onPwr f).now = c.now := rfl
@[simp] theorem Chip.onSec_sec (f : Security → Security) : (c.onSec f).sec = f c.sec := rfl
@[simp] theorem Chip.fld_onSec (f : Security → Security) (y : Fld) : (c.onSec f).fld y = c.fld y := rfl
@[simp] theorem Chip.now_onSec (f : Security → Security) : (c.onSec f).now = c.now := rfl
@[simp] theorem Chip.onBist_bist (f : Bist → Bist) : (c.onBist f).bist = f c.bist := rfl
@[simp] theorem Chip.fld_onBist (f : Bist → Bist) (y : Fld) : (c.onBist f).fld y = c.fld y := rfl
@[simp] theorem Chip.now_onBist (f : Bist → Bist) : (c.onBist f).now = c.now := rfl
@[simp] theorem Chip.onSw_sw (f : Sweeper → Sweeper) : (c.onSw f).sw = f c.sw := rfl
@[simp] theorem Chip.fld_onSw (f : Sweeper → Sweeper) (y : Fld) : (c.onSw f).fld y = c.fld y := rfl
@[simp] theorem Chip.now_onSw (f : Sweeper → Sweeper) : (c.onSw f).now = c.now := rfl
@[simp] theorem Chip.onDram_dram (f : Dram → Dram) : (c.onDram f).dram = f c.dram := rfl
@[simp] theorem Chip.fld_onDram (f : Dram → Dram) (y : Fld) : (c.onDram f).fld y = c.fld y := rfl
@[simp] theorem Chip.now_onDram (f : Dram → Dram) : (c.onDram f).now = c.now := rfl

end Sys2Proof.Machine
end

