-- ==== Sys2Proof/Laws/Ops.lean ====
section
/-! SUPPORT. What each shared operation can do, said once: register writes by access type, wakes, decode errors, an access on its way,
and the operations on tile DRAM, each of which keeps its canonical form. -/

namespace Sys2Proof.Machine

variable (c : Chip) (s : State)

/-- A write of a field with a legal code takes it. -/
theorem Chip.putLegal_true (f bad : Fld) (v : Nat) : c.putLegal f bad true v = c.put f v := rfl
/-- A reserved code sets the block's error bit and nothing else. -/
theorem Chip.putLegal_false (f bad : Fld) (v : Nat) : c.putLegal f bad false v = c.put bad 1 := rfl

/-- A bit of a word with one bit set. -/
theorem bit_withBit_same (n i : Nat) : bit (withBit n i true) i = true := by
  simp [bit, withBit, ← Nat.testBit_eq_decide_div_mod_eq]

/-- A wake of the tile while a seal runs follows it; any other wake meets the seal and is nothing. -/
theorem Chip.startWake_sealing (d k : Nat) (x : Seal) (h : c.pwr.sealing = some x) (hd : d < 4) : c.startWake d k = c := by
  unfold Chip.startWake
  simp [h, Nat.not_le.mpr hd]
/-- SEALED holds while what sealed it does. -/
theorem Chip.startWake_shut (d k : Nat) (h : c.pwr.sealing = none) (h4 : c.fld PWR_STATUS.state = 4) (hs : c.pwr.shut ≠ []) :
    c.startWake d k = c := by
  unfold Chip.startWake
  simp [h, Chip.tileUp, h4, hs]

/-- A decode error always sets its error bit. -/
theorem Chip.decodeErr_flag (src : Src) (k a : Nat) : (c.decodeErr src k a).flag GC_ERR.decode = true :=
  Chip.flag_errEvt _ GC_ERR.decode _ _ _ (by decide)

/-- What an access meets decides what it does. -/
theorem State.csrAccess_open (w : CsrWait) (h : s.chip.csrGate w.src w.addr = .open) : s.csrAccess w = s.csrServed w := by
  simp [State.csrAccess, h]
theorem State.csrAccess_lost (w : CsrWait) (h : s.chip.csrGate w.src w.addr = .lost) : s.csrAccess w = s.upd (·.csrLost w) := by
  simp [State.csrAccess, h]
theorem State.csrAccess_wait (w : CsrWait) (h : s.chip.csrGate w.src w.addr = .wait) : s.csrAccess w = s.upd (·.csrPark w) := by
  simp [State.csrAccess, h]
theorem State.csrAccess_off (w : CsrWait) (h : s.chip.csrGate w.src w.addr = .off) : s.csrAccess w = s := by
  simp [State.csrAccess, h]
/-- With nothing waiting, serving changes nothing. -/
theorem State.csrServe_nil (h : s.chip.csr.waiting = []) : s.csrServe = s := by
  unfold State.csrServe
  rw [h]
  show ({ s with chip := { s.chip with csr := { s.chip.csr with waiting := [] } } } : State) = s
  rw [← h]

/-- Upsets, whole-line writes and fills keep the canonical form of tile DRAM. -/
theorem State.upset_wf (ln f g : Nat) (h : Memory.wf s.mem = true) : Memory.wf (s.upset ln f g).mem = true := by
  unfold State.upset
  split
  · exact h
  · exact Memory.wf_write _ _ _ _ h
theorem State.putPlain_wf (ln v : Nat) (h : Memory.wf s.mem = true) : Memory.wf (s.putPlain ln v).mem = true :=
  Memory.wf_write _ _ _ _ h
theorem State.putSecret_wf (ln v : Nat) (h : Memory.wf s.mem = true) : Memory.wf (s.putSecret ln v).mem = true :=
  Memory.wf_write _ _ _ _ h
theorem State.fillZero_wf (lo hi : Nat) (h : Memory.wf s.mem = true) : Memory.wf (s.fillZero lo hi).mem = true :=
  Memory.wf_zero _ _ _ h
theorem State.recode_wf (k a : Nat) (h : Memory.wf s.mem = true) : Memory.wf (s.recode k a).mem = true := by
  unfold State.recode
  dsimp only
  split
  · exact Memory.wf_write _ _ _ _ h
  all_goals exact h
theorem State.restoreLine_wf (ln v : Nat) (b : Bool) (h : Memory.wf s.mem = true) : Memory.wf (s.restoreLine ln v b).mem = true := by
  unfold State.restoreLine
  dsimp only
  split <;> split <;> exact State.putSecret_wf _ _ _ h

/-- The second mark during a seal has no effect (23 R506). -/
theorem Chip.powerMark_sealing (k m : Nat) (ls : List Levels) (x : Seal) (h : c.pwr.sealing = some x) : c.powerMark k m ls = c := by
  simp [Chip.powerMark, h]

end Sys2Proof.Machine
end

