-- ==== Sys2Proof/WellFormed.lean ====
section
/-! DEFINITION. Commands that can arrive: every field of a message or frame within the width the manual gives it, requests within
the address space. The operands whose range a type already gives need no check. `exec` is total; a command that is not well
formed stands for nothing a sender can send. -/

namespace Sys2Proof

/-- A value of at most `w` bits. -/
def fits (w n : Nat) : Bool := decide (n < 2 ^ w)
/-- Sequence and acknowledgement numbers of a reliable message (17 R391). -/
def reliable (seq ack : Nat) : Bool := fits 16 seq && fits 16 ack
/-- At most `n` bytes. -/
def bytesOk (n : Nat) (l : List Nat) : Bool := decide (l.length ≤ n) && l.all (fits 8)
/-- Causeway segment data (18 R413). -/
def segOk (d : SegData) : Bool :=
  fits 16 d.segment && fits 256 d.key && decide (d.members.length ≤ 64) && d.members.all fun m => fits 12 m.1 && fits 16 m.2
/-- A Causeway frame (Table 18.1). -/
def frameOk (x : RxFrame) : Bool := fits 12 x.sender && fits 16 x.epoch && fits 16 x.seq && bytesOk 32 x.payload

/-- The command can arrive. -/
def Instr.wf : Instr → Bool
  | .sync _u x t1 hops => fits 72 x && fits 72 t1 && fits 8 hops
  | .delayReq _u x => fits 72 x
  | .followUp _u x t4 => fits 72 x && fits 72 t4
  | .launch _u seq ack ep id t action arg scope target =>
    reliable seq ack && fits 16 ep && fits 16 id && fits 72 t &&
      fits 8 action && fits 32 arg && fits 8 scope && fits 12 target
  | .cancel _u seq ack id => reliable seq ack && fits 16 id
  | .report _u seq ack tile id code => reliable seq ack && fits 12 tile && fits 16 id && fits 8 code
  | .bmPortRead _b _p addr _e flips => fits 16 addr && flips.all (fits 72)
  | .bmPortWrite _b _p addr _v _e flips => fits 16 addr && flips.all (fits 72)
  | .dramRead _w id addr _len _u => fits 32 id && fits 41 addr
  | .dramWrite _w id addr _len _d _b _u => fits 32 id && fits 41 addr
  | .dramPartial _w id addr _len _d _be _b _u => fits 32 id && fits 41 addr
  | .dramOrWrite _w id addr _len _m _u => fits 32 id && fits 41 addr
  | .bar2Write _o bytes _a => bytes.all (fits 8)
  | .getMeasurements _i _s nonce => fits 256 nonce
  | .challenge _s nonce => fits 256 nonce
  | .getCertificate _s offset len => fits 16 offset && fits 16 len
  | .eventFwd _u seq ack num tile epoch cause flags rseq stamp _p =>
    reliable seq ack && fits 16 num && fits 12 tile && fits 16 epoch &&
      fits 8 cause && fits 8 flags && fits 32 rseq && fits 56 stamp
  | .idle _u ack => fits 16 ack
  | .hello _u seq ack serial epoch tile hops role =>
    reliable seq ack && fits 64 serial && fits 16 epoch && fits 12 tile && fits 8 hops && fits 8 role
  | .enrolReq _u seq ack serial epoch path _alt nonce mask =>
    reliable seq ack && fits 64 serial && fits 16 epoch &&
      path.all (fits 3) && decide (path.length ≤ 5) && fits 256 nonce && fits 32 mask
  | .enrolGrant _u seq ack serial tile hops d _c =>
    reliable seq ack && fits 64 serial && fits 12 tile && fits 8 hops && segOk d
  | .enrolRefuse _u seq ack serial code => reliable seq ack && fits 64 serial && fits 8 code
  | .quoteReq _u seq ack serial nonce mask => reliable seq ack && fits 64 serial && fits 256 nonce && fits 32 mask
  | .quote _u seq ack serial _l bytes _v d => reliable seq ack && fits 64 serial && bytesOk 240 bytes && segOk d
  | .lost _u seq ack tile serial => reliable seq ack && fits 12 tile && fits 64 serial
  | .sleep _u seq ack => reliable seq ack
  | .powerfail _u seq ack tile at_ => reliable seq ack && fits 12 tile && fits 72 at_
  | .mailbox _u seq ack _n flags credits epoch word bells =>
    reliable seq ack && fits 8 flags && fits 8 credits && fits 16 epoch && fits 32 word && fits 32 bells
  | .control _u seq ack payload seg => reliable seq ack && payload.all (fits 8) && seg.all segOk
  | .testReq _u seq ack v => reliable seq ack && fits 32 v
  | .actionFrame x => frameOk x
  | .beaconFrame x rx => frameOk x && fits 72 rx
  | .noteFrame x => frameOk x
  | .cwReservedFrame x ftype => frameOk x && decide (3 ≤ ftype.val)
  | .newChallenge nonce => fits 256 nonce
  | .keyImport _f _t key => fits 256 key
  | .registerWrite .. | .unassignedAccess .. | .loReadCapture .. | .hiWriteApply .. | .topWriteApply .. | .rcRead ..
  | .refCycle .. | .syncTimer .. | .delayReqSend .. | .exchangeMissing .. | .holdoverTick .. | .mpCtrlWrite ..
  | .mpUpstreamWrite .. | .mpSet .. | .mpResync .. | .absorbComplete .. | .refInLoss .. | .ocxoLoss .. | .launchPush ..
  | .launchCancel .. | .mark .. | .startLeg .. | .commit .. | .halt .. | .abort .. | .capture .. | .trigger .. | .crossing ..
  | .commitNow .. | .abortNow .. | .crossingNow .. | .groupSwitch .. | .matchPortWrite .. | .matchLookup ..
  | .avenueContention .. | .clearFlags .. | .cpllConfigWrite .. | .gckSelectWrite .. | .cpllLock .. | .cpllLockLost ..
  | .clkRestart .. | .quarterReset .. | .quarterRelease .. | .capNow .. | .captureEdge .. | .captureTimeout .. | .capFree ..
  | .capResume .. | .coldStart .. | .tileReset .. | .gcTileReset .. | .pcieReset .. | .bmWriteback .. | .clearBlock ..
  | .clearFirst .. | .bmRepairWrite .. | .vectorStart .. | .driveEdge .. | .compareStrobe .. | .legEnd .. | .pgrEnableWrite ..
  | .toIdle .. | .calNow .. | .calMeasure .. | .calMeasureDone .. | .calStale .. | .streamerLineResponse .. | .reprime ..
  | .strNop .. | .strVec .. | .strLoop .. | .strEndl .. | .strMatch .. | .strEndm .. | .strBrf .. | .strJmp .. | .strEnd ..
  | .strReservedOp .. | .apgPush .. | .apgCtrlWrite .. | .taintNotice .. | .intakeEmit .. | .flRecordResponse ..
  | .flOrwriteResponse .. | .dirtyLineAge .. | .harvestAll .. | .harvestReadResponse .. | .flAckWrite .. | .clNop .. | .clMac ..
  | .clMsu .. | .clMul .. | .clClr .. | .clSt .. | .clAccsv .. | .clAccld .. | .clHist .. | .clSig .. | .clAdda .. | .clLdi ..
  | .clAlu .. | .clAgset .. | .clAgget .. | .clLdx .. | .clStx .. | .clLoop .. | .clLpop .. | .clLpush .. | .clJmp .. | .clBr ..
  | .clReti .. | .clIn .. | .clOut .. | .clXfer .. | .clWaitx .. | .clTime .. | .clMsg .. | .clWait .. | .clHalt ..
  | .clIllegal .. | .clInterrupt .. | .clFabricPush .. | .clFabricPop .. | .clRegionIrq .. | .clXferResponse .. | .clCmdStart ..
  | .clCmdResume .. | .clCmdHalt .. | .clCmdIrq .. | .clCmdLoadUcode .. | .clUcodeLoadDone .. | .clUcodeRefetch ..
  | .clLmDataRead .. | .clLmDataWrite .. | .clRegWrite .. | .checkRequest .. | .bankService .. | .checkRingTimeout ..
  | .refreshTick .. | .refreshRatePoll .. | .powerdownIdle .. | .trainingCheckpoint .. | .retrain .. | .autoRetrain ..
  | .spCfgWrite .. | .setpointSwitchDone .. | .ppr .. | .pprDone .. | .mapApply .. | .mapApplyDone .. | .initFillExtent ..
  | .eccWriteback .. | .patrolVisit .. | .eccClearLog .. | .kidActivate .. | .kidGenerated .. | .kidRetire .. | .zeroise ..
  | .zeroiseDone .. | .rekey .. | .rekeyDone .. | .tagCheckDone .. | .prClearLog .. | .junctionPacket .. | .linkCrcError ..
  | .requestTimeout .. | .portClose .. | .portClosed .. | .portReopen .. | .swap .. | .swapPortDone .. | .bar2Read ..
  | .bar2Timeout .. | .winBaseWrite .. | .ringCfgWrite .. | .doorbellPi .. | .doorbellCi .. | .descFetch .. | .descNop ..
  | .h2t .. | .t2h .. | .t2t .. | .fail .. | .descReservedOp .. | .dmaDataResponse .. | .descWriteback .. | .drainWait ..
  | .dmaAbort .. | .dmaRestart .. | .dmaSkip .. | .t2Start .. | .dmaCtrlWrite .. | .irqHoldoff .. | .linkUp .. | .d3hotEntry ..
  | .d3hotExit .. | .busMasterEnable .. | .getVersion .. | .getCapabilities .. | .negotiateAlgorithms .. | .getDigests ..
  | .spdmUnsupported .. | .eventPacket .. | .eventFlush .. | .evRouteWrite .. | .msixUnmask .. | .trkCtrlWrite .. | .ckDetect ..
  | .trkTrainingEnd .. | .trkRetry .. | .blockLockLoss .. | .trkErrorWindow .. | .recoveryTimeout .. | .trkRetrain ..
  | .testStart .. | .testStop .. | .trkTestTimeout .. | .inject .. | .injectTick .. | .resendTimer .. | .quoteTimeout ..
  | .trkBadMessage .. | .failover .. | .downPortLost .. | .trkWake .. | .hyTabWrite .. | .cwPush .. | .cwBusIdle .. | .cwSlot ..
  | .cwCollision .. | .cwFrameSent .. | .cwJabber .. | .cwBusStuck .. | .cwBeaconTimer .. | .strangerWindow .. | .txReset ..
  | .qExit .. | .cwMemberWrite .. | .wsTx .. | .wsSend .. | .wsRxdata .. | .wsLockRead .. | .wsLockWrite .. | .lockBreak ..
  | .wsFlush .. | .wsCfgWrite .. | .cfgLoad .. | .cfgChunk .. | .cfgClamp .. | .cfgRelease .. | .cfgAbort .. | .cfgReadback ..
  | .sweepVisit .. | .sweepReload .. | .sweepLapEnd .. | .sweepLapLate .. | .sweepWatchdog .. | .restartLap .. | .clearSuspect ..
  | .bistSlice .. | .bistPeriodic .. | .bistSliceDone .. | .dramFull .. | .dramFullDone .. | .pprApply .. | .bistClearLog ..
  | .extend .. | .unlock .. | .relock .. | .recover .. | .lockoutEnd .. | .tamper .. | .quoteService .. | .signpostJudge ..
  | .signpostWake .. | .wakeDone .. | .wakeNow .. | .sealNow .. | .restore .. | .restoreDone .. | .vaultRelease ..
  | .vaultEraseDone .. | .railFault .. | .thermalWarn .. | .thermalCrit .. | .thermalClear .. | .inputLoss ..
  | .inputRideThrough .. | .busUndervoltage .. | .inputReturn .. | .operation .. | .clearFaults .. | .capability ..
  | .statusWord .. | .statusInput .. | .statusTemperature .. | .readVin .. | .readIin .. | .readPin .. | .readTemperature1 ..
  | .pmbusRevision .. | .mfrId .. | .mfrModel .. | .mfrSerial .. | .pmbusUnsupported .. | .odMeasure .. | .measureNow ..
  | .odMeasureDone .. | .odOverdue .. | .odStore .. | .twivelPeek .. | .twivelTake .. | .twivelWrite .. | .twivelResult ..
  | .twivelBadOp .. | .twivelAccessDone .. | .twivelProtocolReset .. | .haltCore .. | .coresHalted .. | .resumeCore ..
  | .stepCore .. | .haltCl .. | .resumeCl .. | .stepCl .. | .sdReset .. | .wdgKick .. | .wdgExpire .. | .detourBreak ..
  | .dtrWrite .. | .refInReturn .. | .completionTimeout .. | .hostLinkTraining .. | .recoveryRequest .. | .readbackDone ..
  | .sealComplete .. | .sweeperCopyVote .. => true

end Sys2Proof
end

