-- ==== Sys2Proof/Tests/Slice0.lean ====
section
/-! SUPPORT. Tests of the model and witnesses of the statements' hypotheses. -/

namespace Sys2Proof.Tests

open Machine

set_option Elab.async false

/-- The state with register fields set. -/
def withFields (fs : List (Fld × Nat)) (s : State := {}) : State :=
  { s with chip := fs.foldl (fun c e => c.put e.1 e.2) s.chip }
/-- The state with its tile changed. -/
def withChip (f : Chip → Chip) (s : State := {}) : State := { s with chip := f s.chip }

/-- Each check of a command of this family refuses a value one too large. -/
theorem test_wf_clocks :
    ∀ i ∈ ([.sync 0 (2 ^ 72) 0 0, .sync 0 0 (2 ^ 72) 0, .sync 0 0 0 (2 ^ 8), .delayReq 0 (2 ^ 72), .followUp 0 (2 ^ 72) 0,
      .followUp 0 0 (2 ^ 72)] : List Instr), i.wf = false := by
  decide +kernel

/-- The greatest values are well formed. -/
theorem test_wf_clocks_greatest :
    ∀ i ∈ ([.sync 0 (2 ^ 72 - 1) (2 ^ 72 - 1) (2 ^ 8 - 1), .delayReq 0 (2 ^ 72 - 1), .followUp 0 (2 ^ 72 - 1) (2 ^ 72 - 1)] : List Instr), i.wf = true := by
  decide +kernel

/-- Each check of a command of this family refuses a value one too large. -/
theorem test_wf_launch :
    ∀ i ∈ ([.launch 0 (2 ^ 16) 0 0 0 0 0 0 0 0, .launch 0 0 (2 ^ 16) 0 0 0 0 0 0 0, .launch 0 0 0 (2 ^ 16) 0 0 0 0 0 0,
      .launch 0 0 0 0 (2 ^ 16) 0 0 0 0 0, .launch 0 0 0 0 0 (2 ^ 72) 0 0 0 0, .launch 0 0 0 0 0 0 (2 ^ 8) 0 0 0,
      .launch 0 0 0 0 0 0 0 (2 ^ 32) 0 0, .launch 0 0 0 0 0 0 0 0 (2 ^ 8) 0, .launch 0 0 0 0 0 0 0 0 0 (2 ^ 12),
      .cancel 0 (2 ^ 16) 0 0, .cancel 0 0 (2 ^ 16) 0, .cancel 0 0 0 (2 ^ 16), .report 0 (2 ^ 16) 0 0 0 0, .report 0 0 (2 ^ 16) 0 0 0,
      .report 0 0 0 (2 ^ 12) 0 0, .report 0 0 0 0 (2 ^ 16) 0, .report 0 0 0 0 0 (2 ^ 8)] : List Instr), i.wf = false := by
  decide +kernel

/-- The greatest values are well formed. -/
theorem test_wf_launch_greatest :
    ∀ i ∈ ([.launch 0 (2 ^ 16 - 1) (2 ^ 16 - 1) (2 ^ 16 - 1) (2 ^ 16 - 1) (2 ^ 72 - 1) (2 ^ 8 - 1) (2 ^ 32 - 1) (2 ^ 8 - 1) (2 ^ 12 - 1),
      .cancel 0 (2 ^ 16 - 1) (2 ^ 16 - 1) (2 ^ 16 - 1), .report 0 (2 ^ 16 - 1) (2 ^ 16 - 1) (2 ^ 12 - 1) (2 ^ 16 - 1) (2 ^ 8 - 1)] : List Instr), i.wf = true := by
  decide +kernel

/-- Each check of a command of this family refuses a value one too large. -/
theorem test_wf_memory :
    ∀ i ∈ ([.bmPortRead 0 0 (2 ^ 16) 0 [], .bmPortRead 0 0 0 0 [2 ^ 72], .bmPortWrite 0 0 (2 ^ 16) 0 0 [], .bmPortWrite 0 0 0 0 0 [2 ^ 72],
      .dramRead .hub (2 ^ 32) 0 64 false, .dramRead .hub 0 (2 ^ 41) 64 false, .dramWrite .hub (2 ^ 32) 0 64 0 false false,
      .dramWrite .hub 0 (2 ^ 41) 64 0 false false, .dramPartial .hub (2 ^ 32) 0 64 0 0 false false,
      .dramPartial .hub 0 (2 ^ 41) 64 0 0 false false, .dramOrWrite .hub (2 ^ 32) 0 64 0 false,
      .dramOrWrite .hub 0 (2 ^ 41) 64 0 false, .bar2Write 0 [2 ^ 8] []] : List Instr), i.wf = false := by
  decide +kernel

/-- The greatest values are well formed. -/
theorem test_wf_memory_greatest :
    ∀ i ∈ ([.bmPortRead 0 0 (2 ^ 16 - 1) 0 [], .bmPortRead 0 0 0 0 [2 ^ 72 - 1], .bmPortWrite 0 0 (2 ^ 16 - 1) 0 0 [],
      .bmPortWrite 0 0 0 0 0 [2 ^ 72 - 1], .dramRead .hub (2 ^ 32 - 1) (2 ^ 41 - 1) 64 false,
      .dramWrite .hub (2 ^ 32 - 1) (2 ^ 41 - 1) 64 0 false false, .dramPartial .hub (2 ^ 32 - 1) (2 ^ 41 - 1) 64 0 0 false false,
      .dramOrWrite .hub (2 ^ 32 - 1) (2 ^ 41 - 1) 64 0 false, .bar2Write 0 [2 ^ 8 - 1] []] : List Instr), i.wf = true := by
  decide +kernel

/-- Each check of a command of this family refuses a value one too large. -/
theorem test_wf_security :
    ∀ i ∈ ([.getMeasurements 1 true (2 ^ 256), .challenge 0 (2 ^ 256), .getCertificate 0 (2 ^ 16) 0, .getCertificate 0 0 (2 ^ 16),
      .newChallenge (2 ^ 256), .keyImport true true (2 ^ 256)] : List Instr), i.wf = false := by
  decide +kernel

/-- The greatest values are well formed. -/
theorem test_wf_security_greatest :
    ∀ i ∈ ([.getMeasurements 1 true (2 ^ 256 - 1), .challenge 0 (2 ^ 256 - 1), .getCertificate 0 (2 ^ 16 - 1) (2 ^ 16 - 1),
      .newChallenge (2 ^ 256 - 1), .keyImport true true (2 ^ 256 - 1)] : List Instr), i.wf = true := by
  decide +kernel

/-- Each check of a command of this family refuses a value one too large. -/
theorem test_wf_trunks :
    let D : SegData := ⟨0, false, 0, []⟩
    ∀ i ∈ ([.eventFwd 0 (2 ^ 16) 0 0 0 0 0 0 0 0 [], .eventFwd 0 0 (2 ^ 16) 0 0 0 0 0 0 0 [], .eventFwd 0 0 0 (2 ^ 16) 0 0 0 0 0 0 [],
      .eventFwd 0 0 0 0 (2 ^ 12) 0 0 0 0 0 [], .eventFwd 0 0 0 0 0 (2 ^ 16) 0 0 0 0 [], .eventFwd 0 0 0 0 0 0 (2 ^ 8) 0 0 0 [],
      .eventFwd 0 0 0 0 0 0 0 (2 ^ 8) 0 0 [], .eventFwd 0 0 0 0 0 0 0 0 (2 ^ 32) 0 [], .eventFwd 0 0 0 0 0 0 0 0 0 (2 ^ 56) [],
      .idle 0 (2 ^ 16), .hello 0 (2 ^ 16) 0 0 0 0 0 0, .hello 0 0 (2 ^ 16) 0 0 0 0 0, .hello 0 0 0 (2 ^ 64) 0 0 0 0,
      .hello 0 0 0 0 (2 ^ 16) 0 0 0, .hello 0 0 0 0 0 (2 ^ 12) 0 0, .hello 0 0 0 0 0 0 (2 ^ 8) 0, .hello 0 0 0 0 0 0 0 (2 ^ 8),
      .enrolReq 0 (2 ^ 16) 0 0 0 [] false 0 0, .enrolReq 0 0 (2 ^ 16) 0 0 [] false 0 0, .enrolReq 0 0 0 (2 ^ 64) 0 [] false 0 0,
      .enrolReq 0 0 0 0 (2 ^ 16) [] false 0 0, .enrolReq 0 0 0 0 0 [] false (2 ^ 256) 0, .enrolReq 0 0 0 0 0 [] false 0 (2 ^ 32),
      .enrolReq 0 0 0 0 0 [2 ^ 3] false 0 0, .enrolGrant 0 (2 ^ 16) 0 0 0 0 D none, .enrolGrant 0 0 (2 ^ 16) 0 0 0 D none,
      .enrolGrant 0 0 0 (2 ^ 64) 0 0 D none, .enrolGrant 0 0 0 0 (2 ^ 12) 0 D none, .enrolGrant 0 0 0 0 0 (2 ^ 8) D none,
      .enrolGrant 0 0 0 0 0 0 ⟨2 ^ 16, false, 0, [(0, 0)]⟩ none, .enrolGrant 0 0 0 0 0 0 ⟨0, false, 2 ^ 256, [(0, 0)]⟩ none,
      .enrolGrant 0 0 0 0 0 0 ⟨0, false, 0, [(2 ^ 12, 0)]⟩ none, .enrolGrant 0 0 0 0 0 0 ⟨0, false, 0, [(0, 2 ^ 16)]⟩ none,
      .enrolRefuse 0 (2 ^ 16) 0 0 0, .enrolRefuse 0 0 (2 ^ 16) 0 0, .enrolRefuse 0 0 0 (2 ^ 64) 0, .enrolRefuse 0 0 0 0 (2 ^ 8),
      .quoteReq 0 (2 ^ 16) 0 0 0 0, .quoteReq 0 0 (2 ^ 16) 0 0 0, .quoteReq 0 0 0 (2 ^ 64) 0 0, .quoteReq 0 0 0 0 (2 ^ 256) 0,
      .quoteReq 0 0 0 0 0 (2 ^ 32), .quote 0 (2 ^ 16) 0 0 true [] true D, .quote 0 0 (2 ^ 16) 0 true [] true D,
      .quote 0 0 0 (2 ^ 64) true [] true D, .quote 0 0 0 0 true [2 ^ 8] true D, .quote 0 0 0 0 true [] true ⟨2 ^ 16, false, 0, []⟩,
      .lost 0 (2 ^ 16) 0 0 0, .lost 0 0 (2 ^ 16) 0 0, .lost 0 0 0 (2 ^ 12) 0, .lost 0 0 0 0 (2 ^ 64), .sleep 0 (2 ^ 16) 0,
      .sleep 0 0 (2 ^ 16), .powerfail 0 (2 ^ 16) 0 0 0, .powerfail 0 0 (2 ^ 16) 0 0, .powerfail 0 0 0 (2 ^ 12) 0,
      .powerfail 0 0 0 0 (2 ^ 72), .mailbox 0 (2 ^ 16) 0 0 0 0 0 0 0, .mailbox 0 0 (2 ^ 16) 0 0 0 0 0 0,
      .mailbox 0 0 0 0 (2 ^ 8) 0 0 0 0, .mailbox 0 0 0 0 0 (2 ^ 8) 0 0 0, .mailbox 0 0 0 0 0 0 (2 ^ 16) 0 0,
      .mailbox 0 0 0 0 0 0 0 (2 ^ 32) 0, .mailbox 0 0 0 0 0 0 0 0 (2 ^ 32), .control 0 (2 ^ 16) 0 [] none,
      .control 0 0 (2 ^ 16) [] none, .control 0 0 0 [2 ^ 8] none, .control 0 0 0 [] (some ⟨2 ^ 16, false, 0, []⟩),
      .testReq 0 (2 ^ 16) 0 0, .testReq 0 0 (2 ^ 16) 0, .testReq 0 0 0 (2 ^ 32), .enrolReq 0 0 0 0 0 [0, 0, 0, 0, 0, 0] false 0 0,
      .quote 0 0 0 0 true (List.replicate 241 0) true D, .enrolGrant 0 0 0 0 0 0 ⟨0, false, 0, List.replicate 65 (0, 0)⟩ none] : List Instr), i.wf = false := by
  decide +kernel

/-- The greatest values are well formed. -/
theorem test_wf_trunks_greatest :
    let D : SegData := ⟨0, false, 0, []⟩
    ∀ i ∈ ([.eventFwd 0 (2 ^ 16 - 1) (2 ^ 16 - 1) (2 ^ 16 - 1) (2 ^ 12 - 1) (2 ^ 16 - 1) (2 ^ 8 - 1) (2 ^ 8 - 1) (2 ^ 32 - 1) (2 ^ 56 - 1) [],
      .idle 0 (2 ^ 16 - 1), .hello 0 (2 ^ 16 - 1) (2 ^ 16 - 1) (2 ^ 64 - 1) (2 ^ 16 - 1) (2 ^ 12 - 1) (2 ^ 8 - 1) (2 ^ 8 - 1),
      .enrolReq 0 (2 ^ 16 - 1) (2 ^ 16 - 1) (2 ^ 64 - 1) (2 ^ 16 - 1) [] false (2 ^ 256 - 1) (2 ^ 32 - 1),
      .enrolReq 0 0 0 0 0 [2 ^ 3 - 1] false 0 0, .enrolGrant 0 (2 ^ 16 - 1) (2 ^ 16 - 1) (2 ^ 64 - 1) (2 ^ 12 - 1) (2 ^ 8 - 1) D none,
      .enrolGrant 0 0 0 0 0 0 ⟨2 ^ 16 - 1, false, 2 ^ 256 - 1, [(2 ^ 12 - 1, 2 ^ 16 - 1)]⟩ none,
      .enrolRefuse 0 (2 ^ 16 - 1) (2 ^ 16 - 1) (2 ^ 64 - 1) (2 ^ 8 - 1),
      .quoteReq 0 (2 ^ 16 - 1) (2 ^ 16 - 1) (2 ^ 64 - 1) (2 ^ 256 - 1) (2 ^ 32 - 1),
      .quote 0 (2 ^ 16 - 1) (2 ^ 16 - 1) (2 ^ 64 - 1) true [] true D, .quote 0 0 0 0 true [2 ^ 8 - 1] true D,
      .quote 0 0 0 0 true [] true ⟨2 ^ 16 - 1, false, 0, []⟩, .lost 0 (2 ^ 16 - 1) (2 ^ 16 - 1) (2 ^ 12 - 1) (2 ^ 64 - 1),
      .sleep 0 (2 ^ 16 - 1) (2 ^ 16 - 1), .powerfail 0 (2 ^ 16 - 1) (2 ^ 16 - 1) (2 ^ 12 - 1) (2 ^ 72 - 1),
      .mailbox 0 (2 ^ 16 - 1) (2 ^ 16 - 1) 0 (2 ^ 8 - 1) (2 ^ 8 - 1) (2 ^ 16 - 1) (2 ^ 32 - 1) (2 ^ 32 - 1),
      .control 0 (2 ^ 16 - 1) (2 ^ 16 - 1) [] none, .control 0 0 0 [2 ^ 8 - 1] none,
      .control 0 0 0 [] (some ⟨2 ^ 16 - 1, false, 0, []⟩), .testReq 0 (2 ^ 16 - 1) (2 ^ 16 - 1) (2 ^ 32 - 1)] : List Instr), i.wf = true := by
  decide +kernel

/-- Each check of a command of this family refuses a value one too large. -/
theorem test_wf_causeway :
    ∀ i ∈ ([.actionFrame ⟨true, 2 ^ 12, 0, 0, false, true, [0]⟩, .actionFrame ⟨true, 0, 2 ^ 16, 0, false, true, [0]⟩,
      .actionFrame ⟨true, 0, 0, 2 ^ 16, false, true, [0]⟩, .actionFrame ⟨true, 0, 0, 0, false, true, [2 ^ 8]⟩,
      .beaconFrame ⟨true, 2 ^ 12, 0, 0, false, true, [0]⟩ 0, .beaconFrame ⟨true, 0, 2 ^ 16, 0, false, true, [0]⟩ 0,
      .beaconFrame ⟨true, 0, 0, 2 ^ 16, false, true, [0]⟩ 0, .beaconFrame ⟨true, 0, 0, 0, false, true, [2 ^ 8]⟩ 0,
      .noteFrame ⟨true, 2 ^ 12, 0, 0, false, true, [0]⟩, .noteFrame ⟨true, 0, 2 ^ 16, 0, false, true, [0]⟩,
      .noteFrame ⟨true, 0, 0, 2 ^ 16, false, true, [0]⟩, .noteFrame ⟨true, 0, 0, 0, false, true, [2 ^ 8]⟩,
      .cwReservedFrame ⟨true, 2 ^ 12, 0, 0, false, true, [0]⟩ 3, .cwReservedFrame ⟨true, 0, 2 ^ 16, 0, false, true, [0]⟩ 3,
      .cwReservedFrame ⟨true, 0, 0, 2 ^ 16, false, true, [0]⟩ 3, .cwReservedFrame ⟨true, 0, 0, 0, false, true, [2 ^ 8]⟩ 3,
      .beaconFrame ⟨true, 0, 0, 0, false, true, []⟩ (2 ^ 72), .cwReservedFrame ⟨true, 0, 0, 0, false, true, []⟩ 2,
      .noteFrame ⟨true, 0, 0, 0, false, true, List.replicate 33 0⟩] : List Instr), i.wf = false := by
  decide +kernel

/-- The greatest values are well formed. -/
theorem test_wf_causeway_greatest :
    ∀ i ∈ ([.actionFrame ⟨true, 2 ^ 12 - 1, 2 ^ 16 - 1, 2 ^ 16 - 1, false, true, [2 ^ 8 - 1]⟩,
      .beaconFrame ⟨true, 2 ^ 12 - 1, 2 ^ 16 - 1, 2 ^ 16 - 1, false, true, [2 ^ 8 - 1]⟩ 0,
      .noteFrame ⟨true, 2 ^ 12 - 1, 2 ^ 16 - 1, 2 ^ 16 - 1, false, true, [2 ^ 8 - 1]⟩,
      .cwReservedFrame ⟨true, 2 ^ 12 - 1, 2 ^ 16 - 1, 2 ^ 16 - 1, false, true, [2 ^ 8 - 1]⟩ 3,
      .beaconFrame ⟨true, 0, 0, 0, false, true, []⟩ (2 ^ 72 - 1)] : List Instr), i.wf = true := by
  decide +kernel


/-! Witnesses of O1 (StepRunsFront). -/

theorem witness_StepRunsFront :
    ({ pending := [Instr.capability] } : State).pending = Instr.capability :: [] ∧ State.reset.pending = [] := by decide

/-! Witnesses of O3 (RegisterAccess). -/

theorem witness_RegisterAccess :
    let c := (withFields []).chip
    (∀ f ∈ [PWR_MARGIN.us, PWR_LOSS.debounce_ms, PWR_ERR.late_wake, PWR_SEAL_TIME.us, FL_LIMIT.limit 0, PWR_RESTORE_BASE_LO.base_lo,
      PWR_RESTORE_BASE_HI.base_hi, LQ_NEW_T_TOP.t_top, MP_NOW_LO.now_lo, MP_NOW_HI.now_hi, PWR_LATE_CNT.count],
      csrAddr (BitVec.ofNat 24 (f.addr / 4)) = f.addr ∧ c.csrGate .host f.addr = .open ∧ (regFind f.addr).isSome = true) ∧
    regFind 0x02965238 = none ∧ c.csrGate .firmware 0x02965238 = .open ∧ csrAddr (BitVec.ofNat 24 (0x02965238 / 4)) = 0x02965238 ∧
    (withFields [(ID_QUARTERS.offline, 2)]).chip.offline 1 = true ∧ (withFields [(PWR_STATUS.qstate, 4)]).chip.qstate 1 = 1 ∧
    c.portState (64 * 1 + 63) 5 = 0 ∧ c.tileUp = true := by decide +kernel
/-- The example of a debounce of 0: kept, and refused with bad_value; of 20: taken. -/
theorem test_reserved_code :
    let e : CsrEnv := ⟨[], [], .ok, ⟨true, 0, [], 0⟩, true, 0, 0, 0, 0, 0, 0, [], 0, 0⟩
    let w (v : Nat) := (({} : State).csrStore .host e PWR_LOSS.debounce_ms.addr v).chip
    (w 0).fld PWR_LOSS.debounce_ms = 5 ∧ (w 0).flag PWR_ERR.bad_value = true ∧ (w 20).fld PWR_LOSS.debounce_ms = 20 ∧
    (w 21).fld PWR_LOSS.debounce_ms = 5 ∧ (w 20).flag PWR_ERR.bad_value = false := by decide +kernel

/-! Witnesses of O4 (StepKeepsSound). -/

theorem witness_StepKeepsSound :
    Memory.wf ({ mem := [(64, 7)], pending := [Instr.capability] } : State).mem = true ∧ Memory.wf [(64, 7), (3, 1)] = false ∧
    Memory.wf [(64, 0)] = false := by decide +kernel

/-! Witnesses of O5 (ResetIsSound). -/

theorem test_reset_now : State.reset.chip.now = 0 ∧ Memory.wf State.reset.mem = true := by decide

/-! Witnesses of O6 (MilepostCounts). -/

theorem witness_MilepostCounts : State.reset.chip.mp.absorb = none := by decide

/-! Witnesses of O7 (RateWordBounds). -/

theorem witness_RateWordBounds :
    State.reset.chip.mp.absorb = none ∧ State.reset.chip.mp.freq.natAbs ≤ ppmRate 100 ∧
    State.reset.chip.fld MP_CTRL.slew_limit ≤ 100 ∧
    ({ mp := { absorb := some ⟨0, 0, 0, 0⟩, freq := ppmRate 100 } } : Chip).mp.absorb.isSome ∧
    ({ mp := { absorb := some ⟨0, 0, 0, 0⟩, freq := ppmRate 100 } } : Chip).mp.freq.natAbs ≤ ppmRate 100 := by decide

/-! Witnesses of O8 (CounterNeverTurnsBack). -/

theorem witness_CounterNeverTurnsBack :
    State.reset.chip.mp.freq.natAbs ≤ ppmRate 100 ∧ State.reset.chip.fld MP_CTRL.slew_limit ≤ 100 ∧
    State.reset.chip.mp.frac < 2 ^ 32 ∧ State.reset.chip.now + 20000 < 2 ^ 72 := by decide

/-! Witnesses of O9 (TimeTransfer). -/

/-- A worker disciplined to trunk 0, with its port up. -/
def workerState : State :=
  withFields [(MP_CTRL.en, 1), (MP_CTRL.source, 2), (MP_UPSTREAM.valid, 1), (TRK_STATUS.state 0, 4), (MP_STATUS.state, 2)]
theorem witness_TimeTransfer_send :
    let s := withFields [(TRK_CTRL.role 7, 2), (TRK_STATUS.enrolled 7, 1), (TRK_STATUS.state 7, 4)]
    s.chip.fld (TRK_CTRL.role 7) = 2 ∧ s.chip.flag (TRK_STATUS.enrolled 7) ∧ s.chip.portActive 7 := by decide
theorem witness_TimeTransfer_worker : workerState.chip.disciplined 0 ∧ workerState.chip.portActive 0 ∧
    workerState.chip.mp.meanEmpty ∧ workerState.chip.disciplined (workerState.chip.fld MP_UPSTREAM.trunk) := by decide
theorem witness_TimeTransfer_missed :
    let s := withChip (fun c => { c with mp := { c.mp with missRun := 2 } }) workerState
    s.chip.disciplined (s.chip.fld MP_UPSTREAM.trunk) ∧ s.chip.mp.missRun = 2 ∧ s.chip.fld MP_STATUS.state ≠ 3 ∧
      s.chip.mp.absorb = none := by decide
theorem witness_TimeTransfer_follow :
    let s := withChip (fun c => { c with mp := { c.mp with xchg := some ⟨0, 1, 2, 3, some 4, 0⟩, syncSent := [(0, some 9)] } }) workerState
    s.chip.mp.xchg = some ⟨0, 1, 2, 3, some 4, 0⟩ ∧ s.chip.disciplined 0 ∧ s.chip.mp.meanEmpty ∧
      Tab.get none s.chip.mp.syncSent 0 = some 9 := by decide

/-! Witnesses of O10 (MilepostSetAndHold). -/

theorem witness_MilepostSetAndHold_writes :
    MP_CTRL.source.of 1601 < 3 ∧ 1 ≤ MP_CTRL.slew_limit.of 1601 ∧ MP_CTRL.slew_limit.of 1600 ≤ 100 ∧
    State.reset.chip.fld MP_UPSTREAM.trunk ≠ MP_UPSTREAM.trunk.of 15 := by decide
/-- A manager whose counter stands at 5,000 MT, with a system time to set. -/
def managerState (t : Nat) : State :=
  withChip (fun c => { c with mp := { c.mp with counter := 5000, openWin := false } })
    (withFields [(HY_CTRL.manager, 1), (MP_CTRL.en, 1), (MP_CTRL.source, 1), (MP_SET_LO.set_lo, t)])
theorem witness_MilepostSetAndHold_manager :
    (managerState 4999).chip.isManager ∧ (managerState 4999).chip.now = 5000 ∧ (managerState 6024).chip.openWin = false ∧
    (managerState 6024).chip.fld3 MP_SET_LO.set_lo MP_SET_HI.set_hi MP_SET_TOP.set_top = 6024 ∧
    (managerState 0).chip.flag MP_CTRL.en ∧ (managerState 0).chip.fld MP_CTRL.source = 1 ∧
    (managerState 0).chip.fld MP_STATUS.state ≠ 3 := by decide
theorem witness_MilepostSetAndHold_holdover :
    (withFields [(MP_STATUS.state, 3)] (managerState 0)).chip.fld MP_STATUS.state = 3 ∧
    (withFields [(MP_STATUS.state, 3)] (managerState 0)).chip.isManager := by decide
theorem witness_MilepostSetAndHold_absorb :
    let s := withChip (fun c => { c with mp := { c.mp with absorb := some ⟨0, 0, 2000, 2⟩ } }) State.reset
    s.chip.mp.absorb = some ⟨0, 0, 2000, 2⟩ ∧ s.chip.lq.crossing = none := by decide

/-! Witnesses of O11 (LaunchInsertion). -/

theorem witness_LaunchInsertion_push :
    let s := withFields [(LQ_NEW_ACTION.type, 7)]
    bit (1#32).toNat 0 ∧ s.chip.fld LQ_NEW_ACTION.scope = 0 ∧ badAction 7 0 = false ∧ s.chip.namesOffline 7 0 = false ∧
      s.chip.lq.entries.length < 1024 ∧ badAction 7 1 = true ∧ badAction 8 0 = true ∧ s.chip.isManager = false ∧
      (withFields [(LQ_NEW_ACTION.scope, 3)]).chip.fld LQ_NEW_ACTION.scope ≠ 0 := by decide
/-- A state whose queue holds one entry. -/
def queueState (e : LqEntry) : State := withChip (fun c => { c with lq := { c.lq with entries := [e] } }) State.reset
theorem witness_LaunchInsertion_cancel :
    (queueState ⟨5, 0, 7, 1, 0, some 1, some 0, none⟩).chip.findId 1 = some ⟨5, 0, 7, 1, 0, some 1, some 0, none⟩ ∧
    (queueState ⟨5, 0, 7, 1, 0, some 1, some 0, none⟩).chip.findId 2 = none ∧
    firstEntry ((queueState ⟨5, 0, 7, 1, 0, some 1, some 0, none⟩).chip.lq.entries.filter fun x => x.id = 1 && x.sys.isSome) =
      some ⟨5, 0, 7, 1, 0, some 1, some 0, none⟩ := by decide
theorem witness_LaunchInsertion_messages :
    let s := withFields [(TRK_STATUS.state 3, 4), (HY_CTRL.manager, 1)]
    s.chip.portActive 3 ∧ s.chip.lq.seen.contains (1, 1) = false ∧ s.chip.scopeMatches 1 0 = true ∧ s.chip.isManager ∧
      0 = s.chip.fld LQ_SYS_ID.id := by decide

/-! Witnesses of O12 (LaunchExecution). -/

/-- A tile in service with one entry in its queue, due now. -/
def dueState (action arg late : Nat) : State :=
  withChip (fun c => { c with mp := { c.mp with counter := 50000 },
                              lq := { c.lq with entries := [⟨50000 - late, action, arg, 1, 0, none, some 0, some 50000⟩] } })
    (withFields [(LQ_CTRL.en, 1), (HY_CTRL.manager, 1), (LQ_LATE_TOL.tol, 100), (QC_STATUS.ready 0, 1), (QC_STATUS.ready 1, 1),
      (QC_STATUS.ready 2, 1), (QC_STATUS.ready 3, 1)])
theorem witness_LaunchExecution :
    (dueState 0 7 0).chip.lqDue = some ⟨50000, 0, 7, 1, 0, none, some 0, some 50000⟩ ∧
    (dueState 6 0xF3 100).chip.lqDue = some ⟨49900, 6, 0xF3, 1, 0, none, some 0, some 50000⟩ ∧
    (dueState 7 0 101).chip.lqDue = some ⟨49899, 7, 0, 1, 0, none, some 0, some 50000⟩ ∧
    (dueState 0 7 0).chip.inTol = true ∧ (dueState 0 7 0).chip.fld LQ_LATE_TOL.tol = 100 ∧
    (⟨49899, 7, 0, 1, 0, none, some 0, some 50000⟩ : LqEntry).instant = some 50000 := by decide

/-! Witnesses of O13 (CommitsAndCrossings). -/

theorem witness_CommitsAndCrossings :
    let s := withFields [(LQ_CSET_W.mask 15 1, 2 ^ 31)]
    let r := withFields [(PGR_STATUS.state 63, 3)] s
    let k : Commit := ⟨15, [(63, s.chip.snapshot 63)], true⟩
    s.chip.setGroups 0 = [] ∧ s.chip.setGroups 15 = [63] ∧ s.chip.tileUp ∧ r.chip.gstate 63 = 3 ∧ s.chip.gstate 63 ≠ 3 ∧
      s.chip.groupBad [63] 63 = false ∧ r.chip.groupBad [63] 63 = false ∧
      (s.chip.putStg (PGR_ARM.armed 63) 1).groupBad [63] 63 = true ∧
      ({ r.chip with lq := { r.chip.lq with commits := [k] } } : Chip).lq.commits = [k] ∧ k.groups = [(63, s.chip.snapshot 63)] := by
  decide +kernel
theorem witness_CommitsAndCrossings_entries :
    let c := (withChip (fun c => c.put (LQ_CSET_W.mask 15 1) (2 ^ 31)) (dueState 2 15 0)).chip
    let x := (dueState 7 0 0).chip
    c.lqDue = some ⟨50000, 2, 15, 1, 0, none, some 0, some 50000⟩ ∧ c.setGroups 15 = [63] ∧ c.groupBad [63] 63 = false ∧ c.gstate 63 ≠ 3 ∧
    c.lq.commits = [] ∧ c.inTol = true ∧ x.lqDue = some ⟨50000, 7, 0, 1, 0, none, some 0, some 50000⟩ ∧ x.pendingStep = 0 ∧
    x.mp.absorb = none ∧ x.lq.waiting = 0 ∧ x.tileUp = true ∧ x.lq.crossing = none ∧ x.pwr.mark = none := by decide +kernel

/-! Witnesses of O14 (FabricCommands). -/

/-- Region 63 with LB 5 in match mode and one entry written at edge 10. -/
def matchState : State := withChip (fun c => c.matchWrite 63 5 55 true 0xFF 0x12 10)
  (withChip (fun c => c.onRegion 63 fun x => { x with lbMode := [(5, 1)] }) State.reset)
theorem witness_FabricCommands :
    Tab.get 0 (matchState.chip.region 63).lbMode 5 = 1 ∧ Tab.get 0 (matchState.chip.region 63).lbMode 6 = 0 ∧
    ((matchState.chip.region 63).entry 5 55).writes.length ≤ 3 ∧
    (∀ e < 56, (((matchState.chip.region 63).entry 5 e).at_ 12).parity = true) ∧
    (∀ e < 56, (matchState.chip.region 63).matches 1 5 0x12 12 e = decide (e = 55)) ∧
    (∀ e < 56, (matchState.chip.region 63).matches 1 5 0x12 11 e = false) ∧
    (matchState.chip.region 63).disabled.contains 639 = false := by decide +kernel

/-! Witnesses of O15 (ClockCommands). -/

theorem witness_ClockCommands :
    let s := withChip (fun c => { c with quarters := [(3, { cplls := [(0, ⟨1, 40, 0, 7⟩), (1, ⟨2, 40, 0, 7⟩)] })] }) State.reset
    (s.chip.cpll 3 0).state = 1 ∧ (s.chip.cpll 3 1).state = 2 ∧
      20 ≤ (QC_CPLL_CFG.n 3 1).of 0x1C28 ∧ (QC_CPLL_CFG.n 3 1).of 0x1C28 ≤ 160 ∧ 2 ≤ (QC_CPLL_CFG.p_minus1 3 1).of 0x1C28 + 1 ∧
      2000 ≤ 100 * (QC_CPLL_CFG.n 3 1).of 0x1C28 ∧ 100 * (QC_CPLL_CFG.n 3 1).of 0x1C28 ≤ 4000 := by decide

/-! Witnesses of O16 (CaptureCommands). -/

/-- Quarter 3 in RUN with REF on GCK 0 and a capture asked for at 5,000 MT. -/
def captureState : State := withChip (fun c => { c with quarters := [(3, { capture := some 5000 })] })
  (withFields [(QC_STATUS.ready 3, 1), (QC_GCK_SEL.src 3 0, 5), (QC_CAP_CTRL.mode 3, 1)])
theorem witness_CaptureCommands :
    captureState.chip.quarterRun 3 = true ∧ State.reset.chip.quarterRun 3 = false ∧
    captureState.chip.gckRuns 3 (captureState.chip.fld (QC_CAP_CTRL.gck 3)) ∧
    (captureState.chip.quarter 3).capture = some 5000 ∧ captureState.chip.fld (QC_CAP_STATUS.state 3) = 0 ∧
    (captureState.chip.quarter 2).capture = none ∧
    (withFields [(QC_CAP_STATUS.state 3, 2)]).chip.fld (QC_CAP_STATUS.state 3) = 2 := by decide
theorem witness_CaptureCommands_launch :
    (dueState 5 0xF 0).chip.lqDue = some ⟨50000, 5, 0xF, 1, 0, none, some 0, some 50000⟩ ∧
    (dueState 5 0xF 0).chip.inTol = true ∧ (3 : Nat) ∈ maskQuarters (bits 0xF 0 4) := by decide

/-! Witnesses of O17 (ResetCommands). -/

theorem witness_ResetCommands :
    let s := withChip (fun c => { c with quarters := [(3, { resetting := true })] }) State.reset
    (s.chip.quarter 3).resetting ∧ s.chip.inRecovery = false ∧ s.chip.tileUp ∧ s.chip.offline 3 = false ∧
    (∀ k ∈ ctlsOf 3, s.chip.fld (DMC_STATUS.state k) ≠ 7) ∧ s.chip.csr.waiting = [] ∧ s.chip.pwr.mark = none ∧
    (State.reset.chip.quarter 0).resetting = false ∧ bits (0xA5C30001#32).toNat 16 16 = 0xA5C3 ∧ bit (0xA5C30001#32).toNat 0 := by
  decide
theorem witness_ResetCommands_cold : (⟨⟨true, 0, [], 0⟩, true, [], [], 0, []⟩ : PowerUp).epochOk := by decide

/-! Witnesses of O18 (BlockMemoryReadback). -/

/-- A loaded region 63 whose block 159 holds one corrected-on-read word and one uncorrectable one. -/
def blockState : State := withChip (fun c => c.setBlock 10239
    { wa := 8, words := [(5, ⟨0x1234, 1, true⟩), (6, ⟨0x55, 3, true⟩)] })
  (withChip (fun c => c.onRegion 63 fun x => { x with loaded := true }) State.reset)
theorem witness_BlockMemoryReadback : let x := blockState.chip.block 10239
    blockState.chip.bmClocked 10239 ∧ x.mode = 0 ∧ x.prot = 0 ∧ x.width 0 = 8 ∧ x.width 1 = 64 ∧ x.lastW = none ∧
    x.bad (x.word (41 % x.depth 8 * 8 / 64)) = 1 ∧ x.bad (x.word (4095 % x.depth 64 * 64 / 64)) = 0 := by decide +kernel

/-! Witnesses of O19 (BlockMemoryErrors). -/

theorem witness_BlockMemoryErrors : let x := blockState.chip.block 10239
    blockState.chip.bmClocked 10239 ∧ x.mode = 0 ∧ x.prot = 0 ∧ x.width 1 = 64 ∧ x.width 0 = 8 ∧ x.lastW = none ∧
    (x.word 5).valid ∧ onesN 72 (x.word 5).flips = 1 ∧ (x.word 6).valid ∧ onesN 72 (x.word 6).flips = 2 ∧
    48 % x.depth 8 * 8 / 64 = 6 ∧ blockState.chip.flag (BM_RCTL.wb_en 63) := by decide +kernel
theorem witness_BlockMemoryErrors_fix :
    let x : BmBlock := { words := [(5, ⟨0x1234, 1, true⟩)], fixes := [5] }
    let s := withChip (fun c => c.setBlock 3 x) State.reset
    (s.chip.block 3).fixes = [5] ∧ ((s.chip.block 3).word 5).valid ∧ onesN 72 ((s.chip.block 3).word 5).flips = 1 := by decide +kernel

/-! Witnesses of O20 (BlockMemoryRegisters). -/

theorem witness_BlockMemoryRegisters :
    (blockState.chip.block 10239).prot ≠ 1 ∧ (blockState.chip.block 10239).filled = false ∧
    (blockState.chip.region 63).loaded = true ∧ (State.reset.chip.region 0).loaded = false ∧
    State.reset.chip.flag (BM_COLREP.fused 0) = false ∧ State.reset.chip.flag (BM_ROWREP.fused 0) = false ∧
    (BM_COLREP.col0 0).of (0x00000496#32).toNat = 150 := by decide +kernel

/-! Witnesses of O21 (PinGroupStates). -/

/-- Group 63 RUNNING a leg fed by streamer 71, its vector `count`, with `lines` in the buffer, and group 48 ARMED. -/
def legState (ending : Nat) (str : Streamer) (s : State := {}) : State :=
  withChip (fun c =>
    let c := ((c.putAct (STR_GROUP.valid 71) 1).putAct (STR_GROUP.group 71) 15).putAct (PGR_ARM.armed 48) 1
    (c.setStr 71 str).setGroup 63 { leg := some ⟨100000, 0, 2, 5, 0, 9, 0x01400000, ending, false, 100000, 100000⟩ })
    (withFields [(PGR_STATUS.state 63, 3), (PGR_STATUS.state 48, 2), (STR_STATUS.state 71, 3), (PGR_CTRL.enable 63, 1)] s)
theorem witness_PinGroupStates : let s := legState 0 {}
    s.chip.gstate 0 = 0 ∧ s.chip.gstate 63 = 3 ∧ s.chip.gstate 48 = 2 ∧ s.chip.act (PGR_ARM.armed 48) = 1 ∧
    (s.chip.group 63).leg = some ⟨100000, 0, 2, 5, 0, 9, 0x01400000, 0, false, 100000, 100000⟩ ∧
    (withFields [(PGR_STATUS.state 9, 4), (PGR_STATUS.hold_cause 9, 7)]).chip.gstate 9 = 4 ∧
    (withFields [(PGR_STATUS.state 9, 4), (PGR_STATUS.hold_cause 9, 2)]).chip.fld (PGR_STATUS.hold_cause 9) = 2 := by
  decide +kernel
theorem witness_PinGroupStates_launch :
    (legState 0 {} (dueState 1 0xF 0)).chip.lqDue = some ⟨50000, 1, 0xF, 1, 0, none, some 0, some 50000⟩ ∧
    (legState 0 {} (dueState 3 0x8 0)).chip.lqDue = some ⟨50000, 3, 0x8, 1, 0, none, some 0, some 50000⟩ ∧
    (legState 0 {} (dueState 4 0x8 0)).chip.lqDue = some ⟨50000, 4, 0x8, 1, 0, none, some 0, some 50000⟩ ∧
    (legState 0 {} (dueState 1 0xF 0)).chip.inTol = true ∧ (legState 0 {} (dueState 1 0xF 0)).chip.gstate 48 = 2 ∧
    (48 : Nat) ∈ maskGroups (bits 0xF 0 4) ∧ (63 : Nat) ∈ maskGroups (bits 0x8 0 4) := by decide +kernel

/-! Witnesses of O22 (VectorsOnTheGrid). -/

/-- A streamer with one vector left, its line held with response `r`. -/
def lineHeld (r : Nat) : Streamer := { left := 1, vaddr := 64, ts := 5, lines := [(64, some ⟨0xFFFF, r, false, false, false, 0, 0⟩)] }
theorem witness_VectorsOnTheGrid :
    (legState 0 {}).chip.feeder 63 = some 71 ∧ (legState 0 (lineHeld 0)).chip.strPending 71 = false ∧
    (legState 0 (lineHeld 0)).chip.strOffer 71 = .vector (List.replicate 16 1) 5 64 false ∧
    (legState 0 (lineHeld 3)).chip.strOffer 71 = .poison 64 3 ∧ (legState 0 {}).chip.strOffer 71 = .void ∧
    (legState 0 {}).chip.strPending 71 = false ∧ (legState 0 {}).chip.act (PGR_SRC.ts_src 63) ≠ 1 ∧
    (∀ k < 16, (legState 0 {}).chip.act (PCH_SRC.src (16 * 63 + k)) ≠ 1) ∧
    (legState 4 {}).chip.group 63 = { leg := some ⟨100000, 0, 2, 5, 0, 9, 0x01400000, 4, false, 100000, 100000⟩ } := by
  decide +kernel

/-! Witnesses of O23 (DriveEdges). -/

/-- Channel 1023 with an edge at 500 and a held action from 400 on. -/
def edgeState (last : Option Nat) (held : Option (Nat × Nat)) : State :=
  withChip (fun c => c.onChan 63 15 fun x => { x with sched := [⟨500, 0, 1, 3⟩], lastDrv := last, held := held }) State.reset
theorem witness_DriveEdges :
    ((edgeState (some 395) (some (2, 400))).chip.group (1023 / 16)).chan (1023 % 16) =
      { sched := [⟨500, 0, 1, 3⟩], lastDrv := some 395, held := some (2, 400) } ∧
    ((edgeState (some 394) (some (3, 500))).chip.group (1023 / 16)).chan (1023 % 16) =
      { sched := [⟨500, 0, 1, 3⟩], lastDrv := some 394, held := some (3, 500) } := by decide

/-! Witnesses of O24 (CompareTable). -/

/-- Group 63 with one strobe due on channel 15. -/
def strobeState (expect : Nat) : State :=
  withChip (fun c => c.setGroup 63 { strobes := [⟨0, false, [⟨15, 900, expect, 1⟩], 0, 0, none, none, false, [], 0⟩],
                                     chans := [(15, { prev := some (1, 0), lastStb := some 794 })] }) State.reset
theorem witness_CompareTable : let p := (strobeState 8).chip.group 63
    p.strobes = [⟨0, false, [⟨15, 900, 8, 1⟩], 0, 0, none, none, false, [], 0⟩] ∧
    (p.chan 15).lastStb = some 794 ∧ (p.chan 15).prev = some (1, 0) := by decide

/-! Witnesses of O25 (PinCalibration). -/

theorem witness_PinCalibration :
    State.reset.chip.tileUp ∧ State.reset.chip.qstate (63 / 16) < 2 ∧ State.reset.chip.gstate 63 ≠ 3 ∧
    ((withChip (fun c => c.setGroup 63 { measuring := true }) State.reset).chip.group 63).measuring = true ∧
    (legState 0 {}).chip.gstate 63 = 3 ∧
    (legState 0 {}).chip.fld (PGR_CAL_LIMIT.limit 63) < ((41 : Int) - (legState 0 {}).chip.fldS (PGR_CAL_TEMP.temp 63)).natAbs := by
  decide +kernel

/-! Witnesses of O26 (StreamerInstructions). -/

/-- Streamer 71 about to execute the instruction of words `w0` and `w1`. -/
def instrState (w0 w1 : Nat) (stack : List StrFrame := []) : State :=
  legState 0 { lines := [(0, some ⟨w0 + 2 ^ 64 * w1, 0, false, false, false, 0, 0⟩)], stack := stack }
theorem witness_StreamerInstructions : let a (w0 w1 : Nat) (st : List StrFrame) := ((instrState w0 w1 st).chip.str 71).instrAt 0
    a 0x400191 0x8002000000 [] = some ⟨1, true, 12, 64, 0, 0, 0, 0x8002000000, 0⟩ ∧
    a 0xF42400002 0x8001000070 [] = some ⟨2, false, 0, 1000000, 0, 0, 0, 0x8001000070, 0⟩ ∧
    a 3 0 [] = some ⟨3, false, 0, 0, 0, 0, 0, 0, 0⟩ ∧ a 9 0 [] = some ⟨9, false, 0, 0, 0, 0, 0, 0, 0⟩ ∧
    (instrState 0 0).chip.fld (STR_STATUS.state 71) = 3 ∧ (instrState 0 0).chip.strGroup 71 = some 63 ∧
    ((instrState 0 0).chip.group 63).leg = some ⟨100000, 0, 2, 5, 0, 9, 0x01400000, 0, false, 100000, 100000⟩ ∧
    ((instrState 0 0).chip.str 71).left = 0 ∧ ((instrState 0 0).chip.str 71).idle = 0 ∧ (instrState 0 0).chip.strPc 71 = 0 ∧
    0x8002000000 % (2 * (instrState 0 0).chip.strWidth 71) = 0 := by decide +kernel

/-! Witnesses of O27 (StreamerMatchLoops). -/

theorem witness_StreamerMatchLoops :
    let f : StrFrame := ⟨true, 16, 64, 10000, 3, 0, 0, 2, 1, 0, 0, [(2, 16, 16, 0, 83616, true)]⟩
    let s := instrState 5 0 [f]
    (s.chip.str 71).instrAt 0 = some ⟨5, false, 0, 0, 0, 0, 0, 0, 0⟩ ∧ (s.chip.str 71).stack = [f] ∧
    s.chip.willSkip 63 100000 = false ∧ (2, 16, 16, 0, 83616, true) ∈ f.close.iters ∧ 83616 + 16384 ≤ 100000 ∧
    ((instrState 0x00200000_27100004 0x0400008001000040).chip.str 71).instrAt 0 =
      some ⟨4, false, 0, 10000, 0, 0, 2, 0x8001000040, 0x400⟩ ∧
    ((instrState 0x4000000000006 64).chip.str 71).instrAt 0 = some ⟨6, false, 0, 0, 0, 1, 0, 64, 0⟩ := by decide +kernel

/-! Witnesses of O28 (StreamerBuffer). -/

theorem witness_StreamerBuffer :
    let s := withChip (fun c => c.setStr 71 { fetching := [64] }) (withFields [(STR_STATUS.state 71, 1)])
    (s.chip.str 71).fetching.contains (100 / 64 * 64) = true ∧ s.chip.fld (STR_STATUS.state 71) = 1 ∧
    (s.chip.str 71).fetching.contains (128 / 64 * 64) = false ∧ State.reset.chip.fld (STR_STATUS.state 0) = 0 := by decide

/-! Witnesses of O29 (ApgPort). -/

theorem witness_ApgPort :
    let s := withFields [(QC_STATUS.ready 3, 1), (QC_GCK_SEL.src 3 7, 5), (APG_CTRL.gck 63, 7), (APG_CTRL.en 63, 1)]
    s.chip.gckRuns (63 / 16) (s.chip.fld (APG_CTRL.gck 63)) = true ∧ s.chip.flag (APG_CTRL.en 63) = true ∧
    (s.chip.region 63).loading = false ∧ (s.chip.region 63).frozen = false ∧
    (Tab.get [] s.chip.apgs 63).length < 8 ∧ State.reset.chip.gckRuns (63 / 16) 0 = false ∧
    State.reset.chip.flag (APG_CTRL.en 63) = false ∧ State.reset.chip.gstate 63 ≠ 3 := by decide

/-! Witnesses of O30 (FailLogEmission). -/

/-- Quarter 3's fail log with one result in its intake, its group 15 (global 63) in `mode`, 1 s after reset. -/
def failItem (mode : Nat) : FlItem := { kind := 0, stamp := 900000, chan := 1023, mode := mode, expect := 2, apg := some 0x14E9F011 }
/-- That state. -/
def failState (mode : Nat) : State :=
  withChip (fun c => { c.setLog 3 { intake := [failItem mode], dirty := [⟨0x14E9F000, 63, 0, 0, false, false⟩] } with
    mp := { c.mp with counter := 1162144 } }) (withChip (fun c => ((c.putAct (FL_BM_CFG.lanes 3 15) 3).putAct
      (FL_BM_SIZE.log2 3 15) 30).putAct (FL_BM_LANE.lane 3 31 7) 3) State.reset)
theorem witness_FailLogEmission :
    firstItem ((failState 1).chip.log 3).intake = some (failItem 1) ∧ 900000 + 262144 ≤ (failState 1).chip.now ∧
    (failState 2).chip.fld (FL_STATUS.flow 3) = 0 ∧ (failState 2).chip.act (FL_BM_CFG.lanes 3 15) = 3 ∧
    (0x14E9F011 * 8 + 3) / 8 < 2 ^ (failState 2).chip.act (FL_BM_SIZE.log2 3 15) ∧
    (0x14E9F011 * 8 + 3) / 8 / 8 * 8 / 64 * 64 = 0x14E9F000 := by decide +kernel

/-! Witnesses of O31 (FailLogWrites). -/

theorem witness_FailLogWrites :
    let s := withChip (fun c => (c.setLog 3 { records := [[1, 2], [3]], tries := 2, ors := [(64, 1, [failItem 2])] }).putAct
      (FL_CTRL.ack_src 3) 1) State.reset
    (s.chip.log 3).records = [[1, 2], [3]] ∧ (s.chip.log 3).tries = 2 ∧ (s.chip.log 3).ors[0]? = some (64, 1, [failItem 2]) ∧
    (s.chip.log 3).atSeal = none ∧ s.chip.fld (FL_STATUS.flow 3) = 0 ∧ s.chip.act (FL_CTRL.ack_src 3) = 1 ∧
    State.reset.chip.act (FL_CTRL.ack_src 3) = 0 ∧ s.chip.flAck 3 ≤ 0 ∧ (0 : Nat) ≤ s.chip.flWr 3 := by decide

/-! Witnesses of O32 (FailLogHarvest). -/

theorem witness_FailLogHarvest : let d : DirtyLine := ⟨128, 63, 0, 0, false, false⟩
    let s := withChip (fun c => c.setLog 3 { dirty := [d], ors := [(64, 1, [])], harvests := [⟨d, 2⟩] }) State.reset
    d ∈ (s.chip.log 3).dirty ∧ (¬∃ e ∈ (s.chip.log 3).ors, e.1 / 64 = d.line / 64) ∧
    (s.chip.log 3).harvests[0]? = some ⟨d, 2⟩ ∧ s.chip.fld (FL_STATUS.flow 3) = 0 ∧ (s.chip.log 3).atSeal = none := by decide

/-! Witnesses of O33 (ClusterSlices). -/

/-- Cluster 511 running in region 63, its instruction at 5 the word `w`. -/
def clusterState (w : Nat) (f : Chip → Chip := id) (x : Cluster := {}) : State :=
  withChip (fun c => f (c.setCl 511 { x with ucode := [(5, w)] }))
    (withFields [(QC_STATUS.ready 3, 1), (QC_GCK_SEL.src 3 0, 5), (CL_STATUS.state 511, 2), (CL_STATUS.ucode_valid 511, 1),
      (CL_PC.pc 511, 5)])
theorem witness_ClusterSlices :
    let s := clusterState (2 ^ 58 + 1)
    s.chip.clState 511 = 2 ∧ s.chip.clClocked 511 = true ∧ s.chip.clTakeable 511 = false ∧
    s.chip.flag (CL_STATUS.ucode_valid 511) = true ∧ Tab.get 0 (s.chip.cl 511).ucode (s.chip.fld (CL_PC.pc 511)) = 2 ^ 58 + 1 ∧
    clLegal (2 ^ 58 + 1) = true ∧ clOp (2 ^ 58 + 1) = 1 ∧ (s.chip.cl 511).redirs.lookup 1 = none ∧
    (∀ l < 8, s.chip.fld (CL_LOOP_HI.end_ 511 l) ≠ s.chip.fld (CL_PC.pc 511)) ∧
    s.chip.flag (CL_CTRL.poison_trap 511) = false ∧ s.chip.agAddr 511 0 % 2 = 0 ∧
    clLegal (9 * 2 ^ 58) = true ∧ clLegal (10 * 2 ^ 58) = true ∧ clLegal (7 * 2 ^ 58) = true := by decide +kernel

/-! Witnesses of O34 (ClusterStores). -/

theorem witness_ClusterStores :
    clLegal 0x1400080000000231 = true ∧ clOp 0x1400080000000231 = 5 ∧ stWidth 0x1400080000000231 = 24 ∧
    clLegal (5 * 2 ^ 58 + 3) = true ∧ stWidth (5 * 2 ^ 58 + 3) = 48 ∧
    (clusterState (5 * 2 ^ 58 + 3) fun c => c.put (CL_AG_LO.base 511 0) 7).chip.agAddr 511 0 % 2 = 1 ∧
    clLegal (6 * 2 ^ 58) = true ∧ clLegal (8 * 2 ^ 58) = true ∧ clLegal (0x15 * 2 ^ 58 + 8) = true ∧
    (clusterState 0).chip.clLocal 511 (0x15 * 2 ^ 58 + 8) % 8 = 0 ∧ ((clusterState 0).chip.cl 511).lw = [] ∧
    ((clusterState 0).chip.cl 511).handler = false ∧ convertAcc 4196352 24 12 2 = (1024, false) := by decide +kernel

/-! Witnesses of O35 (ClusterScalars). -/

theorem witness_ClusterScalars :
    (∀ o ∈ [0x10, 0x11, 0x12, 0x13, 0x14, 0x15, 0x23, 0x24, 0x25], clLegal (o * 2 ^ 58 + 7) = true ∧ clOp (o * 2 ^ 58 + 7) = o) ∧
    (clusterState 0).chip.clLocal 511 (0x14 * 2 ^ 58 + 7) % 8 ≠ 0 ∧
    (clusterState 0).chip.clLocal 511 (0x14 * 2 ^ 58 + 8) = 8 ∧
    (((clusterState 0 id { lm := [(1, ⟨5, 0, true⟩)] }).chip.cl 511).word 1).bad = true ∧
    (((clusterState 0).chip.cl 511).word 1).bad = false ∧ ((clusterState 0).chip.cl 511).xfer = none := by decide +kernel

/-! Witnesses of O36 (ClusterFlow). -/

theorem witness_ClusterFlow :
    clLegal 0x60000000000A07FF = true ∧ clOp 0x60000000000A07FF = 0x18 ∧ bits 0x60000000000A07FF 16 12 = 10 ∧
    (∀ o ∈ [0x19, 0x1A, 0x1B, 0x1C, 0x1D, 0x26, 0x3F], clLegal (o * 2 ^ 58 + 7) = true ∧ clOp (o * 2 ^ 58 + 7) = o) ∧
    clLegal (0x3E * 2 ^ 58) = false ∧ (clusterState 0).chip.clInEnd 511 = false ∧
    (clusterState 0 fun c => c.clPush 511 2 6 1 false).chip.clInEnd 511 = true ∧
    (clusterState 0 fun c => c.clPush 511 2 9 1 false).chip.fld (CL_STATUS.depth 511) = 1 ∧
    (clusterState 0 fun c => (c.put (CL_IRQ_PEND.pend 511) 4).put (CL_IRQ_EN.en 511) 4).chip.clTakeable 511 = true ∧
    ((clusterState 0 id { handler := true }).chip.cl 511).handler = true := by decide +kernel

/-! Witnesses of O37 (ClusterPorts). -/

theorem witness_ClusterPorts :
    (∀ o ∈ [0x20, 0x21, 0x22], clLegal (o * 2 ^ 58) = true ∧ clOp (o * 2 ^ 58) = o) ∧ (clusterState 0).chip.clPorted 511 = true ∧
    ((clusterState 0 id { inq := [⟨1, 2, false⟩] }).chip.cl 511).inq = [⟨1, 2, false⟩] ∧
    ((clusterState 0 id { xfer := some ⟨false, 0, 64, 2, [0], none⟩ }).chip.cl 511).xfer = some ⟨false, 0, 64, 2, [0], none⟩ ∧
    (1 : Nat) ∉ [0] ∧ (clusterState 0).chip.clX 511 0 % 2 ^ 41 % 64 = 0 ∧
    (clusterState 0 fun c => c.put (CL_X_LO.lo 511 0) 8).chip.clX 511 0 % 64 ≠ 0 := by decide +kernel

/-! Witnesses of O38 (ClusterControl). -/

theorem witness_ClusterControl : let s := clusterState 0
    s.chip.clState 511 = 2 ∧ State.reset.chip.clState 511 = 0 ∧ s.chip.clClocked 511 = true ∧ (s.chip.cl 511).redirs = [] ∧
    s.chip.flag (CL_STATUS.ucode_valid 511) = true ∧ State.reset.chip.flag (CL_STATUS.ucode_valid 0) = false ∧
    (withFields [(CL_STATUS.ucode_busy 511, 1)]).chip.flag (CL_STATUS.ucode_busy 511) = true ∧
    ((s.chip.cl 511).word 0).bad = false ∧
    (((clusterState 0 id { lm := [(0, ⟨5, 3, false⟩)] }).chip.cl 511).word 0).bad = true := by decide +kernel

/-! Witnesses of O39 (DramExtents). -/

/-- Controllers ACTIVE, the power-up fill over. -/
def dramState (fs : List (Fld × Nat)) : State :=
  withFields ([(DMC_STATUS.state 10, 2), (DMC_STATUS.state 35, 2), (DMC_MAP_STATUS.init_busy, 0), (QC_STATUS.ready 1, 1)] ++ fs)
/-- An apply of extents 0 and 63 on its way: extent 63 to a TILE set of grain 256 B. -/
def applyState : State := withChip (fun c => c.onDram fun d => { d with applying := [0, 63] })
  { dramState [(DMC_MAP_STATUS.busy, 1), (DMC_MAP.mode 63, 1), (DMC_MAP.grain 63, 0), (DMC_MAP.grain 0, 8)] with
    mem := [(5, 1#8), (2 ^ 41 - 1, 2#8), (2 ^ 33, 3#8)] }
theorem witness_DramExtents :
    Tab.get 8 State.reset.chip.dram.maps (extentOf (2 ^ 41 - 1)) / 2 = 4 ∧ Tab.get 8 [(63, 17)] 63 / 2 = 8 ∧
    applyState.chip.flag DMC_MAP_STATUS.busy = true ∧ applyState.chip.applyBusy = false ∧
    (∀ x ∈ applyState.chip.dram.applying, x < 64) ∧ extentOf (2 ^ 41 - 1) ∈ applyState.chip.dram.applying ∧
    (dramState []).chip.flag DMC_MAP_STATUS.busy = false ∧ (dramState []).chip.pwr.mark = none ∧
    (dramState []).chip.flag DMC_MAP_STATUS.init_busy = false := by decide +kernel
theorem witness_DramExtents_fill :
    let s := withFields [(DMC_MAP_STATUS.init_done, 63)]
    s.chip.flag DMC_MAP_STATUS.init_busy = true ∧ s.chip.pwr.mark = none ∧ s.chip.fld DMC_MAP_STATUS.init_done = 63 := by
  decide +kernel
/-- The worked example of chapter 11 (Table 11.2). -/
theorem test_placement :
    let p := ({} : Chip).place 0x8054E9F000
    p.c36 = 19 ∧ p.ctl = 10 ∧ p.ch = 2 ∧ p.gch = 42 ∧ p.slot = 695552 ∧ p.bank = 8 ∧ p.row = 679 ∧ p.slot % 32 = 0 ∧
    p.chk = 23 ∧ p.chkCtl = 14 ∧ p.chkCh = 2 ∧ p.chkByte = 56 := by decide +kernel

/-! Witnesses of O40 (DramRequests). -/

/-- One request in the queue of its bank, the last bank of the last controller, and one whose check bytes are awaited. -/
def requestState (r : DReq) : State :=
  withChip (fun c => (c.setQueue 35 (c.place r.addr).qnum [r]).onCtl 35 fun d => { d with ring := [⟨.bar2, 1, 0, 64, 0, 0, false, false, []⟩] })
    (dramState [])
theorem witness_DramRequests : PlainLine (dramState []) 0x8054E9F000 ∧ DramOpen (dramState []) 10 ∧
    (({} : Chip).place 0x8054E9F000).ctl = 10 ∧ ((dramState []).chip.ctl 10).entry = none ∧
    (dramState []).chip.bankQueue 10 (({} : Chip).place 0x8054E9F000).qnum = [] := by
  unfold PlainLine DramOpen; decide +kernel
theorem witness_DramRequests_serve :
    let a := 2199023157184
    let r : DReq := ⟨.streamer 9, 7, 3, a, 1, 0, false, false, []⟩
    let s := requestState r
    DramOpen s 35 ∧ (s.chip.place a).ctl = 35 ∧ s.chip.bankQueue 35 (s.chip.place a).qnum = [r] ∧
    (∀ i < 32, i ≠ (s.chip.place a).bank → s.chip.bankQueue 35 ((s.chip.place a).ch * 32 + i) = []) ∧
    (s.chip.ctl 35).free r = true ∧ PlainLine s 64 ∧ PlainLine s a ∧ s.chip.dev 1 = 0 ∧
    s.chip.chFailed 35 (s.chip.place a).ch = false ∧ s.chip.chFailed (s.chip.place a).chkCtl (s.chip.place a).chkCh = false ∧
    (∀ e ∈ s.chip.dram.prs, e.2.closing = none) := by
  unfold PlainLine DramOpen; decide +kernel

/-! Witnesses of O41 (DramController). -/

/-- Controller 10 with field values and parts of its own state. -/
def ctlState (fs : List (Fld × Nat)) (f : DCtl → DCtl) : State := withChip (fun c => c.onCtl 10 f) (dramState fs)
theorem witness_DramController :
    let r : DReq := ⟨.bar2, 1, 0, 0x8054E9F000, 0, 0, false, false, []⟩
    let s := ctlState [] fun d => { d with queues := [(72, [r])], owed := [(4, 7)] }
    s.chip.fld (DMC_STATUS.state 10) = 2 ∧ Tab.get 0 (s.chip.ctl 10).owed 4 = 7 ∧ (s.chip.bankQueue 10 72).isEmpty = false ∧
    (dramState []).chip.fld (DMC_CTRL.pd_idle 10) = 100 ∧ (dramState []).chip.ctlIdle 10 = true ∧
    (dramState []).chip.quarterRun 1 = true ∧ ((dramState []).chip.ctl 10).entry = none ∧ (dramState []).chip.pwr.mark = none ∧
    (dramState []).chip.anyRunning = false ∧ (dramState []).chip.earliest = none := by decide +kernel
theorem witness_DramController_entry (issued : Bool) :
    let s := ctlState [] fun d => { d with entry := some (3, issued) }
    (s.chip.ctl 10).entry = some (3, issued) ∧ DramOpen s 10 ∧ PlainLine s 0x8054E9F000 ∧ (s.chip.place 0x8054E9F000).ctl = 10 := by
  cases issued <;> unfold PlainLine DramOpen <;> decide +kernel
theorem witness_DramController_train :
    let s := ctlState [(DMC_STATUS.ch_training 10, 5), (DMC_STATUS.state 10, 1)] fun d => { d with train := some ⟨[0], 5, 2, 0⟩ }
    (s.chip.ctl 10).train = some ⟨[s.chip.fld (DMC_STATUS.sp_active 10)], 5, 2, 0⟩ ∧ (s.chip.ctl 10).want = none ∧
    s.chip.pwr.mark = none ∧ s.chip.fld (DMC_STATUS.ch_training 10) = 5 ∧ 5 &&& (5#4).toNat = 5 ∧ 5 &&& (1#4).toNat ≠ 5 ∧
    s.chip.pendingSnap 150 = none := by decide +kernel
theorem witness_DramController_switch :
    let s := ctlState [(DMC_STATUS.state 10, 6), (DMC_TRAIN_STORED.sp 10, 4), (DMC_PPR_STATUS.busy 10, 1)] fun d =>
      { d with want := some 2 }
    s.chip.fld (DMC_STATUS.state 10) = 6 ∧ (s.chip.ctl 10).want = some 2 ∧ bit (s.chip.fld (DMC_TRAIN_STORED.sp 10)) 2 = true ∧
    s.chip.pendingSnap 150 = none ∧ s.chip.flag (DMC_PPR_STATUS.busy 10) = true := by decide +kernel
theorem witness_DramController_repair :
    let s := ctlState [(DMC_PPR_ADDR.ch 10, 3), (DMC_PPR_ADDR.bank 10, 31), (DMC_PPR_STATUS.busy 10, 1)] fun d => { d with spares := [127] }
    s.chip.pprAvail 10 = true ∧ s.chip.flag (DMC_PPR_STATUS.busy 10) = true ∧ (s.chip.ctl 10).want = none ∧ s.chip.dev 0 = 0 := by
  decide +kernel

/-! Witnesses of O42 (EccOutcomes). -/

/-- A read of line 1 whose check bytes are awaited, the difference of the line's check bytes `v`. -/
def eccState (v : Nat) (r : DReq := ⟨.bar2, 1, 0, 64, 0, 0, false, false, []⟩) : State :=
  withChip (fun c => (c.onCtl 35 fun d => { d with ring := [r], fixes := [1] }).setDev 1 v) (dramState [])
/-- A failed lane: bytes 20 to 23 of a line wrong, all four corrected (chapter 12, Table 12.3). -/
theorem test_lane : rsDecode 4 (rsCheck (0x5A0180FF * 2 ^ 160)) = .fixed ⟨0x5A0180FF * 2 ^ 160, 0, 4⟩ ∧
    rsDecode 3 (rsCheck (0x5A0180FF * 2 ^ 160)) = .lost := by decide +kernel
theorem witness_EccOutcomes : PlainLine (eccState 5) 64 ∧ ((eccState 5).chip.ctl 35).ring ≠ [] ∧
    (∃ f, (eccState 5).decodeLine 35 1 = .fixed f) ∧ (eccState poisonMark).decodeLine 35 1 = .poison ∧
    (eccState 0x0102030405060708).decodeLine 35 1 = .lost ∧ (eccState 0).decodeLine 35 1 = .clean ∧
    ((eccState 5).chip.ctl 35).fixes = [1] ∧ (eccState 5).chip.bankQueue 35 ((eccState 5).chip.place 64).qnum = [] ∧
    (∀ e ∈ (eccState 5).chip.dram.prs, e.2.closing = none) ∧
    (eccState 5).chip.flag (ECC_CTRL.wb_en 35) = true ∧ (eccState 5).chip.fld (ECC_CTRL.wb_thresh 35) = 1 := by
  refine ⟨by unfold PlainLine; decide +kernel, by decide +kernel, ⟨⟨0, 5, 1⟩, by decide +kernel⟩, ?_⟩; decide +kernel
theorem witness_EccOutcomes_patrol :
    let c := (dramState []).chip
    let u := c.nextData 1 (2 * 9 + 1) 8 0
    u < 2 ^ 28 ∧ c.nextData 1 19 8 (u + 1) < 2 ^ 28 ∧ (c.unplace 1 19 u).isSome ∧ c.flag (PAT_CTRL.en 10) = true ∧
    c.quarterRun 1 = true ∧ c.fld (DMC_STATUS.state 10) = 2 ∧ c.flag DMC_MAP_STATUS.init_busy = false ∧ c.pwr.mark = none ∧
    c.chFailed 10 2 = false := by decide +kernel
theorem witness_EccOutcomes_lap :
    let s := ctlState [] fun d => { d with pos := [(0, 2 ^ 28), (1, 2 ^ 28), (2, 2 ^ 28), (3, 2 ^ 28)], lines := 954437632 }
    (∀ i < 4, Tab.get 0 (s.chip.ctl 10).pos i = 2 ^ 28) ∧ s.chip.pwr.mark = none := by decide +kernel

/-! Witnesses of O43 (ProtectedRanges). -/

/-- Range 15 with base 0x40_0000_0000, 2 MiB, its metadata at 0x40_4000_0000, in state `st`; KID slots 2 and 3 ACTIVE. -/
def rangeState (st : Nat) (fs : List (Fld × Nat)) : State :=
  withChip (fun c => ((c.putAct (PR_BASE_HI.base_hi 15) 0x40).putAct (PR_META_HI.meta_hi 15) 0x40).putAct
      (PR_META_LO.meta_lo 15) 0x400 |>.putAct (PR_CFG.kid_slot 15) 2)
    (dramState ([(PR_STATE.state 15, st), (PR_KID.state 2, 2), (PR_KID.kid 2, 0x2C), (PR_KID.state 3, 2), (PR_KID.kid 3, 7)] ++ fs))
theorem witness_ProtectedRanges :
    let c := (rangeState 2 []).chip
    c.fld (PR_KID.state 2) ≠ 0 ∧ c.fld (PR_KID.state 5) = 0 ∧ c.fld (PR_KID.kid 2) = (0x2C#8).toNat ∧
    (∀ t < 16, t ≠ 5 → c.fld (PR_KID.state t) ≠ 0 → c.fld (PR_KID.kid t) ≠ (0x2D#8).toNat) ∧
    (rangeState 2 [(PR_KID.state 5, 1)]).chip.fld (PR_KID.state 5) = 1 ∧ c.kidUsers 2 ≠ 0 ∧ c.kidUsers 3 = 0 ∧
    c.prState 15 = 2 ∧ c.act (PR_CFG.kid_slot 15) ≠ 3 ∧ c.pwr.mark = none ∧ c.dram.dev = [] ∧
    (rangeState 1 []).chip.prState 15 = 1 ∧ (rangeState 3 [(PR_STATE.target 15, 3)]).chip.prState 15 = 3 ∧
    (rangeState 4 []).chip.prState 15 = 4 ∧ c.prState 0 = 0 ∧ 32767 < c.prSize 15 / 64 := by decide +kernel
/-- The worked example of chapter 13 (Table 13.2): the block of the line, and the items that belong to it. -/
theorem test_range :
    cipherBlock 0x2C (0x4001234540 / 64) 0x417 2 = [0x2C, 0x01, 0x00, 0x04, 0x8D, 0x15, 0, 0, 0, 0, 0, 0, 0x04, 0x17, 0x00, 0x02] ∧
    (let c := withChip (fun c => (((c.putAct (PR_CFG.size 3) 3).putAct (PR_BASE_HI.base_hi 3) 0x40).putAct
        (PR_META_HI.meta_hi 3) 0x40).putAct (PR_META_LO.meta_lo 3) 0x400)
     c.chip.prSize 3 = 2 ^ 30 ∧ c.chip.prLevels 3 = 7 ∧ c.chip.tagAddr 3 298261 = 0x40502468A8 ∧
     c.chip.nodeAddr 3 0 37282 = 0x4040246880 ∧ c.chip.nodeTagAddr 3 0 37282 = 0x4058048D10 ∧
     c.chip.nodeAddr 3 2 582 = 0x4049009180 ∧ c.chip.nodeAddr 3 6 0 = 0x4049249000) := by decide +kernel

/-! Witnesses of O44 (ProtectedAccess). -/

theorem witness_ProtectedAccess :
    let c := (rangeState 2 []).chip
    c.metaOf 0x4040000000 = some 15 ∧ c.metaOf 0x4000000040 = none ∧ c.rangeOf 0x4000000040 = some 15 ∧
    c.fld BIST_STATUS.state ≠ 3 ∧ c.offline (c.place 0x4000000040).q = false ∧ c.offline (c.place 0x4040000000).q = false ∧
    c.dram.applying = [] ∧ c.tollgate .bar2 false 15 = false ∧ c.tollgate (.dma 63) true 15 = false ∧
    c.flag PR_TG_LAST_HI.valid = false ∧ c.prState 15 ≠ 1 ∧ (rangeState 1 []).chip.prState 15 = 1 := by decide +kernel
/-- A read and a write of the range's second line wait for their verification, and a read for its check bytes. -/
def verifyState : State :=
  let r (who : Agent) (kind : Nat) : DReq := ⟨who, 7, kind, 0x4000000040, 9, 0, false, false, []⟩
  withChip (fun c => (c.pushLayer (c.rangeLayer 15 2 1)).onCtl 10 fun d =>
    { d with ring := [r (.streamer 3) 0], verify := [⟨r .hub 0, none⟩, ⟨r (.streamer 3) 0, some 5⟩, ⟨r .hub 1, none⟩] }) (rangeState 2 [])
theorem witness_ProtectedAccess_verify :
    let c := verifyState.chip
    c.rangeOf 0x4000000040 = some 15 ∧ c.prState 15 ≠ 4 ∧ c.underPoison 15 1 = false ∧ c.dev (0x4000000040 / 64) = 0 ∧
    (∀ e ∈ c.dram.prs, e.2.closing = none) ∧ c.act (PR_CFG.spec 15) = 1 ∧ ((c.ctl 10).verify.map fun v : DTag => v.fwd) = [none, some 5, none] ∧
    c.layerAt 0x4000000040 = some ⟨0x4000000000, 0x4000200000, 1, 0, 0x2C, 1⟩ ∧
    c.lineCtr ⟨0x4000000000, 0x4000200000, 1, 0, 0x2C, 1⟩ (0x4000000040 / 64) = 1 ∧ (c.ctl 10).ring ≠ [] ∧
    (((withChip (fun c => c.onCl 511 fun x => { x with read := [(128, 4)] })).chip.cl 511).read.lookup (191 / 64 * 64)).isSome := by decide +kernel

/-! Witnesses of O45 (JunctionNetwork). -/

/-- A READ from the endpoint (sx, sy, sp) to port `dp` of junction (dx, dy). -/
def readHead (sx sy sp dx dy dp : Nat) : Line := BitVec.ofNat 512 (dx + 16 * dy + 256 * dp + 4096 * (sx + 16 * sy + 256 * sp))
/-- The routes of chapter 14: from cluster 37 of quarter 2 to controller 10 along row 11 and then column 14. -/
theorem test_route : routePort (64 * 2 + 8 * 3) (readHead 0 11 2 14 0 3) = 1 ∧ meshXY (64 * 2 + 8 * 3) = (0, 11) ∧
    routePort (64 * 3 + 8 * 3 + 6) (readHead 0 11 2 14 0 3) = 0 ∧ meshXY (64 * 3 + 8 * 3 + 6) = (14, 11) ∧
    routePort (64 * 1 + 6) (readHead 0 11 2 14 0 3) = 7 ∧ meshXY (64 * 1 + 6) = (14, 0) ∧ bit (nocPorts (64 * 1 + 6)) 3 = true := by
  decide +kernel
theorem witness_JunctionNetwork :
    let h := readHead 0 11 2 14 0 3
    let c := (dramState []).chip
    pktBad h [] = false ∧ pktPosted h = false ∧ pktPosted (h + 2 ^ 34) = true ∧ pktBad (h + 2 ^ 34) [] = false ∧
    pktBad (h + 2 ^ 24) [] = true ∧ bit h.toNat 11 = false ∧ c.flag (NOC_JSTATUS.swapping 70) = false ∧
    c.fld (NOC_JSTATUS.link_down 70) = 0 ∧ routePort 70 (responseTo h 0 0) < 4 ∧ hbits h 8 3 = 3 ∧
    bit (c.fld (NOC_JCFG.port_en 70)) 3 = true ∧ c.portState 70 3 = 0 ∧ c.pwr.entering = none ∧
    bit ((withFields [(NOC_JCFG.port_en 70, 7)]).chip.fld (NOC_JCFG.port_en 70)) 3 = false ∧
    (withFields [(NOC_JSTATUS.lstate 70, 128)]).chip.portState 70 3 = 2 ∧
    c.domainBack (.quarter 1) = true ∧ (withFields [(NOC_JSTATUS.link_down 6, 8)]).chip.linkDown 6 3 = true := by decide +kernel
/-- A junction with a link that failed three replays, a request that is awaited, and a swap in progress. -/
def juncState : State :=
  withChip (fun c => c.onJunc 259 fun x => { x with fails := [(2, 3)], open_ := [(1, 5, 70)], waiting := [3, 5] })
    (withFields [(NOC_JSTATUS.swapping 259, 1)])
theorem witness_JunctionNetwork_link :
    let c := juncState.chip
    Tab.get 0 (c.junc 259).fails 2 = 3 ∧ c.linkDown 259 2 = false ∧ 5 ∈ (c.junc 259).waiting ∧ (c.junc 259).waiting.erase 5 ≠ [] ∧
    (c.junc 259).open_.find? (fun o => o.1 = 1 ∧ o.2.1 = (5#10).toNat) = some (1, 5, 70) ∧ c.flag NOC_TIMEOUT_LAST.valid = false ∧
    c.flag (NOC_JSTATUS.swapping 259) = true ∧ (c.junc 259).held = [] ∧ c.flag (NOC_JSTATUS.swapping 3) = false := by decide +kernel

/-! Witnesses of O46 (HostRings). -/

/-- The link up with Bus Master Enable, ring 255 enabled with eight entries, and more register values. -/
def hostState (fs : List (Fld × Nat)) (f : Chip → Chip := id) : State :=
  withChip f (withFields ([(HIF_STATUS.bme, 1), (HIF_STATUS.link_up, 1), (RING_CFG.log2_size 255, 3), (RING_PI.pi 255, 4)] ++ fs))
/-- An ended run of a descriptor. -/
def endedRun (d : Desc) (st : Option Nat) (w : List DmaReq) (got : List Nat) : DmaRun :=
  ⟨2, 0x1000, d, 0, got, w, false, 0, 0, d.len, st, 9, false⟩
theorem witness_HostRings :
    let c := (hostState []).chip
    c.inRecovery = false ∧ c.winAddr 5 % 64 + 59 ≤ 64 ∧ c.ringOn 255 = true ∧ c.ringOn 0 = false ∧
    diff32 8 (c.fld (RING_PI.pi 255)) ≤ c.ringSize 255 ∧ diff32 8 (c.fld (RING_CI.ci 255)) ≤ c.ringSize 255 ∧
    c.ringSize 255 < diff32 3 (c.fld (RING_PI.pi 255)) ∧ diff32 0 (c.fld (RING_CI.ci 255)) ≤ diff32 (c.fld (RING_HEAD.head 255)) 0 ∧
    diff32 (c.fld (RING_HEAD.head 255)) 0 < diff32 1 0 ∧ (c.ring 255).stopped = false ∧ (c.ring 255).fetch ≠ c.fld (RING_PI.pi 255) ∧
    c.hostUp = true ∧ c.pwr.mark = none ∧ c.router.queue = [] ∧ (descOf (2 ^ 511)).own = true ∧ (descOf 0).own = false ∧
    c.vectorOpen 0 = false := by decide +kernel
theorem witness_HostRings_run :
    let d : Desc := ⟨0, 0, 0, 0, 0, 0, true⟩
    let c := (hostState [(MSIX_CTL.masked 0, 0), (HIF_STATUS.d3hot, 0)] fun c =>
      { c.onRing 255 (fun g => { g with runs := [endedRun d (some 1) [] []], hold := 2 }) with
        host := { msixEn := true, reads := [(4, 64, 8)] } }).chip
    (c.ring 255).runs = [endedRun d (some 1) [] []] ∧ bit d.word 8 = false ∧ (c.ring 255).hold = 2 ∧
    c.vectorOpen (c.fld (RING_IRQ.vector 255)) = true ∧ c.host.reads.find? (fun x => x.1 = 4) = some (4, 64, 8) := by decide +kernel

/-! Witnesses of O47 (DmaTransfers). -/

/-- Channel 63 IDLE with one descriptor ready in ring 255. -/
def dmaState (d : Desc) (fs : List (Fld × Nat) := []) (f : Chip → Chip := id) : State :=
  hostState ([(DMA_CTRL.en 63, 1), (DMA_STATUS.state 63, 1)] ++ fs) fun c => f (c.onRing 255 fun g => { g with ready := [(2, d)] })
theorem witness_DmaTransfers :
    let nop : Desc := ⟨0, 0, 8, 0, 0, 0, true⟩
    let move (op : Nat) : Desc := ⟨0x8003000024, 0x8003000024, 0x4000, op, 0, 0, true⟩
    let c := (dmaState (move 4)).chip
    (dmaState nop).chip.dmaReady 63 = true ∧ (dmaState nop).chip.ringHead 255 = some (2, nop) ∧
    (dmaState nop).chip.nextRing 63 false = some 255 ∧ nop.bad = false ∧ (move 1).bad = false ∧ (move 2).bad = false ∧
    (move 3).bad = false ∧ (move 1).op = 1 ∧ (move 1).shuffle = 0 ∧ (move 7).op = 7 ∧ (move 4).bad = false ∧
    c.nextRing 63 true = some 255 ∧ (dmaState (move 4)).chip.hostUp = true ∧ ¬(0 ∈ (c.dma 63).draining) ∧ ¬(0 ∈ (c.dma 63).aged) ∧
    ((withChip (fun c => c.putAct (FL_DMA_CH.ch 0) 63) (dmaState (move 4))).chip.act (FL_DMA_CH.ch ((move 4).src % 4)) = 63) ∧
    c.flWr 0 - c.drainPtr 63 0 < c.fld (DMA_PACE.hi_kib 63) * 1024 ∧ c.drainPtr 63 0 + 0x4000 < 2 ^ 64 ∧
    (dmaState (move 4) [(DMA_STATUS.state 63, 3)] fun c => c.onDma 63 fun y => { y with failQ := some 3 }).chip.fld (DMA_STATUS.state 63) = 3 := by
  decide +kernel
theorem witness_DmaTransfers_run :
    let d : Desc := ⟨0x8003000024, 0x1000, 20, 2, 0, 0, true⟩
    let x := endedRun d none [.read 0x8003000000 36 20] []
    let c := (hostState [(DMA_STATUS.state 63, 2)] fun c => c.onRing 252 fun g => { g with runs := [x] }).chip
    let y := endedRun d none [.host 64] []
    x.size x.unit = 20 ∧ x.total ≤ x.offset (x.unit + 1) ∧ (c.ring 252).runs[0]? = some x ∧ c.hostUp = true ∧
    (c.dma 63).waits = [] ∧ (∀ i < 4, 0 < i → (c.ring (252 + i)).runs = []) ∧ y.status = none ∧ d.op = 2 ∧ d.shuffle = 0 ∧
    (let s := (withFields [(DMA_CTRL.t2 63, 1), (DMA_STATUS.state 63, 1)]).chip
     s.flag (DMA_CTRL.t2 63) = true ∧ s.fld (DMA_STATUS.state 63) = 1 ∧ s.fld (DMA_T2_COUNT.count 63) = 0 ∧ (s.dma 63).stopping = false) ∧
    (let s := ({} : Chip)
     s.fld (DMA_STATUS.state 63) = 0 ∧ s.flag (DMA_CTRL.en 63) = false ∧ s.dmaBusy 63 = false) := by decide +kernel
/-- The worked example of chapter 15: the symbol of channel 10 in vector 13 goes from plane bits [27:26] to vector bits [21:20]. -/
theorem test_transpose : transpose 2 (3 * 2 ^ (32 * 10 + 26)) = 3 * 2 ^ (13 * 32 + 20) ∧
    untranspose 2 (3 * 2 ^ (13 * 32 + 20)) = 3 * 2 ^ (32 * 10 + 26) := by decide +kernel

/-! Witnesses of O48 (EventRouter). -/

/-- The streamer event of the example of chapter 16 on its way, with its route. -/
def eventState (fs : List (Fld × Nat)) : State :=
  withChip (fun c => { c with inflight := [⟨410, 4, 77, [1]⟩] })
    (withFields ([(EV_ROUTE.vector 410, 40), (EV_ROUTE.mask 410, 0), (EV_ROUTE.ring 410, 200)] ++ fs))
theorem witness_EventRouter :
    let c := (eventState [(EV_ROUTE.record 410, 1)]).chip
    c.flag (EV_ROUTE.en 410) = true ∧ (eventState [(EV_ROUTE.en 410, 0)]).chip.flag (EV_ROUTE.en 410) = false ∧
    (eventState []).chip.flag (EV_ROUTE.record 410) = false ∧ c.flag (EV_ROUTE.forward 410) = false ∧
    c.latched 410 = false ∧ (eventState [(EV_LATCH.latch 12, 2 ^ 26)]).chip.latched 410 = true ∧
    c.flag (EV_ROUTE.mask 410) = false ∧ c.vectorOpen 40 = false ∧ c.tileUp = true ∧ c.evRing 200 = false ∧
    (eventState [(PWR_STATUS.state, 3)]).chip.tileUp = false ∧ c.hostUp = false ∧ c.router.standby = [] := by decide +kernel
theorem witness_EventRouter_msix :
    let s := withChip (fun c => { (c.onRing 200 fun g => { g with buf := some (3, ⟨0, 0, 128, 0, 0, 0, true⟩, 1, 9) }) with
      host := { msixEn := true } }) (hostState [(EV_PBA.pending 63, 2 ^ 31)])
    s.chip.hostUp = true ∧ s.chip.host.msixEn = true ∧ bit (s.chip.fld (EV_PBA.pending 63)) 31 = true ∧
    (s.chip.ring 200).buf.isSome ∧ s.chip.flag (MSIX_CTL.masked 2047) = true ∧ bit (s.chip.fld (EV_PBA.pending 0)) 0 = false := by
  decide +kernel
theorem witness_EventRouter_fwd :
    let c := (withFields [(HY_CTRL.manager, 1), (TRK_STATUS.state 7, 4), (EV_FWD_RING.en, 1), (RING_CFG.log2_size 0, 3),
      (RING_CFG.kind 0, 1)]).chip
    c.portActive 7 = true ∧ (c.port 7).window = [] ∧ (c.port 7).expect = ({} : TrkPort).expect ∧ c.isManager = true ∧
    c.evRing (c.fld EV_FWD_RING.ring) = true ∧ c.tileUp = true ∧ c.hostUp = false ∧ c.router.queue = [] ∧
    (withFields [(HY_CTRL.manager, 1), (TRK_STATUS.state 7, 4)]).chip.flag EV_FWD_RING.en = false := by decide +kernel
/-- The example of chapter 16: the route register's value, its address, the latch and the table entry. -/
theorem test_route_word : (EV_ROUTE.vector 410).addr = 0x00031668 ∧ (EV_LATCH.latch (410 / 32)).addr = 0x00030130 ∧ 410 % 32 = 26 ∧
    (MSIX_ADDR_LO.addr_lo 40).addr = 0x00038280 ∧
    (let c := ({} : Chip).evRouteWrite 410 0x00C8E028
     c.fld (EV_ROUTE.vector 410) = 40 ∧ c.flag (EV_ROUTE.mask 410) = false ∧ c.flag (EV_ROUTE.record 410) = true ∧
     c.flag (EV_ROUTE.forward 410) = true ∧ c.flag (EV_ROUTE.en 410) = true ∧ c.fld (EV_ROUTE.ring 410) = 200) := by decide +kernel

/-! Witnesses of O49 (TrunkLinks). -/

/-- Port 7 in a state, with register fields set. -/
def linkState (st : Nat) (fs : List (Fld × Nat)) (p : TrkPort := {}) : State :=
  withChip (fun c => c.setPort 7 p) (withFields ([(TRK_STATUS.state 7, st), (TRK_CTRL.en 7, 1), (TRK_CTRL.role 7, 2)] ++ fs))
theorem witness_TrunkLinks :
    let c := (linkState 0 []).chip
    let m := (withFields [(HY_CTRL.manager, 1)]).chip
    c.trkState 7 = 0 ∧ c.roleLegal 7 2 = true ∧ c.roleLegal 7 1 = true ∧ m.isManager = true ∧ m.roleLegal 7 1 = false ∧
    (m.port 7).roleNext = none ∧ (withFields [(TRK_CTRL.role 0, 3)]).chip.roleLegal 7 3 = false ∧
    (linkState 1 []).chip.trkState 7 = 1 ∧ c.flag (TRK_CTRL.en 7) = true ∧ c.tileUp = true ∧
    (linkState 7 []).chip.trkState 7 = 7 ∧ ((linkState 2 [] { storedFor := some 9, fails := 2 }).chip.port 7).fails = 2 ∧
    (linkState 3 []).chip.trkState 7 = 3 ∧ (linkState 3 []).chip.flag (TRK_ERR.train_fail 7) = false := by decide +kernel
theorem witness_TrunkLinks_active :
    let m : TMsg := ⟨65535, .launch, []⟩
    let c := (linkState 5 [] { window := [m], peer := some (3, 4) }).chip
    let a := (linkState 4 [(TRK_ERR_LIMIT.limit 7, 16)] { window := [m], errs := 17 }).chip
    c.trkState 7 = 5 ∧ (c.port 7).peer = some (3, 4) ∧ (c.port 7).window = [] ++ m :: [] ∧ (c.port 7).waiting = [] ∧
    (c.port 7).held = [] ∧ a.portActive 7 = true ∧ a.fld (TRK_ERR_LIMIT.limit 7) < (a.port 7).errs ∧ (a.port 7).waiting = [] ∧
    ((linkState 4 [] { errs := 16 }).chip.port 7).errs ≤ (linkState 4 []).chip.fld (TRK_ERR_LIMIT.limit 7) ∧
    (linkState 8 []).chip.trkState 7 = 8 := by decide +kernel
theorem witness_TrunkLinks_test :
    let a := (linkState 4 []).chip
    let b := (linkState 6 [] { testVal := 65776, inject := 2 }).chip
    (∀ g < 64, a.fld (PGR_STATUS.state g) ≠ 3) ∧ (withFields [(PGR_STATUS.state 63, 3)]).chip.fld (PGR_STATUS.state 63) = 3 ∧
    (a.port 7).window = [] ∧ (a.port 7).expect = 0 ∧ b.trkState 7 = 6 ∧ bits (b.port 7).testVal 16 16 = 1 ∧
    (b.port 7).inject ≠ 0 ∧ (a.port 7).inject = 0 ∧ a.fld (TRK_INJ.count 7) = 1 ∧
    (linkState 7 [(PWR_STATUS.state, 3)]).chip.fld PWR_STATUS.state = 3 ∧ (linkState 7 []).chip.pwr.sealing = none := by decide +kernel

/-! Witnesses of O50 (Hierarchy). -/

/-- A hierarchy whose table, routes and pending requests are given, with port 7 ACTIVE in a role. -/
def hyState (role : Nat) (fs : List (Fld × Nat)) (h : Hier := {}) : State :=
  withChip (fun c => { c with hy := h }) (linkState 4 ([(TRK_CTRL.role 7, role)] ++ fs))
theorem witness_Hierarchy :
    let m := (hyState 2 [(HY_CTRL.manager, 1)]).chip
    let a := (hyState 2 [(HY_CTRL.manager, 1), (HY_CTRL.auto_number, 1)]).chip
    let e (st : Nat) : HyEntry := ⟨9, true, st, 5, [3], none⟩
    m.portActive 7 = true ∧ (m.port 7).window = [] ∧ (m.port 7).expect = 0 ∧ m.serial = 0 ∧ m.pathLoops 9 [7] = false ∧
    m.hyNumber 9 = none ∧ m.flag HY_CTRL.auto_number = false ∧ a.flag HY_CTRL.auto_number = true ∧ a.hyFree = some 1 ∧
    (hyState 2 [(HY_CTRL.manager, 1)] { tab := [(4, e 1)] }).chip.hyNumber 9 = some 4 ∧
    (hyState 2 [(HY_CTRL.manager, 1)] { tab := [(4, e 2)] }).chip.pathLoops 9 [3, 1] = true ∧
    (hyState 2 [(HY_CTRL.manager, 1)] { tab := [(4, e 2)] }).chip.pathLoops 9 [7] = false ∧
    (∀ n < 32, m.fld (WS_CFG.b_kind n) ≠ 3) ∧ (hyState 1 []).chip.flag HY_STATUS.enrolled = false ∧ (hyState 1 []).chip.isManager = false ∧
    m.fld HY_TAB_SEL.tile = 0 ∧ (m.hyEntry 0).state = 0 ∧ (m.hyEntry 0).reserve = false := by decide +kernel
theorem witness_Hierarchy_relay :
    let c := (hyState 2 [(HY_STATUS.enrolled, 1), (HY_STATUS.up, 6), (TRK_STATUS.state 6, 4), (MP_STATUS.hops, 4)]
      { routes := [(9, 6)], pending := [⟨9, 5, [7], false, 7, 4, 77⟩] }).chip
    c.isManager = false ∧ c.flag HY_STATUS.enrolled = true ∧ c.portActive 6 = true ∧ (c.port 6).window = [] ∧
    c.fld MP_STATUS.hops + (([] : List Nat).length + 1) ≤ 5 ∧ c.routeTo 9 = some 6 ∧
    (c.hy.pending.find? fun x => x.serial = 9).isSome ∧
    (let f := (hyState 3 [(HY_STATUS.enrolled, 1), (HY_STATUS.up, 6), (HY_STATUS.alt, 7), (TRK_STATUS.alt_ready 7, 1)]).chip
     f.portActive 6 = false ∧ f.flag (TRK_STATUS.alt_ready 7) = true ∧ f.portActive 7 = true ∧ f.fld HY_CTRL.failover_ms = 20) ∧
    (let d := (withChip (fun c => { c with hy := { tab := [(4, ⟨9, true, 2, 5, [7], none⟩)] } }) (linkState 8 [(HY_CTRL.manager, 1),
        (TRK_STATUS.enrolled 7, 1), (TRK_PEER_SERIAL_LO.lo 7, 9)])).chip
     d.hyNumber 9 = some 4 ∧ (d.hyEntry 4).state = 2 ∧ d.trkState 7 = 8 ∧ (d.port 7).lostSent = false) := by decide +kernel

/-! Witnesses of O51 (CausewayPort). -/

/-- An enabled Causeway port with its state and register fields. -/
def cwState (w : Causeway) (fs : List (Fld × Nat)) : State :=
  withChip (fun c => { c with cw := w }) (withFields ([(CW_CTRL.en, 1), (CW_MEMBER.valid 63, 1), (CW_MEMBER.tile 63, 7),
    (CW_MEMBER_EPOCH.epoch 63, 2), (CW_MEMBER_EPOCH.seq 63, 65535), (CW_KEY.loaded, 2)] ++ fs))
/-- The ABORT of the chapter's example, for group 3 at 12 µs. -/
def abortFrame : CwFrame := ⟨0, 3, 5, bytesLE 9 12288000 ++ [3] ++ bytesLE 4 1 ++ [3] ++ bytesLE 2 3, 1, false⟩
theorem witness_CausewayPort_send :
    let c := (cwState {} [(CW_TX_T_LO.t_lo, 8192000)]).chip
    let q := (cwState { queue := [⟨1, 0, 4, [], 1, false⟩, abortFrame] } []).chip
    let o := (cwState { queue := [abortFrame], sending := some 5, slot := some (3, 5) } [(LQ_GROUP.group, 3)]).chip
    c.now + 8192000 ≤ c.fld3 CW_TX_T_LO.t_lo CW_TX_T_HI.t_hi CW_TX_T_TOP.t_top ∧ c.fld CW_TX_ACTION.scope = 1 ∧
    c.fld CW_TX_ACTION.type = 0 ∧ c.cwOn = true ∧ c.flag CW_STATUS.silent = false ∧ c.cw.sending = none ∧
    q.cw.queue = [⟨1, 0, 4, [], 1, false⟩] ++ abortFrame :: [] ∧ o.cw.frame (some 5) = some abortFrame ∧
    cwTime abortFrame.payload = 12288000 ∧ abortFrame.payload.length = 17 ∧ o.cwScope abortFrame.payload = true ∧
    badAction 3 1 = false ∧ o.namesOffline 3 1 = false ∧ (cwState {} [(CW_CTRL.beacon_src, 1)]).chip.flag CW_CTRL.beacon_src = true := by
  decide +kernel
theorem witness_CausewayPort_receive :
    let x : RxFrame := ⟨true, 7, 2, 32767, true, true, abortFrame.payload⟩
    let c := (cwState {} [(CW_MEMBER.seq_valid 63, 1)]).chip
    c.cwMember x = some 63 ∧ c.cwMember { x with epoch := 1 } = none ∧ c.flag (CW_MEMBER.seq_valid 63) = true ∧
    (x.seq + 65536 - c.fld (CW_MEMBER_EPOCH.seq 63)) % 65536 = 32768 ∧ bit (c.fld CW_KEY.loaded) 1 = true ∧
    bit (c.fld CW_KEY.loaded) 0 = false ∧ actionFormed x.payload = true ∧ (cwState {} []).chip.flag (CW_MEMBER.seq_valid 63) = false ∧
    (cwState { strange := 16 } []).chip.fld CW_Q_LIMIT.limit = 16 ∧
    (cwState { calm := 999 } [(CW_STATUS.quarantine, 1)]).chip.fld CW_Q_HOLD.ms = 1000 := by decide +kernel

/-! Witnesses of O52 (Waystations). -/

/-- Waystation 31 with its contents and register fields. -/
def wsState (w : Waystation) (fs : List (Fld × Nat)) : State := withChip (fun c => c.setWay 31 w) (withFields fs)
theorem witness_Waystations :
    let c := (wsState {} []).chip
    let m : WsMsg := ⟨[1, 2], 0, 0, 5, 5, 0, 0⟩
    let full := (wsState { queues := [(1, List.replicate 8 m)] } [(WS_OPEN.broken 31 0, 1)]).chip
    let one := (wsState { queues := [(1, [{ m with words := [9] }])], owner := some (1, 0) } [(WS_CFG.en 31, 0)]).chip
    c.wsAllowed 31 0 .host = true ∧ c.wsAllowed 31 1 .host = false ∧ c.wsAllowed 31 1 .twivel = true ∧ (c.way 31).fillFrom 0 = 0 ∧
    (full.way 31).fillFrom 0 = 16 ∧ full.flag (WS_OPEN.broken 31 0) = true ∧ c.flag (WS_OPEN.broken 31 0) = false ∧
    c.fld (WS_CFG.b_kind 31) = 1 ∧ (full.way 31).queue 1 = m :: List.replicate 7 m ∧ (one.way 31).queue 1 = [{ m with words := [9] }] ∧
    (one.way 31).opened 0 = [] ∧ (one.wsBound 31 0).1 = 0 ∧ (one.way 31).owner = some (partyOf .firmware) ∧ (c.way 31).owner = none ∧
    c.flag (WS_CFG.en 31) = true ∧ one.flag (WS_CFG.en 31) = false ∧ (c.way 31).queue 0 = [] := by decide +kernel
/-- Words of WS_CFG: the reset binding with en cleared, and with another end B. -/
theorem witness_Waystations_cfg :
    let c := (wsState {} []).chip
    (WS_CFG.b_kind 31).of 0x20 = c.fld (WS_CFG.b_kind 31) ∧ (WS_CFG.a_kind 31).of 0x20 = c.fld (WS_CFG.a_kind 31) ∧
    (WS_CFG.flush 31).of 0x20 = c.fld (WS_CFG.flush 31) ∧ (WS_CFG.b_num 31).of 0x20 = c.fld (WS_CFG.b_num 31) ∧
    (WS_CFG.peer_ws 31).of 0x20 = c.fld (WS_CFG.peer_ws 31) ∧ bit 0x20 0 = false ∧
    (WS_CFG.b_kind 31).of 0x40 ≠ c.fld (WS_CFG.b_kind 31) := by decide +kernel
theorem witness_Waystations_trunk :
    let c := (withChip (fun c => c.setWay 31 { opens := [(0, [7])], credits := 1, granted := 16 })
      (linkState 4 [(WS_CFG.b_kind 31, 3), (WS_CFG.b_num 31, 7)])).chip
    c.fld (WS_CFG.b_num 31) % 8 = 7 ∧ c.fld (WS_CFG.b_kind 31) = 3 ∧ c.wsAllowed 31 0 .host = true ∧ c.portActive 7 = true ∧
    (c.port 7).window = [] ∧ (c.way 31).opened 0 = [7] ∧ (c.way 31).queue 1 = [] ∧ 0 < (c.way 31).credits ∧
    16 ≤ (c.way 31).fillFrom 1 + (c.way 31).granted ∧ (wsState {} []).chip.fld (WS_CFG.b_kind 31) ≠ 3 := by decide +kernel

/-! Witnesses of O53 (ConfigLoads). -/

/-- The chapter's header for region 22. -/
def imgHeader : ImgHeader := ⟨true, 2, true, 0, 1, 4090, 257, 77, 0, [(22, true, false, 3)], true, 5⟩
/-- Region 22's load at a stage: what is set in it and which fields. -/
def loadState (f : CfgLoad → CfgLoad) (fs : List (Fld × Nat)) : State :=
  withChip (fun c => c.setLoad 1 (some (f ⟨false, 22, none, 0, [(22, 4)], none, none, none, 0, [], [], [], false, false⟩)))
    (withFields fs)
theorem witness_ConfigLoads :
    let c := (loadState id [(SEC_STATUS.fuse_key, 1)]).chip
    (∃ l, c.load 1 = some l ∧ l.was.map (·.1) = l.regions ∧ (22, 4) ∈ l.was ∧ l.header = none) ∧ imgCountsOk imgHeader = true ∧
    imgCountsOk { imgHeader with chunks := 0 } = false ∧ (imgHeader.descs.map (·.1)).head? = some 22 ∧ c.offline 1 = false ∧
    c.flag SEC_STATUS.fuse_key = true ∧ (withFields []).chip.flag SEC_STATUS.fuse_key = false ∧ c.portBusy 1 = true ∧
    (withFields [(CFG_EXPECT.region, 22)]).chip.portBusy 1 = false := by decide +kernel
theorem witness_ConfigLoads_kerb :
    let k : KerbRec := ⟨22, true, [], true⟩
    [k].map (·.region) = imgHeader.descs.map (·.1) ∧ [{ k with region := 7 }].map (·.region) ≠ imgHeader.descs.map (·.1) ∧
    ((loadState (fun l => { l with header := some imgHeader, kerbs := some [(22, [])] }) [(PGR_STATUS.state 22, 3)]).chip.gstate 22) = 3 := by
  decide +kernel
/-- The worked example's addresses: avenue frame 0xFF3 of the region, and the frame of region 7 that fails check 2 of R448. -/
theorem test_frame_address : 22 * 2 ^ 26 + 0xFF3 * 2 ^ 14 = 0x5BFCC000 ∧ 0x5BFCC000 / 2 ^ 26 = 22 ∧ 0x5C48C000 / 2 ^ 26 = 23 ∧
    frameClass 0xFF3 = 2 ∧ frameClass 0xFFA = 3 ∧ frameClass 0xFEF = 1 ∧ frameClass 0xA4F = 0 := by decide
theorem witness_ConfigLoads_frames :
    let s := withChip (fun c => c.each ((closurePorts (.region 22))) fun c p => c.setPortState p.1 p.2 2)
      (loadState (fun l => { l with header := some imgHeader, kerbs := some [], clamp := some 9, chunk := 5 }) [(RG_STATUS.state 22, 2)])
    (∃ l, s.chip.load 1 = some l ∧ s.chip.cfgClosed l = true ∧ l.clamp.isSome = true ∧ l.written.length < imgHeader.frames) ∧
    imgHeader.keySel = 1 ∧ imgHeader.descs.lookup 22 = some (true, false, 3) ∧ s.chip.load 4 = none := by decide +kernel
theorem witness_ConfigLoads_readback :
    let c := (withFields [(CFG_RB_REGION.region, 22), (CFG_RB_FIRST.index, 4095), (CFG_RB_COUNT.count, 1), (RG_STATUS.state 22, 4)]).chip
    c.fld CFG_RB_FIRST.index + c.fld CFG_RB_COUNT.count = 4096 ∧ c.rgState 22 = 4 ∧ c.portBusy 1 = false ∧
    (withChip (fun c => { c with cfg := { reads := [(3, some ⟨50, 0, 1⟩)] } })).chip.readback 3 = some ⟨50, 0, 1⟩ := by decide +kernel

/-! Witnesses of O54 (SweeperAndBist). -/

/-- A tile whose only LOADED region is global region 22, with the Sweeper running. -/
def sweepState (fs : List (Fld × Nat)) (f : Chip → Chip := id) : State :=
  withChip f (withFields ([(RG_STATUS.state 22, 4), (SW_STATUS.state, 1), (SW_STATUS.active, 15)] ++ fs))
theorem witness_SweeperAndBist_visit :
    let c := (sweepState []).chip
    let l := (sweepState [] fun c => c.onRegion 22 fun x => { x with live := [0], locator := [(1, some (3, 9, 1))] }).chip
    c.portBusy 1 = false ∧ c.nextFrame 1 (Tab.get 0 c.sw.pos 1) = some (22, 0) ∧ c.nextFrame 0 0 = none ∧
    l.nextFrame 1 0 = some (22, 1) ∧ Tab.get none (l.region 22).locator 1 = some (3, 9, 1) ∧ l.flag SW_CTRL.reload_en = true ∧
    Tab.get none (c.region 22).locator 0 = none ∧ Tab.get 0 (c.region 22).upsets 0 = 0 ∧ countOnes 33024 0x3F = 6 ∧
    countOnes 33024 0x7F = 7 ∧ l.swept 22 = true ∧ l.swept 21 = false ∧ c.nextFrame 1 (6 * 4096 + 0xA50) = some (22, 0xFF0) := by
  decide +kernel
theorem witness_SweeperAndBist_lap :
    let c := (sweepState [] fun c => c.onSw fun w => { w with done := [3, 2, 1, 0], expired := 2, reload := [(22, 0)] }).chip
    c.fld SW_STATUS.state = 1 ∧ (∀ q < 4, q ∈ c.sw.done) ∧ c.sw.expired = 2 ∧ c.sw.reload ≠ [] ∧
    (withFields []).chip.fld SW_STATUS.state = 0 := by decide +kernel
/-- One DRAM row is logged as PPR pending. -/
def pprState (fs : List (Fld × Nat)) : State :=
  withChip (fun c => (c.onBist fun b => { b with log := [⟨5, 143, 31 * 262144 + 7, 0, 2, false⟩] }).onCtl 35 fun d => { d with spares := [127] })
    (withFields ([(DMC_STATUS.state 35, 2)] ++ fs))
theorem witness_SweeperAndBist_bist :
    let c := (sweepState [(BIST_TARGET.index, 22), (BIST_CTRL.periodic, 1), (BIST_ALLOW_REGION.allow 0, 2 ^ 22)]
      fun c => c.onBist fun b => { b with next := 22 }).chip
    let p := (pprState []).chip
    c.fld BIST_STATUS.state = 0 ∧ c.gstate 22 = 0 ∧ c.sliceAllowed 0 22 = true ∧ c.sliceEligible 0 22 = true ∧ c.sliceEligible 0 21 = false ∧
    (withFields [(BIST_STATUS.state, 3)]).chip.fld BIST_STATUS.state = 3 ∧ p.anyRunning = false ∧
    (p.ctl 35).spares.contains (143 % 4 * 32 + (31 * 262144 + 7) / 262144) = true ∧ p.pwr.mark = none ∧
    p.flag (DMC_PPR_STATUS.busy 35) = false ∧ (pprState [(PGR_STATUS.state 9, 3)]).chip.anyRunning = true := by decide +kernel
/-- The example lap: 16 regions of 2,650 frames less 40 live ones. -/
theorem test_lap_frames : 16 * (0xA50 + 10) - 40 = 42360 := by decide

/-! Witnesses of O55 (Security). -/

theorem witness_Security :
    let c := (withChip (fun c => c.onSec fun x => { x with chal := true, fails := 2 }) (withFields [(SEC_DBG_LEVEL.level, 2)])).chip
    c.fld SEC_EXT_SEL.mr = 8 ∧ (withFields [(SEC_EXT_SEL.mr, 7)]).chip.fld SEC_EXT_SEL.mr = 7 ∧ c.sec.chal = true ∧
    c.flag SEC_STATUS.debug_disable = false ∧ c.fld SEC_DBG_LEVEL.level = 2 ∧ c.flag SEC_STATUS.lockout = false ∧ c.sec.fails = 2 ∧
    (withFields [(SEC_STATUS.lockout, 1)]).chip.flag SEC_STATUS.lockout = true ∧ c.fld SEC_STATUS.debug = 0 ∧
    (withFields [(SEC_STATUS.debug, 1)]).chip.fld SEC_STATUS.debug = 1 ∧ (withFields [(SEC_STATUS.boot, 4)]).chip.fld SEC_STATUS.boot = 4 ∧
    (withFields [(SEC_STATUS.bstore, 2)]).chip.fld SEC_STATUS.bstore = 2 ∧ (withFields [(SEC_STATUS.bstore, 0)]).chip.fld SEC_STATUS.bstore = 0 ∧
    c.cfg.loads = [] ∧ (withFields [(SEC_STATUS.fuse_key, 1)]).chip.flag SEC_STATUS.fuse_key = true := by decide +kernel
theorem witness_Security_load :
    let c := (loadState (fun l => { l with header := some { imgHeader with keySel := 2 } }) [(SEC_STATUS.bstore, 2)]).chip
    c.fld SEC_STATUS.bstore = 2 ∧ (∃ l, c.load 1 = some l ∧ l.header = some { imgHeader with keySel := 2 } ∧ l.clamp = none) ∧
    (∀ x < 5, x ≠ 1 → c.load x = none) := by decide +kernel

/-! Witnesses of O56 (Attestation). -/

theorem witness_Attestation :
    let m : WsMsg := ⟨[1, 0, 0, 0, 0, 0, 0, 0, 0, 0x27, 64, 0x1FF], 0, 0, 0, 0, 0, 0⟩
    let c := (wsState { queues := [(1, [m])] } []).chip
    let s := linkState 4 [(HY_CTRL.manager, 1)]
    let f := (withChip (fun c => { c with hy := { pending := [⟨9, 5, [7], false, 7, 4, 77⟩], routes := [(9, 7)] } }) s).chip
    c.tileUp = true ∧ (withFields [(PWR_STATUS.state, 3)]).chip.tileUp = false ∧ c.wsAllowed 31 1 .firmware = true ∧
    c.fld (WS_CFG.b_kind 31) < 2 ∧ (c.way 31).queue 1 = [m] ∧ (c.way 31).opened 1 = [] ∧ (c.way 31).fillFrom 1 ≤ 14 ∧
    m.words.length = 12 ∧ c.flag (WS_OPEN.broken 31 1) = false ∧ f.isManager = true ∧ f.portActive 7 = true ∧ (f.port 7).window = [] ∧
    (f.hy.pending.find? fun x => x.serial = 9) = some ⟨9, 5, [7], false, 7, 4, 77⟩ ∧ f.routeTo 9 = some 7 ∧
    (f.hy.pending.find? fun x => x.serial = 8) = none ∧ f.serial = 0 := by decide +kernel

/-! Witnesses of O57 (PowerSealing). -/

/-- A tile with the vault's slot 3 erased, and what `f` changes in its power block. -/
def powerState (f : Power → Power) (fs : List (Fld × Nat) := []) : State :=
  withChip (fun c => c.onPwr fun p => f { p with next := some 3 }) (withFields fs)
theorem witness_PowerSealing :
    let c := (powerState id).chip
    let x : Seal := ⟨1, 7, false, false, [], 0, 0, 0, 0, true⟩
    let v : VSlot := ⟨0, 1, 1, [], []⟩
    let d := (powerState (fun p => { p with sealing := some x, slots := [(2, some v)], restored := some 2 })).chip
    let e := (powerState (fun p => { p with next := none, slots := [(2, some v)] })).chip
    c.pwr.sealing = none ∧ c.fld PWR_STATUS.state ≠ 4 ∧ c.pwr.restore = none ∧ (c.latestSlot fun v => decide (v.state = 1)) = none ∧
    d.pwr.sealing = some x ∧ (d.latestSlot fun v => decide (v.state = 1)) = some (2, v) ∧ d.restoreOverlaps = false ∧
    d.pwr.next = some 3 ∧ d.pwr.restored = some 2 ∧ Tab.get none d.pwr.slots 2 = some v ∧ e.slotDue = (0, false) ∧
    c.fldS PWR_TEMP_WARN.warn = 320 ∧ c.fldS PWR_TEMP_CRIT.crit = 360 ∧ c.offline 0 = false ∧ c.flag PWR_ERR.input_warn = false ∧
    (withFields [(PWR_STATUS.state, 4)]).chip.fld PWR_STATUS.state = 4 ∧ (withFields [(PWR_STATUS.input_ok, 1)]).chip.flag PWR_STATUS.input_ok = true ∧
    (powerState fun p => { p with restore := some 2 }).chip.pwr.restore = some 2 := by decide +kernel

/-! Witnesses of O58 (SignpostAndPmbus). -/

/-- A queue whose one launch starts a leg 30 ms from now, Signpost on, the function in D3hot: the example of the retention pause. -/
def pauseState (ms : Nat) (f : Chip → Chip := id) : State :=
  withChip (fun c => f { c with lq := { c.lq with entries := [⟨ms * 1024000000, 3, 1, 0, 0, none, none, none⟩] } })
    (withFields [(PWR_CTRL.signpost_en, 1), (HIF_STATUS.d3hot, 1), (PWR_IDLE_NS.ns, 0), (DMC_MAP_STATUS.init_busy, 0)])
/-- The example of the retention pause: STANDBY. -/
theorem test_retention_pause :
    (pauseState 30).chip.fitsState 3 = false ∧ (pauseState 30).chip.fitsState 2 = true ∧ (pauseState 30).chip.pickQuarter 1 = 2 ∧
    (pauseState 30).chip.pickTile = none ∧ (pauseState 57).chip.fitsState 3 = true := by decide +kernel
theorem witness_SignpostAndPmbus :
    let one (c : Chip) : Chip := c.put ID_QUARTERS.offline 13
    let c := (pauseState 30 one).chip
    let d := (pauseState 30 fun c => ((one c).put PWR_STATUS.qstate 8).put PWR_CTRL.qmax 0).chip
    let f := (pauseState 0 fun c => (one c).put PWR_STATUS.qstate 8).chip
    let e := (pauseState 30 fun c => (ctlsOf 1).foldl (fun c k => c.put (DMC_STATUS.state k) 4) (one c)).chip
    let z := (pauseState 5 fun c => c.put PWR_STATUS.state 3).chip
    c.flag PWR_CTRL.signpost_en = true ∧ c.tileUp = true ∧ c.pwr.mark = none ∧ c.pwr.sealing = none ∧ c.pickTile = none ∧
    c.pwr.entering = none ∧ (∀ r : Fin 4, r ≠ 1 → c.offline r = true) ∧ c.offline 1 = false ∧ (c.quarter 1).resetting = false ∧
    c.qstate 1 < c.pickQuarter 1 ∧ c.lpRefused (ctlsOf 1) = false ∧ c.lpReady (ctlsOf 1) 4 = false ∧ e.lpReady (ctlsOf 1) 4 = true ∧
    e.pickQuarter 1 = 2 ∧ d.barred 1 = true ∧ f.barred 1 = false ∧ f.pickQuarter 1 < f.qstate 1 ∧ (c.onCtl 9 fun x => { x with refuse := true }).lpRefused (ctlsOf 1) = true ∧
    z.tileUp = false ∧ z.pwr.shut = [] ∧ z.earliest.map (fun e => decide (e.t ≤ z.now + wakeTime 3)) = some true ∧
    z.csr.waiting = [] ∧ d.qstate 1 = 2 := by decide +kernel
theorem witness_SignpostAndPmbus_tile :
    let c := (pauseState 57 fun c => c.put PWR_STATUS.vault_ready 1).chip
    let ks := ((List.range 4).filter fun q => !c.offline q).flatMap ctlsOf
    let e := ks.foldl (fun c k => c.put (DMC_STATUS.state k) 5) c
    c.pickTile = some 3 ∧ c.pwr.entering ≠ some 3 ∧ e.pickTile = some 3 ∧ e.lpReady ks 5 = true ∧ e.lpRefused ks = false ∧
    (∀ q < 4, e.logIdle q = true) := by decide +kernel

/-! Witnesses of O59 (OdometerPlans). -/

/-- Quarter 1 measures; region 22 (6 of the quarter) is LOADED on its GCK3 of 500 MHz, at code 12. -/
def odState : State := withFields [(OD_STATUS.measuring, 2), (RG_STATUS.state 22, 4), (RG_GCK_MASK.gck 22, 8), (QC_GCK_SEL.src 1 3, 5),
  (PWR_VCORE.code 1, 12), (OD_PLAN.plan 1, 12), (OD_PLAN.fact 1, 12)]
/-- The replicas of region 6 slowed to `d` of 10000. -/
def slowed (d : Nat) : List (Nat × Nat) := List.replicate 24 (10000, 10000) ++ List.replicate 4 (d, 10000)
/-- Table 24.2, rows 1 and 2: margins 3.40 % and 1.40 %, ages 4,477 h and 18,975 h, slack 62 ps, one code planned. -/
theorem test_planning_example :
    let m (d : Nat) : Ratio := marginOf ⟨d, 10000⟩
    marginUnits (m 10460) = 340 ∧ marginUnits (m 10660) = 140 ∧ marginUnits (m 10596) = 204 ∧ slackOf ⟨2000, 1⟩ (m 10460) = 62 ∧
    slackOf ⟨2000, 1⟩ (m 10596) = 37 ∧ ageHours (ageRatio ⟨1046, 1000⟩ 12 12) = 4477 ∧
    ageHours (ageRatio ⟨1066, 1000⟩ 12 12) = 18975 ∧ planStep (m 10660) 200 1 = 1 := by decide +kernel
theorem witness_OdometerPlans :
    let c := odState.chip
    let ms (d : Nat) := (List.range 16).map fun r => (regionRatio (((slowed d).drop (4 * r)).take 4)).map marginOf
    let dm (d : Nat) := (List.range 16).filterMap fun g => c.domainMargin 1 g (ms d)
    bit (c.fld OD_STATUS.measuring) 1 = true ∧ bit (c.fld OD_STATUS.measuring) 0 = false ∧ c.flag OD_CTRL.en = true ∧
    (dm 10460).length = 1 ∧ (∀ m ∈ dm 10460, ¬m.num * 10000 < 200 * m.den) ∧ (∃ m ∈ dm 10660, m.num * 10000 < 200 * m.den) ∧
    (∃ m ∈ dm 10900, m.num ≤ 0) ∧ c.odInterval = 600 * 1024000000000 ∧
    ((withFields [(QC_STATUS.ready 1, 1)]).chip.measureNow 1).odWindow 1 = true ∧
    (withFields [(PWR_VCORE.code 1, 24)]).chip.fld (PWR_VCORE.code 1) = 24 := by decide +kernel

/-! Witnesses of O60 (DebugPort). -/

/-- A tile at debug level FULL with the debug block changed. -/
def debugState (fs : List (Fld × Nat)) (f : Debug → Debug := id) : State :=
  withChip (fun c => c.onDbg f) (withFields ([(SEC_STATUS.debug, 2)] ++ fs))
theorem witness_DebugPort :
    let c := (debugState []).chip
    let h := (debugState [] fun d => { d with held := some ⟨0, 0x100010, 0, none, false⟩ }).chip
    let u := (debugState [(DTR_CTL.en 3, 1), (DTR_ADDR.addr 3, 9), (DTR_CTL.en 5, 1), (DTR_ADDR.addr 5, 9)]).chip
    c.tileUp = true ∧ c.dbg.held = none ∧ c.fld SEC_STATUS.debug = 2 ∧ c.csrGate .twivel (csrAddr 0x40004#24) = .open ∧
    csrAddr 0x40004#24 = 0x100010 ∧ (regFind 0x100010).isSome = true ∧ c.csrGate .twivel 0x02000000 = .open ∧
    (debugState [(PWR_STATUS.qstate, 1)]).chip.csrGate .twivel 0x02000000 = .wait ∧ h.dbg.held = some ⟨0, 0x100010, 0, none, false⟩ ∧
    (withFields []).chip.twvAllowed twvPeek 0x02000000 0 = false ∧ (withFields []).chip.twvAllowed twvWrite 0x10000C 64 = true ∧
    (withFields []).chip.twvAllowed twvWrite 0x10000C 65 = false ∧ (withFields [(SEC_STATUS.debug, 1)]).chip.twvAllowed twvPeek 0x02000000 0 = true ∧
    (withFields [(PWR_STATUS.state, 3)]).chip.twvAllowed twvPeek 0x100008 0 = true ∧ u.detour 36 = some 3 ∧ u.detour 40 = none ∧
    u.flag (DTR_CTL.en 3) = true ∧ (∀ e < (3 : Fin 32), u.flag (DTR_CTL.en e.val) = true → u.fld (DTR_ADDR.addr e.val) ≠ 36 / 4) := by
  decide +kernel
theorem witness_DebugPort_halt :
    let c := (debugState [(DBG_STATUS.core_state, 1)]).chip
    let l := (c.setWay 2 { c.way 2 with owner := some (partyOf .firmware) })
    let k := (debugState [(CL_STATUS.state 0, 1), (CL_IRQ_PEND.pend 0, 2), (CL_IRQ_EN.en 0, 2), (DBG_CTRL.step_irq, 1)]).chip
    let w := (debugState [] fun d => { d with wdgLeft := 0 }).chip
    c.coreState = 1 ∧ c.fwLocks = [] ∧ l.fwLocks = [2] ∧ k.clState 0 = 1 ∧ k.fld (CL_IRQ_PEND.pend 0) &&& k.fld (CL_IRQ_EN.en 0) ≠ 0 ∧
    (k.cl 0).handler = false ∧ (k.cl 0).redirs = [] ∧ w.wdgRuns = true ∧ w.wdgRemain = 0 := by decide +kernel
/-- The example: 60 ms left of 1,000 ms when a halt ends gives 125 ms. -/
theorem test_watchdog_example :
    ((debugState [(DBG_STATUS.core_state, 2)] fun d => { d with wdgLeft := 60 * 1024000000 }).chip.resumeCore).dbg.wdgLeft =
      125 * 1024000000 := by decide +kernel

end Sys2Proof.Tests
end

section
/-! Rules of the register file that the proofs below share: which fields are kept apart, and what an operation leaves of the others. -/

namespace Sys2Proof.Machine

/-- Fields at different places of one block of registers are kept under different numbers. -/
theorem Fld.key_ne {f g : Fld} {b m n i j : Nat} (hf : f.key = (b + m) * 8 + i) (hg : g.key = (b + n) * 8 + j)
    (h : Nat.beq (m * 8 + i) (n * 8 + j) = false) : f.key ≠ g.key := by
  have := Nat.ne_of_beq_eq_false h
  omega

/-- A field of the first 0x200 bytes of a block of registers. -/
theorem Fld.key_lt {f : Fld} {b m i : Nat} (hf : f.key = (b + m) * 8 + i) (h : Nat.blt (m * 8 + i) (0x200 * 8) = true) :
    f.key < (b + 0x200) * 8 := by
  have := Nat.blt_eq.mp h
  omega

theorem Fld.of_lt (f : Fld) (v : Nat) : f.of v < 2 ^ f.width := Nat.mod_lt _ (Nat.two_pow_pos _)
@[simp] theorem Fld.of_mod (f : Fld) (v : Nat) : f.of v % 2 ^ f.width = f.of v := Nat.mod_eq_of_lt (f.of_lt v)

variable (c : Chip) (f g : Fld)

theorem Chip.fld_putB_other (b : Bool) (h : f.key ≠ g.key) : (c.putB g b).fld f = c.fld f := Chip.fld_put_other _ _ _ _ h

theorem Chip.fld_put2_other (lo hi : Fld) (v : Nat) (hl : f.key ≠ lo.key) (hh : f.key ≠ hi.key) :
    (c.put2 lo hi v).fld f = c.fld f := by
  rw [Chip.put2, Chip.fld_put_other _ _ _ _ hh, Chip.fld_put_other _ _ _ _ hl]

theorem Chip.fld_incWrap_same : (c.incWrap f).fld f = (c.fld f + 1) % 2 ^ f.width := Chip.fld_put_same _ _ _

theorem Chip.fld_errEvt_other (n k : Nat) (p : List Nat) (h : f.key ≠ g.key) : (c.errEvt g n k p).fld f = c.fld f := by
  unfold Chip.errEvt
  split
  · rfl
  · exact Chip.fld_put_other _ _ _ _ h

theorem Chip.fld_putLegal_other (bad : Fld) (ok : Bool) (v : Nat) (hf : f.key ≠ g.key) (hb : f.key ≠ bad.key) :
    (c.putLegal g bad ok v).fld f = c.fld f := by
  cases ok
  · exact Chip.fld_put_other _ _ _ _ hb
  · exact Chip.fld_put_other _ _ _ _ hf

/-- A field after a write with a code that may be reserved (00 R13). -/
theorem Chip.fld_putLegal_same (bad : Fld) (ok : Bool) (v : Nat) (hb : f.key ≠ bad.key) :
    (c.putLegal f bad ok v).fld f = if ok then v % 2 ^ f.width else c.fld f := by
  cases ok
  · exact Chip.fld_put_other _ _ _ _ hb
  · exact Chip.fld_put_same _ _ _

end Sys2Proof.Machine
end

section
/-! O4: every step keeps the canonical form of the tile DRAM. Each operation on the machine does, and so does each command. -/

namespace Sys2Proof

open Machine

variable {s t : State}

/-- A change of the tile alone leaves the tile DRAM. -/
theorem Sound.upd (h : Sound s) (f : Chip → Chip) : Sound (s.upd f) := h

/-- A command that acts on the tile and the queue alone leaves the tile DRAM. -/
theorem Sound.of_tile {c : Chip} {q : List Instr} (h : Sound s) (ht : (Host.Outcome.next ⟨c, s.mem, q⟩ : Res) = .next t) :
    Sound t :=
  Host.Outcome.next.inj ht ▸ h

theorem Sound.of_next (h : Sound s) (ht : (Host.Outcome.next s : Res) = .next t) : Sound t :=
  Host.Outcome.next.inj ht ▸ h

theorem Sound.ite {p : Prop} [Decidable p] (hs : Sound s) (ht : Sound t) : Sound (if p then s else t) := by
  split
  · exact hs
  · exact ht

theorem Sound.each {α : Type} (h : Sound s) (l : List α) {f : State → α → State} (hf : ∀ s a, Sound s → Sound (f s a)) :
    Sound (s.each l f) :=
  State.each_inv Sound f hf l s h

theorem Sound.write (h : Sound s) (a v n : Nat) (c : Chip) : Sound { s with mem := Memory.write s.mem a v n, chip := c } :=
  Memory.wf_write _ a v n h
theorem Sound.upset (h : Sound s) (ln f g : Nat) : Sound (s.upset ln f g) := s.upset_wf ln f g h
theorem Sound.putPlain (h : Sound s) (ln v : Nat) : Sound (s.putPlain ln v) := s.putPlain_wf ln v h
theorem Sound.putSecret (h : Sound s) (ln v : Nat) : Sound (s.putSecret ln v) := s.putSecret_wf ln v h
theorem Sound.fillZero (h : Sound s) (lo hi : Nat) : Sound (s.fillZero lo hi) := s.fillZero_wf lo hi h
theorem Sound.recode (h : Sound s) (k a : Nat) : Sound (s.recode k a) := s.recode_wf k a h
theorem Sound.restoreLine (h : Sound s) (ln v : Nat) (b : Bool) : Sound (s.restoreLine ln v b) := s.restoreLine_wf ln v b h

/-! Requests of the DRAM controllers (11, 13). -/

theorem Sound.toRing (h : Sound s) (k : Nat) (r : DReq) : Sound (s.toRing k r) := h

theorem Sound.serveBank (h : Sound s) (k ch bank f g : Nat) : Sound (s.serveBank k ch bank f g) := by
  unfold State.serveBank
  dsimp only
  split
  · exact h
  · exact (((h.upset ..).ite h).upd _).toRing _ _ |>.upd _

theorem Sound.storeReq (h : Sound s) (k : Nat) (r : DReq) (range : Option Nat) : Sound (s.storeReq k r range) := by
  cases range with
  | none => exact (h.putPlain ..).upd _
  | some n => exact ((h.putSecret ..).upd _).upd _

theorem Sound.guardReq (h : Sound s) (k n : Nat) (r : DReq) (d : Decoded) : Sound (s.guardReq k n r d) := by
  have hd : Sound (if r.reads then s.upd fun c => c.afterDecode k r.addr d false else s) := (h.upd _).ite h
  exact (h.upd _).ite ((hd.upd _).ite ((hd.upd _).ite (hd.upd _)))

theorem Sound.complete (h : Sound s) (k : Nat) (r : DReq) : Sound (s.complete k r) := by
  have hc : Sound (if r.reads then s.upd (·.incSat (DMC_RD_CNT.count k)) else s) := (h.upd _).ite h
  unfold State.complete
  dsimp only
  split
  · exact hc.guardReq ..
  · have hd := (hc.upd fun c => c.afterDecode k r.addr (if r.reads then s.decodeLine k (r.addr / 64) else .clean) false).ite
      (p := r.reads = true) hc
    exact (hd.upd _).ite ((hd.upd _).ite (hd.storeReq ..))

theorem Sound.checkNext (h : Sound s) (k : Nat) : Sound (s.checkNext k) := by
  unfold State.checkNext
  split
  · exact h
  · exact ((h.upd _).complete _ _).upd _

theorem Sound.verified (h : Sound s) (k n : Nat) (x : DTag) (res : TagRes) : Sound (s.verified k n x res) := by
  unfold State.verified
  dsimp only
  split
  · exact (h.storeReq ..).ite (h.ite (h.upd _))
  all_goals exact h

theorem Sound.tagNext (h : Sound s) (k i : Nat) (res : TagRes) : Sound (s.tagNext k i res) := by
  unfold State.tagNext
  split
  · exact h
  · dsimp only
    split
    · exact h
    · exact ((h.upd _).verified ..).upd _

theorem Sound.drainOne (h : Sound s) (k : Nat) : Sound (s.drainOne k) := by
  refine (h.checkNext k).ite ((h.tagNext ..).ite ?_)
  split
  · exact h.serveBank ..
  · exact h

theorem Sound.drainMany (k n : Nat) : ∀ {s : State}, Sound s → Sound (s.drainMany k n) := by
  induction n with
  | zero => exact id
  | succ n ih => exact fun h => ih (h.drainOne k)

theorem Sound.drainCtl (h : Sound s) (k : Nat) : Sound (s.drainCtl k) := Sound.drainMany k _ h

theorem Sound.pprLine (h : Sound s) (k slot : Nat) : Sound (s.pprLine k slot) := by
  unfold State.pprLine
  split
  · exact h
  · exact h.recode ..

theorem Sound.pprDone (h : Sound s) (k : Nat) (ok : Bool) : Sound (s.pprDone k ok) :=
  h.ite ((h.each _ fun _ _ h => h.pprLine ..).upd _)

/-! Resets, power states and the vault (05, 23). -/

theorem Sound.quarterReset (h : Sound s) (q : Nat) : Sound (s.quarterReset q) :=
  h.ite (((h.upd _).each _ fun _ k h => (h.upd _).drainCtl k).upd _)

theorem Sound.tileReset (h : Sound s) (b : Boot) : Sound (s.tileReset b) :=
  h.ite ((h.each _ fun _ q h => h.ite (h.quarterReset q)).upd _)

theorem Sound.gcCmdWrite (h : Sound s) (v : Nat) (b : Boot) : Sound (s.gcCmdWrite v b) :=
  ((h.tileReset b).ite h).ite (h.upd _)

/-- In SEALED the tile DRAM has lost its contents (23 R505). -/
theorem Sound.sealedEnter (s : State) : Sound s.sealedEnter := Memory.wf_nil

theorem Sound.sealEnd (h : Sound s) (x : Seal) (ok : Bool) : Sound (s.sealEnd x ok) := h

theorem Sound.sealedLive (h : Sound s) (b : Boot) : Sound (s.sealedLive b) :=
  (((h.upd _).upd _).tileReset b).upd _

theorem Sound.sealComplete (h : Sound s) (ok : Bool) (b : Boot) : Sound (s.sealComplete ok b) := by
  unfold State.sealComplete
  split
  · exact h
  · exact (((h.upd _).sealEnd _ ok).sealedLive b).ite (Sound.sealedEnter _)

theorem Sound.restoreDone (h : Sound s) (pages : List Nat) : Sound (s.restoreDone pages) := by
  unfold State.restoreDone
  split
  · exact h
  · exact (h.each _ fun _ _ h => h.restoreLine ..).upd _

theorem Sound.enterTile (h : Sound s) (want : Nat) : Sound (s.enterTile want) :=
  (h.upd _).ite ((h.upd _).ite (h.ite ((h.upd _).ite ((h.upd _).ite (Sound.sealedEnter s)))))

theorem Sound.judge (h : Sound s) : Sound s.judge := by
  refine h.ite ?_
  split
  · exact h.enterTile _
  · exact h.upd _

/-! Register accesses and the Twivel port (00, 25). -/

theorem Sound.csrStore (h : Sound s) (src : Src) (x : CsrEnv) (a v : Nat) : Sound (s.csrStore src x a v) := by
  unfold State.csrStore
  split
  · exact h.upd _
  · exact (h.gcCmdWrite v x.boot).ite (((h.quarterReset _).ite h).upd _)

theorem Sound.csrServed (h : Sound s) (w : CsrWait) : Sound (s.csrServed w) := by
  unfold State.csrServed
  split
  · exact h.csrStore ..
  · exact h.upd _

theorem Sound.csrAccess (h : Sound s) (w : CsrWait) : Sound (s.csrAccess w) := by
  unfold State.csrAccess
  split
  · exact h.csrServed w
  · exact h.upd _
  · exact h.upd _
  · exact h

theorem Sound.csrServe (h : Sound s) : Sound s.csrServe := (h.upd _).each _ fun _ w h => h.csrAccess w

theorem Sound.twvPerform (h : Sound s) (op a v : Nat) (x : CsrEnv) : Sound (s.twvPerform op a v x).1 := by
  unfold State.twvPerform
  split
  · exact h
  split
  · exact h.csrStore ..
  split
  · exact h.upd _
  · split <;> exact h

theorem Sound.twvFrame (h : Sound s) (op a v : Nat) (quick : Bool) (x : CsrEnv) : Sound (s.twvFrame op a v quick x) :=
  h.ite ((h.upd _).ite ((h.upd _).ite ((h.upd _).ite ((h.upd _).ite ((h.twvPerform op a v x).upd _)))))

theorem Sound.twvDone (h : Sound s) (x : CsrEnv) : Sound (s.twvDone x) := by
  unfold State.twvDone
  split
  · exact h
  · exact h.ite ((h.twvPerform ..).upd _)

/-! Commands on the tile DRAM with a meaning of their own (11 to 13, 21). -/

theorem Sound.execBankService (h : Sound s) (k : Fin 36) (ch : Fin 4) (b : Fin 32) (f : Line) (g : BitVec 64)
    (ht : execBankService k ch b f g s = .next t) : Sound t := by
  unfold Machine.execBankService at ht
  split at ht
  · exact (h.serveBank ..).of_next ht
  · exact h.of_next ht

theorem Sound.execMapApplyDone (h : Sound s) (ht : execMapApplyDone s = .next t) : Sound t := by
  unfold Machine.execMapApplyDone at ht
  dsimp only at ht
  split at ht
  · exact h.of_next ht
  · exact (((h.upd _).each _ fun _ _ h => h.each _ fun _ _ h => h.fillZero ..).upd _).of_next ht

theorem Sound.execEccWriteback (h : Sound s) (k : Fin 36) (f : Line) (g : BitVec 64)
    (ht : execEccWriteback k f g s = .next t) : Sound t := by
  unfold Machine.execEccWriteback at ht
  split at ht
  · exact h.of_next ht
  · dsimp only at ht
    split at ht
    · exact (h.upd _).of_next ht
    split at ht
    · have hw := fun a v c => ((h.write a v 64 c).upd fun c => (c.incSat (DMC_WR_CNT.count k)).incSat (DMC_RD_CNT.count k))
      split at ht
      · exact (((hw ..).upset ..).upd _).of_next ht
      · exact ((hw ..).upset ..).of_next ht
      · exact (((hw ..).upset ..).upd _).of_next ht
      · exact (((hw ..).upset ..).upd _).of_next ht
    · exact (h.upd _).of_next ht
    · exact (h.upd _).of_next ht
    · exact (h.upd _).of_next ht

theorem Sound.execPatrolVisit (h : Sound s) (k : Fin 36) (ch : Fin 4) (f : Line) (g : BitVec 64)
    (ht : execPatrolVisit k ch f g s = .next t) : Sound t := by
  unfold Machine.execPatrolVisit at ht
  dsimp only at ht
  split at ht
  · exact h.of_next ht
  split at ht
  · exact (h.upd _).of_next ht
  split at ht
  · exact h.of_next ht
  · exact ((h.ite (h.upset ..)).upd _).of_next ht

theorem Sound.execZeroiseDone (h : Sound s) (n : Fin 16) (ht : execZeroiseDone n s = .next t) : Sound t := by
  unfold Machine.execZeroiseDone at ht
  dsimp only at ht
  split at ht
  · exact h.of_next ht
  · exact (((h.fillZero ..).fillZero ..).upd _).of_next ht

theorem Sound.execRekeyDone (h : Sound s) (n : Fin 16) (bad : List Nat) (ht : execRekeyDone n bad s = .next t) : Sound t := by
  unfold Machine.execRekeyDone at ht
  dsimp only at ht
  split at ht
  · exact h.of_next ht
  · exact ((h.each _ fun _ _ h => h.recode ..).upd _).of_next ht

theorem Sound.execDramFullDone (h : Sound s) (rows : List BistFail) (us : Nat) (ht : execDramFullDone rows us s = .next t) :
    Sound t := by
  unfold Machine.execDramFullDone at ht
  split at ht
  · exact h.of_next ht
  · cases ht
    exact Memory.wf_nil

/-- Every command keeps the canonical form: those that write tile DRAM through its own operations, all others because they act on
the tile alone. -/
theorem Sound.exec (h : Sound s) (i : Instr) (ht : exec i s = .next t) : Sound t := by
  cases i with
  | registerWrite => exact (h.csrAccess _).of_next ht
  | hiWriteApply => exact (h.csrAccess _).of_next ht
  | topWriteApply => exact (h.csrAccess _).of_next ht
  | loReadCapture => exact (h.csrAccess _).of_next ht
  | rcRead => exact (h.csrAccess _).of_next ht
  | quarterRelease => exact (h.upd _).csrServe.of_next ht
  | wakeDone => exact (h.upd _).csrServe.of_next ht
  | twivelPeek => exact (h.twvFrame ..).of_next ht
  | twivelTake => exact (h.twvFrame ..).of_next ht
  | twivelWrite => exact (h.twvFrame ..).of_next ht
  | twivelAccessDone => exact (h.twvDone _).of_next ht
  | quarterReset => exact (h.quarterReset _).of_next ht
  | tileReset => exact (h.tileReset _).of_next ht
  | gcTileReset => exact (h.gcCmdWrite ..).of_next ht
  | coldStart => cases ht; exact Memory.wf_nil
  | sealComplete => exact (h.sealComplete ..).of_next ht
  | restoreDone => exact (h.restoreDone _).of_next ht
  | signpostJudge => exact h.judge.of_next ht
  | checkRequest => exact (h.checkNext _).of_next ht
  | tagCheckDone => exact (h.tagNext ..).of_next ht
  | pprDone => exact ((h.pprDone ..).upd _).of_next ht
  | bankService => exact h.execBankService _ _ _ _ _ ht
  | mapApplyDone => exact h.execMapApplyDone ht
  | eccWriteback => exact h.execEccWriteback _ _ _ ht
  | patrolVisit => exact h.execPatrolVisit _ _ _ _ ht
  | zeroiseDone => exact h.execZeroiseDone _ ht
  | rekeyDone => exact h.execRekeyDone _ _ ht
  | dramFullDone => exact h.execDramFullDone _ _ ht
  | _ => exact h.of_tile ht

/-- Settles O4: the command at the front of the queue keeps the canonical form, and so does a step that idles. -/
theorem stepKeepsSound : Obligations.StepKeepsSound := by
  unfold Obligations.StepKeepsSound
  intro s t h ht
  cases hp : s.pending with
  | nil => exact h.of_next (by simpa [step, hp] using ht)
  | cons i rest =>
    have hr : Sound { s with pending := rest } := h
    exact hr.exec i (by simpa [step, hp] using ht)

end Sys2Proof
end

section
/-! O5: the tile after power-on. -/

namespace Sys2Proof

open Machine

/-- Before anything is written a register field, and its active and its staged value, read the Reset column (00 R10). -/
theorem reset_reads (f : Fld) : State.reset.chip.fld f = f.reset % 2 ^ f.width ∧
    State.reset.chip.act f = f.reset % 2 ^ f.width ∧ State.reset.chip.stg f = f.reset % 2 ^ f.width :=
  ⟨rfl, rfl, rfl⟩

/-- The limit of every fail log is active at its reset value. -/
theorem reset_flLimit (q : Nat) : State.reset.chip.act (FL_LIMIT.limit q) = 128 := rfl

/-- Settles O5. -/
theorem resetIsSound : Obligations.ResetIsSound :=
  ⟨Memory.wf_reset, rfl, rfl, rfl, rfl, rfl, rfl, rfl, reset_reads, rfl, rfl, rfl, rfl, rfl, rfl, rfl, rfl, rfl, rfl, rfl,
    fun q _ => reset_flLimit q⟩

end Sys2Proof
end

section
/-! O20: clears and repair entries of the block memories (06 R154, R155, R157). -/

namespace Sys2Proof.Machine

variable (c : Chip)

theorem Chip.clearBlock_reserved (r i : Nat) (h : 160 ≤ i) : c.clearBlock r i = c.put (BM_RERR.bad_value r) 1 := if_pos h

theorem Chip.clearBlock_eq (r i : Nat) (h : i < 160) (hp : (c.block (160 * r + i)).prot ≠ 1)
    (hf : (c.block (160 * r + i)).filled = false) :
    c.clearBlock r i = c.setBlock (160 * r + i) { c.block (160 * r + i) with words := [], fixes := [] } := by
  simp [Chip.clearBlock, Nat.not_le.mpr h, hp, hf]

/-- A word that was never made valid reads 0 (06 R154). -/
theorem BmBlock.value_invalid (x : BmBlock) (w : BmWord) (hv : w.valid = false) (hp : x.prot ≠ 1) (hf : x.filled = false) :
    x.value w = 0 := by
  simp [BmBlock.value, hv, hp, hf]

theorem Chip.clearFirst_fld (r : Nat) : (c.clearFirst r).fld (BM_FIRST_ERR.valid r) = 0 ∧
    (c.clearFirst r).fld (BM_FIRST_ERR.kind r) = 0 := by
  constructor <;>
    simp (disch := exact Fld.key_ne rfl rfl rfl) only [Chip.clearFirst, Chip.fld_put2_other, Chip.fld_put_other, Chip.fld_put_same,
      Nat.zero_mod]

/-- The repair entries of a quarter stand above the registers of its regions' block memories (27 Table 27.3). -/
theorem bmBase_lt_repBase (b : Nat) : bmBase (b / 160) + 0x100 ≤ repBase b := by
  simp only [bmBase, repBase, unitBase, Nat.div_div_eq_div_mul, Nat.reduceMul]
  omega

theorem Fld.key_ne_badValue {f : Fld} {b m i : Nat} (hf : f.key = (repBase b + m) * 8 + i) :
    f.key ≠ (BM_RERR.bad_value (b / 160)).key := by
  have hb := bmBase_lt_repBase b
  have hk : (BM_RERR.bad_value (b / 160)).key = (bmBase (b / 160) + 8) * 8 + 2 := rfl
  omega

variable (b v : Nat)

theorem Chip.bmRepair_released (col : Bool) (h : (c.region (b / 160)).loaded = true) :
    c.bmRepair b v col = c.put (BM_RERR.bad_value (b / 160)) 1 := by
  simp [Chip.bmRepair, h]

/-- A column entry that takes its value: a reserved column keeps the one it had (06 R155). -/
theorem Chip.bmRepair_col (h : (c.region (b / 160)).loaded = false) (hf : c.flag (BM_COLREP.fused b) = false) :
    (c.bmRepair b v true).fld (BM_COLREP.col0 b) =
      (if (BM_COLREP.col0 b).of v < 576 then (BM_COLREP.col0 b).of v else c.fld (BM_COLREP.col0 b)) ∧
    (c.bmRepair b v true).fld (BM_COLREP.col0_en b) = (BM_COLREP.col0_en b).of v := by
  have hsame (d : Chip) (ok : Bool) (w : Nat) := d.fld_putLegal_same (BM_COLREP.col0 b) _ ok w (Fld.key_ne_badValue (m := 4) rfl)
  have hcol (d : Chip) (ok : Bool) (w : Nat) := d.fld_putLegal_other (BM_COLREP.col0 b) (BM_COLREP.col1 b) _ ok w
    (Fld.key_ne rfl rfl rfl) (Fld.key_ne_badValue (m := 4) rfl)
  constructor <;>
    simp (disch := exact Fld.key_ne rfl rfl rfl) [Chip.bmRepair, h, hf, Chip.fld_put_other, hsame, hcol]

theorem Chip.bmRepair_row (h : (c.region (b / 160)).loaded = false) (hf : c.flag (BM_ROWREP.fused b) = false) :
    (c.bmRepair b v false).fld (BM_ROWREP.row0 b) = (BM_ROWREP.row0 b).of v ∧
    (c.bmRepair b v false).fld (BM_ROWREP.row1_en b) = (BM_ROWREP.row1_en b).of v := by
  constructor <;>
    simp (disch := exact Fld.key_ne (b := repBase b) (m := 0) (n := 0) rfl rfl rfl) [Chip.bmRepair, h, hf, Chip.fld_put_other]

end Sys2Proof.Machine

namespace Sys2Proof

open Machine

/-- Settles O20, command by command. -/
theorem blockMemoryRegisters : Obligations.BlockMemoryRegisters := by
  refine ⟨fun s r i => ⟨{ s with chip := s.chip.clearBlock r i.toNat }, rfl, fun _ => rfl, fun hi hp hf => ?_, fun hi => ?_⟩,
    fun s r => ⟨{ s with chip := s.chip.clearFirst r }, rfl, ?_, ?_, rfl, fun _ => rfl⟩,
    fun s b col v => ⟨{ s with chip := s.chip.bmRepair b v.toNat col }, rfl, fun hl => ?_, ?_, ?_⟩⟩
  · rw [Chip.clearBlock_eq _ _ _ hi hp hf]
    exact ⟨fun a => by simp [BmBlock.value_invalid, BmBlock.word, Tab.get, hp, hf],
      fun b hb => Chip.block_setBlock_other _ _ _ _ hb⟩
  · rw [Chip.clearBlock_reserved _ _ _ hi]
    exact ⟨rfl, Chip.flag_put_same _ _ _⟩
  · simp [Chip.flag, (s.chip.clearFirst_fld r).1]
  · exact (s.chip.clearFirst_fld r).2
  · rw [Chip.bmRepair_released _ _ _ _ hl]
    exact ⟨Chip.flag_put_same _ _ _, Chip.fld_put_other _ _ _ _ (Fld.key_ne_badValue (m := 0) rfl),
      Chip.fld_put_other _ _ _ _ (Fld.key_ne_badValue (m := 4) rfl)⟩
  · rintro hl rfl hf
    exact s.chip.bmRepair_col b v.toNat hl hf
  · rintro hl rfl hf
    exact s.chip.bmRepair_row b v.toNat hl hf

end Sys2Proof
end

section
/-! O19: a statement that fails, with the state that refutes it. -/

namespace Sys2Proof

open Machine

/-- Region 0 is released. Word 0 of its block 0 is a valid SEC-DED word with one upset cell, and its data is wider than the 64 bits
a port carries; an earlier error is kept in BM_FIRST_ERR. -/
def wideWordState : State where
  chip := ({ regions := [(0, { loaded := true })], blocks := [(0, { words := [(0, ⟨2 ^ 64, 1, true⟩)] })] } : Chip).put
    (BM_FIRST_ERR.valid 0) 1

/-- The port presents the 64 low bits of the word's data, which are 0. -/
theorem wideWordState_read :
    (wideWordState.chip.bmRead 0 0 0 0 []).out = [.fabric 0 3 [0, 0, 0, 0, 0, 0]] := by decide +kernel

/-- Refutes O19: its first clause asks for the data of the stored word itself at the port, and the model presents the 64 low bits of
it. The two differ in a state whose word holds data of more than 64 bits, which the clause does not exclude. -/
theorem not_blockMemoryErrors : ¬ Obligations.BlockMemoryErrors := by
  unfold Obligations.BlockMemoryErrors
  rintro ⟨hread, -⟩
  obtain ⟨t, ht, hcorrected, -⟩ := hread wideWordState 0 0 0 0 (by decide) (by decide) (by decide) (by decide) (by decide) (by decide)
    (by decide)
  obtain ⟨hout, -⟩ := hcorrected (by decide)
  have hchip : t.chip = wideWordState.chip.bmRead 0 0 0 0 [] := congrArg State.chip (Host.Outcome.next.inj ht).symm
  rw [hchip, wideWordState_read] at hout
  exact absurd hout (by decide)

end Sys2Proof
end

section
/-! O38: the clusters (10). -/

namespace Sys2Proof.Machine

/-! What the shared operations leave of the registers and of the cluster. -/

variable (c : Chip) (j k : Nat) (f : Fld)

theorem Chip.cl_errEvt (g : Fld) (n m : Nat) (p : List Nat) : (c.errEvt g n m p).cl k = c.cl k := by
  unfold Chip.errEvt
  split <;> rfl
@[simp] theorem Chip.cl_put (g : Fld) (v : Nat) : (c.put g v).cl k = c.cl k := by
  rw [Chip.cl, Chip.put_clusters, Chip.cl]
@[simp] theorem Chip.cl_putB (g : Fld) (b : Bool) : (c.putB g b).cl k = c.cl k := c.cl_put k g (ofBool b)
theorem Chip.cl_put2 (lo hi : Fld) (v : Nat) : (c.put2 lo hi v).cl k = c.cl k := by
  rw [Chip.cl, Chip.put2_clusters, Chip.cl]
@[simp] theorem Chip.cl_clRunState : (c.clRunState j).cl k = c.cl k := c.cl_put k _ _
@[simp] theorem Chip.cl_clShow : (c.clShow j).cl k = c.cl k := by
  simp only [Chip.clShow, Chip.cl_putB, Chip.cl_put]

theorem Chip.fld_clShow (hi : f.key ≠ (CL_FIFO.in_fill j).key) (ho : f.key ≠ (CL_FIFO.out_fill j).key)
    (hx : f.key ≠ (CL_STATUS.xfer_busy j).key) (hr : f.key ≠ (CL_STATUS.run_veto j).key)
    (ha : f.key ≠ (CL_STATUS.acc_poison j).key) : (c.clShow j).fld f = c.fld f := by
  simp only [Chip.clShow, Chip.fld_putB_other, Chip.fld_put_other, hi, ho, hx, hr, ha, ne_eq, not_false_eq_true]

theorem Chip.fld_clRunState (h : f.key ≠ (CL_STATUS.state j).key) : (c.clRunState j).fld f = c.fld f :=
  Chip.fld_put_other _ _ _ _ h

/-- A cluster that runs is in HANDLER in handler mode, else RUNNING. -/
theorem Chip.clState_clRunState : (c.clRunState j).fld (CL_STATUS.state j) = if (c.cl j).handler then 3 else 2 := by
  rw [Chip.clRunState, Chip.fld_put_same]
  cases (c.cl j).handler <;> rfl

/-- Results that land write scalar registers only. -/
theorem Chip.fld_clLand (upto : Nat) (h : f.key < (clBase j + 0x200) * 8) : (c.clLand j upto).fld f = c.fld f := by
  refine Chip.each_inv (fun d => d.fld f = c.fld f) _ (fun d e hd => ?_) _ c rfl
  have hlo : (CL_X_LO.lo j e.2.1).key = (clBase j + 0x200 + 8 * e.2.1) * 8 + 0 := rfl
  have hhi : (CL_X_HI.hi j e.2.1).key = (clBase j + 0x204 + 8 * e.2.1) * 8 + 0 := rfl
  rw [Chip.fld_put2_other _ _ _ _ _ (by omega) (by omega), hd]

theorem Chip.fld_clDrain (h : f.key < (clBase j + 0x200) * 8) : (c.clDrain j).fld f = c.fld f := Chip.fld_clLand _ _ _ _ h

/-- Writes that land in local memory leave handler mode. -/
theorem Cluster.handler_foldl_store (l : List LmWrite) (x : Cluster) : (l.foldl Cluster.store x).handler = x.handler := by
  induction l generalizing x with
  | nil => rfl
  | cons m l ih => exact ih (x.store m)

theorem Chip.handler_clLand (upto : Nat) : ((c.clLand j upto).cl j).handler = (c.cl j).handler := by
  have hcl : ∀ l : List (Nat × Nat × Nat),
      (c.each l fun c e => c.put2 (CL_X_LO.lo j e.2.1) (CL_X_HI.hi j e.2.1) e.2.2).cl j = c.cl j :=
    fun l => Chip.each_inv (fun d => d.cl j = c.cl j) _ (fun _ _ hd => (Chip.cl_put2 ..).trans hd) l c rfl
  simp only [Chip.clLand, Chip.cl_onCl_same, Cluster.handler_foldl_store, hcl]

theorem Chip.fld_clPop (hl : f.key < (clBase j + 0x140) * 8) (hd : f.key ≠ (CL_STATUS.depth j).key) :
    (c.clPop j).fld f = c.fld f := by
  unfold Chip.clPop
  split
  · rfl
  · next l _ =>
    have hlo : f.key ≠ (CL_LOOP_LO.count j l).key :=
      fun h => by have : (CL_LOOP_LO.count j l).key = (clBase j + 0x140 + 8 * l) * 8 + 0 := rfl; omega
    have hhi (i : Nat) (g : Fld) (hg : g.key = (clBase j + 0x144 + 8 * l) * 8 + i) : f.key ≠ g.key := by omega
    rw [Chip.fld_put_other _ _ _ _ hd, Chip.fld_put_other _ (CL_LOOP_HI.valid j l) _ _ (hhi 31 _ rfl),
      Chip.fld_put_other _ (CL_LOOP_HI.handler j l) _ _ (hhi 24 _ rfl), Chip.fld_put_other _ (CL_LOOP_HI.start j l) _ _ (hhi 12 _ rfl),
      Chip.fld_put_other _ (CL_LOOP_HI.end_ j l) _ _ (hhi 0 _ rfl), Chip.fld_put_other _ _ _ _ hlo]

theorem Chip.depth_clPop : (c.clPop j).fld (CL_STATUS.depth j) = c.fld (CL_STATUS.depth j) - 1 := by
  have hlt : c.fld (CL_STATUS.depth j) < 8 := Chip.fld_lt c _
  by_cases h : c.fld (CL_STATUS.depth j) = 0
  · simp [Chip.clPop, Chip.clTop, h]
  · have hw : (CL_STATUS.depth j).width = 3 := rfl
    simp [Chip.clPop, Chip.clTop, h, hw]
    omega

theorem Chip.cl_clPop : (c.clPop j).cl k = c.cl k := by
  unfold Chip.clPop
  split <;> rfl

/-- A halt that the debugger asked for is reported, which leaves every register. -/
theorem Chip.fld_clHalt_eq : (c.clHalt j).fld f =
    ((((c.clDrain j).onCl j fun x => { x with haltReq := false }).put (CL_STATUS.state j) 1).clShow j).fld f := by
  have h (d : Chip) : (if d.dbg.cls.contains j then
      { d with dbg := { d.dbg with cls := d.dbg.cls.filter (· ≠ j) } }.raise 216 3 [j] else d).fld f = d.fld f := by
    split <;> rfl
  exact h _

theorem Chip.fld_clHalt (hl : f.key < (clBase j + 0x200) * 8) (hs : f.key ≠ (CL_STATUS.state j).key)
    (hi : f.key ≠ (CL_FIFO.in_fill j).key) (ho : f.key ≠ (CL_FIFO.out_fill j).key) (hx : f.key ≠ (CL_STATUS.xfer_busy j).key)
    (hr : f.key ≠ (CL_STATUS.run_veto j).key) (ha : f.key ≠ (CL_STATUS.acc_poison j).key) :
    (c.clHalt j).fld f = c.fld f := by
  rw [Chip.fld_clHalt_eq, Chip.fld_clShow _ _ _ hi ho hx hr ha, Chip.fld_put_other _ _ _ _ hs, Chip.fld_onCl,
    Chip.fld_clDrain _ _ _ hl]

theorem Chip.clState_clHalt : (c.clHalt j).clState j = 1 := by
  rw [Chip.clState, Chip.fld_clHalt_eq]
  simp (disch := exact Fld.key_ne rfl rfl rfl) only [Chip.fld_clShow, Chip.fld_put_same]
  rfl

end Sys2Proof.Machine
end

section
namespace Sys2Proof.Machine

variable (c : Chip) (j : Nat)

/-! Commands of the sequencer (10 R252). -/

@[simp] theorem Chip.start_refused_clRefuse : (c.clRefuse j).flag (CL_ERR.start_refused j) = true := Chip.flag_put_same _ _ _
@[simp] theorem Chip.clState_clRefuse : (c.clRefuse j).clState j = c.clState j :=
  Chip.fld_put_other _ _ _ _ (Fld.key_ne rfl rfl rfl)

theorem Chip.clStart_refused (h : 1 < c.clState j ∨ c.flag (CL_STATUS.ucode_valid j) = false) : c.clStart j = c.clRefuse j := by
  simp [Chip.clStart, h]

/-- The four pops of a start empty the stack of a cluster that has at most four frames. -/
theorem Chip.clStart_runs (hs : c.clState j ≤ 1) (hv : c.flag (CL_STATUS.ucode_valid j) = true)
    (hd : c.fld (CL_STATUS.depth j) ≤ 4) :
    (c.clStart j).clState j = 2 ∧ (c.clStart j).fld (CL_PC.pc j) = c.fld (CL_START.start j) ∧
    (c.clStart j).fld (CL_STATUS.depth j) = 0 ∧ ((c.clStart j).cl j).handler = false := by
  have hstart (d : Chip) : (d.clPop j).fld (CL_START.start j) = d.fld (CL_START.start j) :=
    d.fld_clPop j _ (by have : (CL_START.start j).key = (clBase j + 0x14) * 8 + 0 := rfl; omega) (Fld.key_ne rfl rfl rfl)
  have hlt : c.fld (CL_START.start j) % 2 ^ (CL_PC.pc j).width = c.fld (CL_START.start j) := Nat.mod_eq_of_lt (c.fld_lt (CL_START.start j))
  have h0 : c.fld (CL_STATUS.depth j) - 1 - 1 - 1 - 1 = 0 := by omega
  have hn : ¬(1 < c.clState j ∨ !c.flag (CL_STATUS.ucode_valid j)) := by simp [hv]; omega
  unfold Chip.clStart
  rw [if_neg hn]
  dsimp only
  generalize hp : (((c.clPop j).clPop j).clPop j).clPop j = p
  refine ⟨?_, ?_, ?_, ?_⟩
  · simp (disch := exact Fld.key_ne rfl rfl rfl) [Chip.clState, Chip.fld_clShow, Chip.clState_clRunState]
  · simp (disch := exact Fld.key_ne rfl rfl rfl) only [Chip.fld_clShow, Chip.fld_clRunState, Chip.fld_put_same]
    simp only [Chip.fld_onCl, ← hp, hstart, hlt]
  · simp (disch := exact Fld.key_ne rfl rfl rfl) only [Chip.fld_clShow, Chip.fld_clRunState, Chip.fld_put_other]
    simp only [Chip.fld_onCl, ← hp, Chip.depth_clPop, h0]
  · simp

theorem Chip.clResume_halted (h : c.clState j = 1) :
    (c.clResume j).clState j = (if (c.cl j).handler then 3 else 2) ∧ (c.clResume j).fld (CL_PC.pc j) = c.fld (CL_PC.pc j) := by
  simp only [Chip.clResume, h, if_true]
  constructor <;>
    simp (disch := exact Fld.key_ne rfl rfl rfl) [Chip.clState, Chip.fld_clShow, Chip.clState_clRunState, Chip.fld_clRunState]

theorem Chip.clResume_refused (h : c.clState j ≠ 1) : c.clResume j = c.clRefuse j := if_neg h

theorem Chip.clStop_boundary (hs : 2 ≤ c.clState j) (hr : (c.cl j).redirs = []) : c.clStop j = c.clHalt j := by
  simp [Chip.clStop, Nat.not_lt.mpr hs, hr]

theorem Chip.clStop_refused (hs : c.clState j < 2) : c.clStop j = c.clRefuse j := if_pos hs

theorem Chip.pc_clHalt : (c.clHalt j).fld (CL_PC.pc j) = c.fld (CL_PC.pc j) :=
  c.fld_clHalt j _ (by have : (CL_PC.pc j).key = (clBase j + 0x10) * 8 + 0 := rfl; omega) (Fld.key_ne rfl rfl rfl)
    (Fld.key_ne rfl rfl rfl) (Fld.key_ne rfl rfl rfl) (Fld.key_ne rfl rfl rfl) (Fld.key_ne rfl rfl rfl) (Fld.key_ne rfl rfl rfl)

/-! Interrupts (10 R250). -/

theorem bit_eq_testBit (n i : Nat) : bit n i = n.testBit i := Nat.testBit_eq_decide_div_mod_eq.symm

theorem bit_withBit (n i : Nat) (b : Bool) : bit (withBit n i b) i = b := by
  cases b
  · simp only [withBit, Bool.false_eq_true, if_false]
    split
    · next h =>
      have hq : (n - 2 ^ i) / 2 ^ i = n / 2 ^ i - 1 := by simpa using Nat.sub_mul_div n (2 ^ i) 1
      simp only [bit, hq, decide_eq_true_eq, decide_eq_false_iff_not] at h ⊢
      omega
    · next h => simpa using h
  · exact bit_withBit_same n i

/-- An interrupt source sets its own pending bit. -/
theorem Chip.bit_clPend (i b : Nat) (h : i < 6) :
    bit ((c.clPend j b).fld (CL_IRQ_PEND.pend j)) i = (bit (c.fld (CL_IRQ_PEND.pend j)) i || decide (b = i)) := by
  have hw : i < (CL_IRQ_PEND.pend j).width := h
  simp only [Chip.clPend, Chip.fld_put_same, bit_eq_testBit, Nat.testBit_mod_two_pow, hw, decide_true, Bool.true_and, Nat.testBit_or,
    Nat.testBit_two_pow]

/-! Microcode (10 R248, R249). -/

/-- One word of the copy goes into the shadow. -/
def loadWord (acc : Tab Nat × Nat) (v : BitVec 64) : Tab Nat × Nat := (Tab.set 0 acc.1 acc.2 v.toNat, acc.2 + 1)

theorem get_loadWords_below (ws : List (BitVec 64)) (t : Tab Nat) (n i : Nat) (h : i < n) :
    Tab.get 0 (ws.foldl loadWord (t, n)).1 i = Tab.get 0 t i := by
  induction ws generalizing t n with
  | nil => rfl
  | cons v ws ih =>
    calc Tab.get 0 (ws.foldl loadWord (Tab.set 0 t n v.toNat, n + 1)).1 i
        = Tab.get 0 (Tab.set 0 t n v.toNat) i := ih _ _ (by omega)
      _ = Tab.get 0 t i := Tab.get_set_other _ _ _ _ _ _ (by omega)

/-- Words loaded from number `n` on stand there in order. -/
theorem get_loadWords (ws : List (BitVec 64)) (t : Tab Nat) (n i : Nat) (v : BitVec 64) (h : ws[i]? = some v) :
    Tab.get 0 (ws.foldl loadWord (t, n)).1 (n + i) = v.toNat := by
  induction ws generalizing t n i with
  | nil => simp at h
  | cons w ws ih =>
    cases i with
    | zero =>
      obtain rfl : w = v := by simpa using h
      exact (get_loadWords_below ws _ _ _ (by omega)).trans (Tab.get_set_same _ _ _ _)
    | succ i =>
      have := ih (Tab.set 0 t n w.toNat) (n + 1) i (by simpa using h)
      rwa [show n + 1 + i = n + (i + 1) by omega] at this

/-- A line written into the shadow word by word. -/
theorem get_refetched (g : Nat → Nat) (t : Tab Nat) (b n i : Nat) (h : i < n) :
    Tab.get 0 ((List.range n).foldl (fun t i => Tab.set 0 t (b + i) (g i)) t) (b + i) = g i := by
  induction n with
  | zero => omega
  | succ n ih =>
    rw [List.range_succ, List.foldl_append, List.foldl_cons, List.foldl_nil, Tab.get_set]
    by_cases hi : i = n
    · simp [hi]
    · rw [if_neg (by omega), ih (by omega)]

end Sys2Proof.Machine
end

section
namespace Sys2Proof.Machine

variable (c : Chip) (j : Nat)

/-! The copy of the microcode and the refetch of a line (10 R248, R249). -/

theorem Chip.fld_clFault (f : Fld) (a r : Nat) (hl : f.key ≠ (CL_FAULT_LO.addr_lo j).key) (hh : f.key ≠ (CL_FAULT_HI.addr_hi j).key)
    (hr : f.key ≠ (CL_FAULT_HI.resp j).key) (hv : f.key ≠ (CL_FAULT_HI.valid j).key) :
    (c.clFault j a r).fld f = c.fld f := by
  unfold Chip.clFault
  split
  · rfl
  · rw [Chip.fld_put_other _ _ _ _ hv, Chip.fld_put_other _ _ _ _ hr, Chip.fld_put2_other _ _ _ _ _ hl hh]

theorem Chip.cl_clFault (k a r : Nat) : (c.clFault j a r).cl k = c.cl k := by
  unfold Chip.clFault
  split <;> rfl

/-- The copy has ended with `code` in the shadow. -/
def Chip.ucodeLoaded (c : Chip) (j : Nat) (code : Tab Nat) : Chip :=
  ((c.put (CL_STATUS.ucode_busy j) 0).onCl j fun x => { x with ucode := code }).put (CL_STATUS.ucode_valid j) 1

/-- The copy has ended at line `k`, answered `r`. -/
def Chip.ucodeFailed (c : Chip) (j k : Nat) (r : Resp) : Chip :=
  let d := c.put (CL_STATUS.ucode_busy j) 0
  let a := d.ucodeBase j + k * 64
  ((d.put (CL_STATUS.ucode_valid j) 0).clFault j a (respCode r)).errEvt (CL_ERR.ucode_load j) (clEvent j) 2 [j, a, respCode r]

theorem exec_clUcodeLoadDone_ok (s : State) (j : Fin 512) (ws : List (BitVec 64))
    (hb : s.chip.flag (CL_STATUS.ucode_busy j) = true) (hl : ws.length = 4096) :
    exec (.clUcodeLoadDone j ws none) s = .next { s with chip := s.chip.ucodeLoaded j (ws.foldl loadWord ([], 0)).1 } := by
  have ht : ws.take 4096 = ws := List.take_of_length_le (Nat.le_of_eq hl)
  change execClUcodeLoadDone j ws none s = _
  simp only [execClUcodeLoadDone, State.on_eq, hb, ht, Bool.not_true, Bool.false_eq_true, if_false]
  rfl

theorem exec_clUcodeLoadDone_failed (s : State) (j : Fin 512) (ws : List (BitVec 64)) (k : Nat) (r : Resp)
    (hb : s.chip.flag (CL_STATUS.ucode_busy j) = true) :
    exec (.clUcodeLoadDone j ws (some (k, r))) s = .next { s with chip := s.chip.ucodeFailed j k r } := by
  change execClUcodeLoadDone j ws (some (k, r)) s = _
  simp only [execClUcodeLoadDone, State.on_eq, hb, Bool.not_true, Bool.false_eq_true, if_false]
  rfl

theorem Chip.ucodeLoaded_shows (code : Tab Nat) : (c.ucodeLoaded j code).flag (CL_STATUS.ucode_valid j) = true ∧
    (c.ucodeLoaded j code).flag (CL_STATUS.ucode_busy j) = false ∧ ((c.ucodeLoaded j code).cl j).ucode = code := by
  refine ⟨Chip.flag_put_same _ _ _, ?_, ?_⟩
  · simp (disch := exact Fld.key_ne rfl rfl rfl) only [Chip.ucodeLoaded, Chip.flag, Chip.fld_put_other, Chip.fld_onCl, Chip.fld_put_same]
    rfl
  · simp [Chip.ucodeLoaded]

theorem Chip.ucodeFailed_shows (k : Nat) (r : Resp) : (c.ucodeFailed j k r).flag (CL_STATUS.ucode_valid j) = false ∧
    (c.ucodeFailed j k r).flag (CL_ERR.ucode_load j) = true := by
  refine ⟨?_, Chip.flag_errEvt _ _ _ _ _ (show 0 < 1 by decide)⟩
  simp (disch := exact Fld.key_ne rfl rfl rfl) only [Chip.ucodeFailed, Chip.flag, Chip.fld_errEvt_other, Chip.fld_clFault,
    Chip.fld_put_same]
  rfl

/-- The line at CL_PC is fetched again with the words `d` (10 R249). -/
def Chip.refetched (c : Chip) (j d : Nat) : Chip :=
  let line := c.fld (CL_PC.pc j) / 8
  (c.incSat (CL_UC_REFETCH_CNT.count j)).onCl j fun x =>
    { x with ucode := (List.range 8).foldl (fun t i => Tab.set 0 t (8 * line + i) (bits d (64 * i) 64)) x.ucode }

/-- The refetch of the line at CL_PC is answered `r` (10 R249). -/
def Chip.refetchFailed (c : Chip) (j : Nat) (r : Resp) : Chip :=
  let d := c.incSat (CL_UC_REFETCH_CNT.count j)
  d.clFault j (d.ucodeBase j + c.fld (CL_PC.pc j) / 8 * 64) (respCode r)

/-- What a refetch does to a cluster that runs on valid microcode. -/
theorem exec_clUcodeRefetch (s : State) (j : Fin 512) (r : Resp) (d : Line) (hs : 2 ≤ s.chip.clState j)
    (hc : s.chip.clClocked j = true) (hv : s.chip.flag (CL_STATUS.ucode_valid j) = true) :
    exec (.clUcodeRefetch j r d) s =
      .next { s with chip := if r = .ok then s.chip.refetched j d.toNat else (s.chip.refetchFailed j r).clTrap j 2 } := by
  change execClUcodeRefetch j r d s = _
  simp only [execClUcodeRefetch, State.on_eq, hc, hv, Nat.not_lt.mpr hs, decide_false, Bool.not_true, Bool.or_false,
    Bool.false_eq_true, if_false]
  rfl

theorem Chip.refetched_shows (d : Nat) :
    (c.refetched j d).fld (CL_UC_REFETCH_CNT.count j) = satN 32 (c.fld (CL_UC_REFETCH_CNT.count j) + 1) ∧
    ∀ i < 8, Tab.get 0 ((c.refetched j d).cl j).ucode (c.fld (CL_PC.pc j) / 8 * 8 + i) = bits d (64 * i) 64 := by
  refine ⟨?_, fun i hi => ?_⟩
  · rw [Chip.refetched, Chip.fld_onCl]
    exact Chip.fld_incSat_same _ _
  · simp only [Chip.refetched, Chip.cl_onCl_same]
    rw [Nat.mul_comm _ 8]
    exact get_refetched _ _ _ _ _ hi

/-- A trap counts nothing at the refetch counter, fatal or not. -/
theorem Chip.refetchCnt_clTrap (n : Nat) : (c.clTrap j n).fld (CL_UC_REFETCH_CNT.count j) = c.fld (CL_UC_REFETCH_CNT.count j) := by
  have hk : (CL_UC_REFETCH_CNT.count j).key < (clBase j + 0x200) * 8 := by
    have : (CL_UC_REFETCH_CNT.count j).key = (clBase j + 0x30) * 8 + 0 := rfl
    omega
  have hland (d : Chip) (upto : Nat) := d.fld_clLand j _ upto hk
  have hhalt (d : Chip) : (d.clHalt j).fld (CL_UC_REFETCH_CNT.count j) = d.fld (CL_UC_REFETCH_CNT.count j) :=
    d.fld_clHalt j _ hk (Fld.key_ne rfl rfl rfl) (Fld.key_ne rfl rfl rfl) (Fld.key_ne rfl rfl rfl) (Fld.key_ne rfl rfl rfl)
      (Fld.key_ne rfl rfl rfl) (Fld.key_ne rfl rfl rfl)
  unfold Chip.clTrap
  dsimp only
  split
  · simp (disch := exact Fld.key_ne rfl rfl rfl) only [hhalt, Chip.fld_errEvt_other, Chip.fld_putB_other, Chip.fld_put_other]
  · split <;>
      simp (disch := exact Fld.key_ne rfl rfl rfl) only [hhalt, Chip.fld_clShow, Chip.fld_clRunState, hland, Chip.fld_put_other,
        Chip.fld_onCl, Chip.fld_errEvt_other, Chip.fld_putB_other]

/-- What a trap records before it goes on (10 R251). -/
def Chip.clTrapRecord (c : Chip) (j n : Nat) (fatal : Bool) : Chip :=
  let pc := c.fld (CL_PC.pc j)
  (((c.put (CL_TRAP.cause j) n).put (CL_TRAP.pc j) pc).putB (CL_TRAP.fatal j) fatal).errEvt (CL_ERR.trap j) (clEvent j) 1
    [j, n, pc, ofBool fatal]

/-- A trap that is not fatal, with no halt asked for, enters the handler at 0xF00. -/
theorem Chip.clTrap_handler (s : State) (n : Nat) (h : ClusterTraps s j) :
    s.chip.clTrap j n = ((((((s.chip.clTrapRecord j n false).put (CL_IRA.ira j) (s.chip.fld (CL_PC.pc j))).onCl j fun x =>
      { x with handler := true, slot := x.slot + 1 }).put (CL_PC.pc j) 0xF00).clLand j
        ((s.chip.cl j).slot + 1)).clRunState j).clShow j := by
  obtain ⟨hh, hr, hq, h0, h4⟩ := h
  simp [Chip.clTrap, Chip.clTrapRecord, hh, hr, hq, h0, h4]

theorem Chip.clTrapRecord_shows (n : Nat) (hn : n < 16) :
    (c.clTrapRecord j n false).fld (CL_TRAP.cause j) = n ∧
    (c.clTrapRecord j n false).fld (CL_TRAP.pc j) = c.fld (CL_PC.pc j) ∧
    (c.clTrapRecord j n false).fld (CL_TRAP.fatal j) = 0 ∧ (c.clTrapRecord j n false).fld (CL_ERR.trap j) = 1 := by
  refine ⟨?_, ?_, ?_, of_decide_eq_true (Chip.flag_errEvt _ _ _ _ _ (show 0 < 1 by decide))⟩ <;>
    simp (disch := exact Fld.key_ne rfl rfl rfl) only [Chip.clTrapRecord, Chip.fld_errEvt_other, Chip.putB, Chip.fld_put_other,
      Chip.fld_put_same]
  · exact Nat.mod_eq_of_lt hn
  · exact Nat.mod_eq_of_lt (c.fld_lt (CL_PC.pc j))
  · rfl

theorem clusterTrapped_of_clTrap (s : State) (n : Nat) (h : ClusterTraps s j) (hn : n < 16) :
    ClusterTrapped s { s with chip := s.chip.clTrap j n } j n := by
  have hcause (d : Chip) (u : Nat) := d.fld_clLand j (CL_TRAP.cause j) u (Fld.key_lt rfl rfl)
  have htpc (d : Chip) (u : Nat) := d.fld_clLand j (CL_TRAP.pc j) u (Fld.key_lt rfl rfl)
  have hfatal (d : Chip) (u : Nat) := d.fld_clLand j (CL_TRAP.fatal j) u (Fld.key_lt rfl rfl)
  have hira (d : Chip) (u : Nat) := d.fld_clLand j (CL_IRA.ira j) u (Fld.key_lt rfl rfl)
  have hpc (d : Chip) (u : Nat) := d.fld_clLand j (CL_PC.pc j) u (Fld.key_lt rfl rfl)
  have herr (d : Chip) (u : Nat) := d.fld_clLand j (CL_ERR.trap j) u (Fld.key_lt rfl rfl)
  have hshow := s.chip.clTrapRecord_shows j n hn
  unfold ClusterTrapped
  dsimp only
  rw [Chip.clTrap_handler j s n h]
  generalize s.chip.clTrapRecord j n false = r at *
  obtain ⟨rcause, rpc, rfatal, rerr⟩ := hshow
  simp (disch := exact Fld.key_ne rfl rfl rfl) only [Chip.flag, Chip.clState, Chip.fld_clShow, Chip.fld_clRunState,
    Chip.clState_clRunState, hcause, htpc, hfatal, hira, hpc, herr, Chip.handler_clLand, Chip.cl_put, Chip.cl_onCl_same,
    Chip.fld_put_other, Chip.fld_put_same, Chip.fld_onCl, rcause, rpc, rfatal, rerr]
  exact ⟨trivial, trivial, rfl, Nat.mod_eq_of_lt (s.chip.fld_lt (CL_PC.pc j)), rfl, rfl, rfl⟩

/-- The fault record of a failed refetch leaves what decides about the trap. -/
theorem Chip.refetchFailed_shows (r : Resp) :
    (c.refetchFailed j r).fld (CL_UC_REFETCH_CNT.count j) = satN 32 (c.fld (CL_UC_REFETCH_CNT.count j) + 1) ∧
    (c.refetchFailed j r).fld (CL_PC.pc j) = c.fld (CL_PC.pc j) ∧ (c.refetchFailed j r).cl j = c.cl j := by
  refine ⟨?_, ?_, ?_⟩
  · simp (disch := exact Fld.key_ne rfl rfl rfl) only [Chip.refetchFailed, Chip.fld_clFault]
    exact Chip.fld_incSat_same _ _
  · simp (disch := exact Fld.key_ne rfl rfl rfl) only [Chip.refetchFailed, Chip.fld_clFault, Chip.fld_incSat_other]
  · rw [Chip.refetchFailed, Chip.cl_clFault]
    exact c.cl_put j _ _

theorem refetchFailed_trapped (s : State) (r : Resp) (h : ClusterTraps s j) :
    ClusterTrapped s { s with chip := (s.chip.refetchFailed j r).clTrap j 2 } j 2 := by
  obtain ⟨-, hpc, hcl⟩ := s.chip.refetchFailed_shows j r
  have ht : ClusterTraps { s with chip := s.chip.refetchFailed j r } j := by
    unfold ClusterTraps
    rw [hpc, hcl]
    exact h
  have := clusterTrapped_of_clTrap j _ 2 ht (by decide)
  unfold ClusterTrapped at this ⊢
  rwa [hpc] at this

/-! The local-memory window (10 R253). -/

/-- Nothing upset, nothing changed. -/
theorem Chip.lmUpset_zero (i : Nat) : c.lmUpset j [i] [0] = c.setCl j (c.cl j) := by
  simp [Chip.lmUpset, Chip.onCl]

/-- Reading local memory moves no register but its counts and its error bit. -/
theorem Chip.fld_lmTouch (f : Fld) (ws : List Nat) (hc : f.key ≠ (CL_LM_CE_CNT.count j).key)
    (hu : f.key ≠ (CL_LM_UE_CNT.count j).key) (he : f.key ≠ (CL_ERR.lm_ue j).key) : (c.lmTouch j ws).fld f = c.fld f := by
  refine Chip.each_inv (fun d => d.fld f = c.fld f) _ (fun d i hd => ?_) ws c rfl
  dsimp only
  split
  · exact hd
  split
  · rw [Chip.fld_onCl, Chip.fld_incSat_other _ _ _ hc, hd]
  · rw [Chip.fld_errEvt_other _ _ _ _ _ _ he, Chip.fld_incSat_other _ _ _ hu, hd]

/-- A read steps CL_LM_ADDR. -/
theorem Chip.lmAddr_lmRead : (c.lmRead j).fld (CL_LM_ADDR.addr j) = (c.fld (CL_LM_ADDR.addr j) + 1) % 2 ^ 15 := by
  have he : (CL_LM_ADDR.addr j).key ≠ (CL_ERR.lm_ue j).key := Fld.key_ne rfl rfl rfl
  have ht (ws : List Nat) := c.fld_lmTouch j (CL_LM_ADDR.addr j) ws (Fld.key_ne rfl rfl rfl) (Fld.key_ne rfl rfl rfl) he
  unfold Chip.lmRead
  dsimp only
  rw [Chip.fld_incWrap_same]
  split
  · rw [Chip.fld_errEvt_other _ _ _ _ _ _ he, ht]
    rfl
  · rw [ht]
    rfl

theorem Chip.lmWrite_bad (v : Nat) (h : ((c.cl j).word (c.lmAt j).1).bad = true) :
    c.lmWrite j v = c.incWrap (CL_LM_ADDR.addr j) := by
  simp [Chip.lmWrite, h]

theorem Cluster.word_store (x : Cluster) (m : LmWrite) : (x.store m).word m.word = (x.word m.word).take m := by
  simp [Cluster.word, Cluster.store]

/-- A half-word mask takes that half of a number. -/
theorem and_halfMask (n k : Nat) : n &&& (2 ^ 32 - 1) * 2 ^ k = n / 2 ^ k % 2 ^ 32 * 2 ^ k := by
  rw [← Nat.and_two_pow_sub_one_eq_mod]
  refine Nat.eq_of_testBit_eq fun i => ?_
  by_cases hk : k ≤ i
  · simp only [Nat.testBit_and, Nat.testBit_mul_two_pow, hk, decide_true, Bool.true_and, Nat.testBit_div_two_pow, Nat.sub_add_cancel]
  · simp only [Nat.testBit_and, Nat.testBit_mul_two_pow, hk, decide_false, Bool.false_and, Bool.and_false]

/-- A half replaced in a number reads as written. -/
theorem bits_replaceHalf (n v k : Nat) (hv : v < 2 ^ 32) :
    bits (n - (n &&& (2 ^ 32 - 1) * 2 ^ k) + v * 2 ^ k) k 32 = v := by
  have hsub : (n - n / 2 ^ k % 2 ^ 32 * 2 ^ k) / 2 ^ k = n / 2 ^ k - n / 2 ^ k % 2 ^ 32 := by
    rw [Nat.mul_comm _ (2 ^ k)]
    exact Nat.sub_mul_div _ _ _
  rw [bits, and_halfMask, Nat.add_mul_div_right _ _ (Nat.two_pow_pos k), hsub]
  omega

/-- A half of a good word written reads as written, and the word has no upset cell left. -/
theorem LmWord.bits_take (w : LmWord) (i h v : Nat) (hw : w.bad = false) (hh : h < 2) (hv : v < 2 ^ 32) :
    bits (w.take ⟨0, i, (2 ^ 32 - 1) * 2 ^ (32 * h), v * 2 ^ (32 * h), false, false⟩).value (32 * h) 32 = v := by
  have hf : onesN 72 w.flips ≤ 1 := by
    simp only [LmWord.bad, Bool.or_eq_false_iff, decide_eq_false_iff_not] at hw
    omega
  have hm : (2 ^ 32 - 1) * 2 ^ (32 * h) ≠ 2 ^ 64 - 1 := by
    obtain rfl | rfl : h = 0 ∨ h = 1 := by omega
    · decide
    · decide
  have h0 : onesN 72 0 ≤ 1 := by decide
  simp only [LmWord.take, if_neg hm, if_pos hf, LmWord.value, if_pos h0]
  exact bits_replaceHalf _ v _ hv

/-- A write of CL_LM_DATA into a good word (10 R253). -/
theorem Chip.lmWrite_good (v : Nat) (hv : v < 2 ^ 32) (h : ((c.cl j).word (c.lmAt j).1).bad = false) :
    bits (((c.lmWrite j v).cl j).word (c.lmAt j).1).value (32 * (c.lmAt j).2) 32 = v := by
  have hh : (c.lmAt j).2 < 2 := Nat.mod_lt _ (by decide)
  have hc : ((c.lmWrite j v).cl j).word (c.lmAt j).1 = ((c.cl j).word (c.lmAt j).1).take
      ⟨0, (c.lmAt j).1, (2 ^ 32 - 1) * 2 ^ (32 * (c.lmAt j).2), v * 2 ^ (32 * (c.lmAt j).2), false, false⟩ := by
    simp only [Chip.lmWrite, h, Bool.false_eq_true, if_false, Chip.incWrap, Chip.cl_put, Chip.cl_onCl_same, Nat.mod_eq_of_lt hv]
    exact Cluster.word_store _ _
  rw [hc]
  exact LmWord.bits_take _ _ _ _ h hh hv

theorem Chip.lmAddr_lmWrite (v : Nat) : (c.lmWrite j v).fld (CL_LM_ADDR.addr j) = (c.fld (CL_LM_ADDR.addr j) + 1) % 2 ^ 15 := by
  unfold Chip.lmWrite
  dsimp only
  rw [Chip.fld_incWrap_same]
  split <;> rfl

/-! The register window (10 R253). -/

/-- A register below the windows holds no part of a scalar or of an accumulator. -/
theorem Chip.clX_put (g : Fld) (v x : Nat) (h : g.key < (clBase j + 0x200) * 8) : (c.put g v).clX j x = c.clX j x := by
  have hlo : (CL_X_LO.lo j x).key = (clBase j + 0x200 + 8 * x) * 8 + 0 := rfl
  have hhi : (CL_X_HI.hi j x).key = (clBase j + 0x204 + 8 * x) * 8 + 0 := rfl
  rw [Chip.clX, Chip.fld2, Chip.fld_put_other _ _ _ _ (by omega), Chip.fld_put_other _ _ _ _ (by omega)]
  rfl

theorem Chip.clAccBits_put (g : Fld) (v x : Nat) (h : g.key < (clBase j + 0x200) * 8) :
    (c.put g v).clAccBits j x = c.clAccBits j x := by
  have hlo : (CL_ACC_LO.lo j x).key = (clBase j + 0x280 + 16 * x) * 8 + 0 := rfl
  have hmid : (CL_ACC_MID.mid j x).key = (clBase j + 0x284 + 16 * x) * 8 + 0 := rfl
  have htop : (CL_ACC_TOP.top j x).key = (clBase j + 0x288 + 16 * x) * 8 + 0 := rfl
  rw [Chip.clAccBits, Chip.fld3, Chip.fld_put_other _ _ _ _ (by omega), Chip.fld_put_other _ _ _ _ (by omega),
    Chip.fld_put_other _ _ _ _ (by omega)]
  rfl

theorem Chip.clRegWrite_refused (off v : Nat) (h : 1 < c.clState j) : c.clRegWrite j off v = c.put (CL_ERR.bad_value j) 1 :=
  if_pos h

theorem Chip.clRegWrite_ctrl (v : Nat) (h : c.clState j ≤ 1) : (c.clRegWrite j 0 v).fld (CL_CTRL.gck j) = v % 16 := by
  have hn : ¬1 < c.clState j := by omega
  rw [Chip.clRegWrite, if_neg hn, if_pos rfl]
  simp (disch := exact Fld.key_ne (b := clBase j) (m := 0) (n := 0) rfl rfl rfl) only [Chip.fld_put_other, Chip.fld_put_same, Fld.of_mod]
  simp [Fld.of, bits, CL_CTRL.gck]

/-- The high word of a scalar register applies the low word held for it (00 R15). -/
theorem Chip.clRegWrite_scalar (v x : Nat) (h : c.clState j ≤ 1) (hx : x < 16) (hv : v < 2 ^ 32) :
    (c.clRegWrite j (0x204 + 8 * x) v).clX j x = c.heldWord (clBase j + 0x200 + 8 * x) 0 % 2 ^ 32 + 2 ^ 32 * v := by
  have hreg : c.clRegWrite j (0x204 + 8 * x) v =
      (c.put (CL_X_LO.lo j x) (c.heldWord (clBase j + 0x200 + 8 * x) 0)).put (CL_X_HI.hi j x) v := by
    have e : (0x204 + 8 * x - 0x200) / 8 = x := by omega
    have ea : clBase j + (0x204 + 8 * x) - 4 = clBase j + 0x200 + 8 * x := by omega
    rw [Chip.clRegWrite, if_neg (by omega), if_neg (by omega), if_neg (by omega), if_pos (by omega)]
    dsimp only
    rw [if_neg (by omega), e, ea]
  have hlo : (CL_X_LO.lo j x).key = (clBase j + 0x200 + 8 * x) * 8 + 0 := rfl
  have hhi : (CL_X_HI.hi j x).key = (clBase j + 0x204 + 8 * x) * 8 + 0 := rfl
  rw [hreg, Chip.clX, Chip.fld2, Chip.fld_put_same, Chip.fld_put_other _ _ _ _ (by omega), Chip.fld_put_same]
  exact congrArg (_ + 2 ^ 32 * ·) (Nat.mod_eq_of_lt hv)

end Sys2Proof.Machine
end

section
namespace Sys2Proof.Machine

variable (c : Chip) (j : Nat)

theorem Chip.cl_clPend (k b : Nat) : (c.clPend j b).cl k = c.cl k := c.cl_put k _ _

theorem Chip.clLoad_taken (h : c.clState j ≤ 1) :
    c.clLoad j = (c.put (CL_STATUS.ucode_busy j) 1).emit (.dramRead (.cluster j) (c.ucodeBase j) 32768) :=
  if_neg (Nat.not_lt.mpr h)

theorem Chip.clLoad_refused (h : 1 < c.clState j) : c.clLoad j = c.put (CL_ERR.bad_value j) 1 := if_pos h

end Sys2Proof.Machine

namespace Sys2Proof

open Machine

variable (s : State) (j : Fin 512)

theorem clCmdStart_spec : Completes (.clCmdStart j) s fun t =>
    (s.chip.clState j ≤ 1 → s.chip.flag (CL_STATUS.ucode_valid j) = true → s.chip.fld (CL_STATUS.depth j) ≤ 4 →
      t.chip.clState j = 2 ∧ t.chip.fld (CL_PC.pc j) = s.chip.fld (CL_START.start j) ∧ t.chip.fld (CL_STATUS.depth j) = 0 ∧
      (t.chip.cl j).handler = false) ∧
    (1 < s.chip.clState j ∨ s.chip.flag (CL_STATUS.ucode_valid j) = false →
      t.chip.clState j = s.chip.clState j ∧ t.chip.flag (CL_ERR.start_refused j) = true) := by
  refine ⟨{ s with chip := s.chip.clStart j }, rfl, s.chip.clStart_runs j, fun h => ?_⟩
  simp [s.chip.clStart_refused j h]

theorem clCmdResume_spec : Completes (.clCmdResume j) s fun t =>
    (s.chip.clState j = 1 → t.chip.clState j = (if (s.chip.cl j).handler then 3 else 2) ∧
      t.chip.fld (CL_PC.pc j) = s.chip.fld (CL_PC.pc j)) ∧
    (s.chip.clState j ≠ 1 → t.chip.clState j = s.chip.clState j ∧ t.chip.flag (CL_ERR.start_refused j) = true) := by
  refine ⟨{ s with chip := s.chip.clResume j }, rfl, s.chip.clResume_halted j, fun h => ?_⟩
  simp [s.chip.clResume_refused j h]

theorem clCmdHalt_spec : Completes (.clCmdHalt j) s fun t =>
    (2 ≤ s.chip.clState j → (s.chip.cl j).redirs = [] →
      t.chip.clState j = 1 ∧ t.chip.fld (CL_PC.pc j) = s.chip.fld (CL_PC.pc j)) ∧
    (s.chip.clState j < 2 → t.chip.clState j = s.chip.clState j ∧ t.chip.flag (CL_ERR.start_refused j) = true) := by
  refine ⟨{ s with chip := s.chip.clStop j }, rfl, fun hs hr => ?_, fun h => ?_⟩
  · simp only [s.chip.clStop_boundary j hs hr]
    exact ⟨s.chip.clState_clHalt j, s.chip.pc_clHalt j⟩
  · simp [s.chip.clStop_refused j h]

theorem clCmdIrq_spec : Completes (.clCmdIrq j) s fun t => bit (t.chip.fld (CL_IRQ_PEND.pend j)) 0 = true :=
  ⟨{ s with chip := s.chip.clPend j 0 }, rfl, by simp [s.chip.bit_clPend j 0 0 (by decide)]⟩

theorem clCmdLoadUcode_spec : Completes (.clCmdLoadUcode j) s fun t =>
    (s.chip.clState j ≤ 1 → t.chip.flag (CL_STATUS.ucode_busy j) = true ∧
      .dramRead (.cluster j) (s.chip.ucodeBase j) 32768 ∈ t.chip.out) ∧
    (1 < s.chip.clState j → t.chip.flag (CL_ERR.bad_value j) = true ∧ t.chip.out = s.chip.out) := by
  refine ⟨{ s with chip := s.chip.clLoad j }, rfl, fun h => ?_, fun h => ?_⟩
  · simp only [s.chip.clLoad_taken j h]
    exact ⟨Chip.flag_put_same s.chip _ 1, List.mem_append_right _ (List.mem_singleton.mpr rfl)⟩
  · simp only [s.chip.clLoad_refused j h]
    exact ⟨Chip.flag_put_same _ _ _, rfl⟩

theorem clUcodeLoadDone_ok (ws : List (BitVec 64)) (hb : s.chip.flag (CL_STATUS.ucode_busy j) = true) (hl : ws.length = 4096) :
    Completes (.clUcodeLoadDone j ws none) s fun t => t.chip.flag (CL_STATUS.ucode_valid j) = true ∧
      t.chip.flag (CL_STATUS.ucode_busy j) = false ∧
      ∀ (i : Nat) (v : BitVec 64), ws[i]? = some v → Tab.get 0 (t.chip.cl j).ucode i = v.toNat := by
  obtain ⟨hvalid, hbusy, hcode⟩ := s.chip.ucodeLoaded_shows j (ws.foldl loadWord ([], 0)).1
  refine ⟨_, exec_clUcodeLoadDone_ok s j ws hb hl, hvalid, hbusy, fun i v h => ?_⟩
  have := get_loadWords ws [] 0 i v h
  rw [Nat.zero_add] at this
  rw [hcode, this]

theorem clUcodeRefetch_spec (r : Resp) (d : Line) (hs : 2 ≤ s.chip.clState j) (hc : s.chip.clClocked j = true)
    (hv : s.chip.flag (CL_STATUS.ucode_valid j) = true) : Completes (.clUcodeRefetch j r d) s fun t =>
      t.chip.fld (CL_UC_REFETCH_CNT.count j) = satN 32 (s.chip.fld (CL_UC_REFETCH_CNT.count j) + 1) ∧
      (r = .ok → ∀ i < 8, Tab.get 0 (t.chip.cl j).ucode (s.chip.fld (CL_PC.pc j) / 8 * 8 + i) = bits d.toNat (64 * i) 64) ∧
      (r ≠ .ok → ClusterTraps s j → ClusterTrapped s t j 2) := by
  refine ⟨_, exec_clUcodeRefetch s j r d hs hc hv, ?_⟩
  by_cases hr : r = .ok
  · obtain ⟨hcnt, hcode⟩ := s.chip.refetched_shows j d.toNat
    simp only [if_pos hr]
    exact ⟨hcnt, fun _ => hcode, fun h => absurd hr h⟩
  · simp only [if_neg hr]
    exact ⟨(Chip.refetchCnt_clTrap _ _ _).trans (s.chip.refetchFailed_shows j r).1, fun h => absurd h hr,
      fun _ => refetchFailed_trapped j s r⟩

theorem clRegionIrq_spec (n : Fin 4) (v : Bool) : Completes (.clRegionIrq j n v) s fun t =>
    bit (t.chip.fld (CL_IRQ_PEND.pend j)) (2 + n) =
      (bit (s.chip.fld (CL_IRQ_PEND.pend j)) (2 + n) || (v && !bit (s.chip.cl j).irqLines n)) ∧
    bit (t.chip.cl j).irqLines n = v := by
  refine ⟨_, rfl, ?_⟩
  dsimp only
  cases v && !bit (s.chip.cl j).irqLines n
  · simp [Chip.doIf_false, bit_withBit]
  · simp [Chip.doIf_true, Chip.bit_clPend, Chip.cl_clPend, bit_withBit, show 2 + n.val < 6 by omega]

theorem clLmDataRead_spec (src : Src) : let a := s.chip.fld (CL_LM_ADDR.addr j)
    let w := (s.chip.cl j).word (a / 2)
    Completes (.clLmDataRead j src 0) s fun t => t.chip.fld (CL_LM_ADDR.addr j) = (a + 1) % 2 ^ 15 ∧
      .csr src (CL_LM_DATA.data j).addr (if w.bad then 0 else bits w.value (32 * (a % 2)) 32) ∈ t.chip.out := by
  refine ⟨_, rfl, ?_, ?_⟩
  · dsimp only
    rw [Chip.fld_emit, Chip.lmAddr_lmRead, Chip.lmUpset_zero, Chip.fld_setCl]
  · refine List.mem_append_right _ (List.mem_singleton.mpr ?_)
    rw [Chip.lmUpset_zero, Chip.lmPeek, Chip.lmAt, Chip.cl_setCl_same, Chip.fld_setCl]

theorem clLmDataWrite_spec (v : Word) : let a := s.chip.fld (CL_LM_ADDR.addr j)
    let w := (s.chip.cl j).word (a / 2)
    Completes (.clLmDataWrite j v) s fun t => t.chip.fld (CL_LM_ADDR.addr j) = (a + 1) % 2 ^ 15 ∧
      (w.bad = false → bits ((t.chip.cl j).word (a / 2)).value (32 * (a % 2)) 32 = v.toNat) ∧
      (w.bad = true → (t.chip.cl j).lm = (s.chip.cl j).lm) := by
  refine ⟨{ s with chip := s.chip.lmWrite j v.toNat }, rfl, s.chip.lmAddr_lmWrite j _, s.chip.lmWrite_good j _ v.isLt, fun h => ?_⟩
  simp only [s.chip.lmWrite_bad j _ h, Chip.incWrap, Chip.cl_put]

theorem clRegWrite_spec (off : BitVec 10) (v : Word) : Completes (.clRegWrite j off v) s fun t =>
    (1 < s.chip.clState j → t.chip.flag (CL_ERR.bad_value j) = true ∧ t.chip.csr = s.chip.csr ∧
      (∀ x < 16, t.chip.clX j x = s.chip.clX j x ∧ t.chip.clAccBits j x = s.chip.clAccBits j x)) ∧
    (s.chip.clState j ≤ 1 → off.toNat / 4 = 0 → t.chip.fld (CL_CTRL.gck j) = v.toNat % 16) ∧
    (∀ x < 16, s.chip.clState j ≤ 1 → off.toNat / 4 * 4 = 0x204 + 8 * x →
      t.chip.clX j x = s.chip.heldWord (clBase j + 0x200 + 8 * x) 0 % 2 ^ 32 + 2 ^ 32 * v.toNat) := by
  refine ⟨{ s with chip := s.chip.clRegWrite j (off.toNat / 4 * 4) v.toNat }, rfl, fun h => ?_, fun h h0 => ?_, fun x hx h ho => ?_⟩
  · have hk : (CL_ERR.bad_value j).key < (clBase j + 0x200) * 8 := Fld.key_lt rfl rfl
    simp only [s.chip.clRegWrite_refused j _ _ h]
    exact ⟨Chip.flag_put_same _ _ _, rfl, fun x _ => ⟨Chip.clX_put _ _ _ _ _ hk, Chip.clAccBits_put _ _ _ _ _ hk⟩⟩
  · simp only [h0, Nat.zero_mul]
    exact s.chip.clRegWrite_ctrl j _ h
  · simp only [ho]
    exact s.chip.clRegWrite_scalar j _ x h hx v.isLt

/-- Settles O38, command by command. -/
theorem clusterControl : Obligations.ClusterControl :=
  ⟨fun s j => ⟨clCmdStart_spec s j, clCmdResume_spec s j, clCmdHalt_spec s j, clCmdIrq_spec s j, clCmdLoadUcode_spec s j⟩,
    fun s j ws hb hl => clUcodeLoadDone_ok s j ws hb hl,
    fun s j ws k r hb => ⟨_, exec_clUcodeLoadDone_failed s j ws k r hb, s.chip.ucodeFailed_shows j k r⟩,
    fun s j r d hs hc hv => clUcodeRefetch_spec s j r d hs hc hv, clRegionIrq_spec, clLmDataRead_spec, clLmDataWrite_spec,
    clRegWrite_spec⟩

end Sys2Proof
end

section
/-! O18: what a port of a block memory writes, it reads (06 R146, R147, R150, R152). -/

namespace Sys2Proof.Machine

/-- The bits of a number from `k` on, replaced by the `w` low bits of `u`, read as those. -/
theorem bits_replaceAt (n u k w : Nat) : bits (n - bits n k w * 2 ^ k + u % 2 ^ w * 2 ^ k) k w = u % 2 ^ w := by
  have hsub : (n - n / 2 ^ k % 2 ^ w * 2 ^ k) / 2 ^ k = 2 ^ w * (n / 2 ^ k / 2 ^ w) := by
    rw [Nat.mul_comm _ (2 ^ k), Nat.sub_mul_div, Nat.sub_eq_of_eq_add (Nat.div_add_mod _ _).symm]
  rw [bits, bits, Nat.add_mul_div_right _ _ (Nat.two_pow_pos k), hsub, Nat.mul_add_mod, Nat.mod_mod]

/-- `d` has the launch queue, the regions and quarters, and the block memories of `c`, block `b` excepted. -/
structure Chip.SameButBlock (b : Nat) (c d : Chip) : Prop where
  lq : d.lq = c.lq
  regions : d.regions = c.regions
  quarters : d.quarters = c.quarters
  block : ∀ k, k ≠ b → d.block k = c.block k

theorem Chip.SameButBlock.trans {b : Nat} {c d e : Chip} (h : c.SameButBlock b d) (h' : d.SameButBlock b e) : c.SameButBlock b e :=
  ⟨h'.lq.trans h.lq, h'.regions.trans h.regions, h'.quarters.trans h.quarters, fun k hk => (h'.block k hk).trans (h.block k hk)⟩

theorem Chip.SameButBlock.bmClocked_eq {b : Nat} {c d : Chip} (h : c.SameButBlock b d) : d.bmClocked b = c.bmClocked b := by
  simp only [Chip.bmClocked, Chip.region, Chip.quarter, h.regions, h.quarters]

/-- Block `b` is `x`, a clocked TDP block with SEC-DED whose port `port` is at most one word wide. -/
structure Chip.NarrowPort (c : Chip) (b port : Nat) (x : BmBlock) : Prop where
  block : c.block b = x
  clocked : c.bmClocked b = true
  mode : x.mode = 0
  prot : x.prot = 0
  width : x.width port ≤ 64

/-- The stored word that holds the entry of a narrow port's address (06 R146). -/
def BmBlock.portWord (x : BmBlock) (port addr : Nat) : Nat := addr % x.depth (x.width port) * x.width port / 64

/-- The bit of that word the entry begins at. -/
def BmBlock.portBit (x : BmBlock) (port addr : Nat) : Nat := addr % x.depth (x.width port) * x.width port % 64

/-- The entry of a narrow port's address holds `n` in a word with no upset cell, and that port wrote last. -/
def Chip.PortHolds (c : Chip) (b port addr n : Nat) : Prop := ∃ x d e old, c.NarrowPort b port x ∧
  x.lastW = some (port, e, old) ∧ x.word (x.portWord port addr) = ⟨d, 0, true⟩ ∧ bits d (x.portBit port addr) (x.width port) = n

variable (c : Chip) (b : Nat)

theorem Chip.SameButBlock.refl : c.SameButBlock b c := ⟨rfl, rfl, rfl, fun _ _ => rfl⟩

theorem Chip.sameButBlock_put (f : Fld) (v : Nat) : c.SameButBlock b (c.put f v) := ⟨rfl, rfl, rfl, fun _ _ => rfl⟩

theorem Chip.sameButBlock_setBlock (x : BmBlock) : c.SameButBlock b (c.setBlock b x) :=
  ⟨rfl, rfl, rfl, fun k hk => c.block_setBlock_other b k x hk⟩

theorem Chip.sameButBlock_bmPresent (port data poison line flag : Nat) :
    c.SameButBlock b (c.bmPresent b port data poison line flag) :=
  ⟨rfl, rfl, rfl, fun k hk => c.block_setBlock_other b k _ hk⟩

theorem Chip.bmPresent_mode (port data poison line flag : Nat) :
    ((c.bmPresent b port data poison line flag).block b).mode = (c.block b).mode := by
  unfold Chip.bmPresent
  exact (congrArg BmBlock.mode (c.block_setBlock_same b _)).trans (by split <;> rfl)

theorem Chip.fifoFlags_of_not_fifo (h : (c.block b).mode ≠ 2) : c.fifoFlags b = c := if_pos h

/-- The record of a region's first error is registers alone. -/
theorem Chip.bmFirst_keeps (word kind syn : Nat) : c.SameButBlock b (c.bmFirst b word kind syn) ∧
    (c.bmFirst b word kind syn).block b = c.block b := by
  simp only [Chip.bmFirst]
  split
  · exact ⟨.refl c b, rfl⟩
  · exact ⟨⟨rfl, rfl, rfl, fun _ _ => rfl⟩, rfl⟩

theorem Chip.bmJudge_clean (a : Nat) (h : (c.block b).bad ((c.block b).word a) = 0) : c.bmJudge b a = (c, false) :=
  if_pos (.inr h)

/-- The read of a word that is not uncorrectable finds no poison, and changes of the block the write-backs that wait (06 R150). -/
theorem Chip.bmJudge_correctable (a : Nat) (hs : (c.block b).prot = 0)
    (h : (c.block b).bad ((c.block b).word a) ≤ 1) :
    ∃ d l, c.bmJudge b a = (d, false) ∧ c.SameButBlock b d ∧ d.block b = { c.block b with fixes := l } := by
  obtain h0 | h1 : (c.block b).bad ((c.block b).word a) = 0 ∨ (c.block b).bad ((c.block b).word a) = 1 := by omega
  · exact ⟨c, _, c.bmJudge_clean b a h0, .refl c b, rfl⟩
  · have hnot : ¬((c.block b).prot ≠ 0 ∨ (c.block b).bad ((c.block b).word a) = 0) := by simp [hs, h1]
    obtain ⟨hkeep, hblock⟩ := (c.incSat (BM_CE_CNT.count (b / 160))).bmFirst_keeps b a 1
      (Sys2Proof.Config.syndrome ((c.block b).word a).flips % 256)
    simp only [Chip.bmJudge, if_neg hnot, if_pos h1]
    replace hkeep := (c.sameButBlock_put b _ _).trans hkeep
    split
    · exact ⟨_, _, rfl, hkeep.trans (Chip.sameButBlock_setBlock _ b _), Chip.block_setBlock_same _ b _⟩
    · exact ⟨_, _, rfl, hkeep, hblock⟩

theorem BmBlock.bad_written (x : BmBlock) (d : Nat) : x.bad ⟨d, 0, true⟩ = 0 := by simp [BmBlock.bad, onesN]

/-- A word written with no upset cell reads as written (06 R150). -/
theorem BmBlock.value_written (x : BmBlock) (d : Nat) (hs : x.prot = 0) : x.value ⟨d, 0, true⟩ = d := by
  simp [BmBlock.value, BmBlock.bad_written, hs]

section
variable {c b} {port : Nat} {x : BmBlock} (addr : Nat) (hp : c.NarrowPort b port x)
include hp

theorem Chip.NarrowPort.span_eq : x.span (x.width port) (addr % x.depth (x.width port)) = [x.portWord port addr] := by
  simp [BmBlock.span, BmBlock.wordBits, BmBlock.portWord, hp.prot, hp.width]

theorem Chip.NarrowPort.entry_eq (d : Nat) :
    x.entry (x.width port) (addr % x.depth (x.width port)) [d] = bits d (x.portBit port addr) (x.width port) := by
  simp [BmBlock.entry, BmBlock.wordBits, BmBlock.portBit, hp.prot, hp.width]

/-- A word merged for a narrow port holds the port's data at its entry, and no upset cell (06 R147). -/
theorem Chip.NarrowPort.merge_eq (v : Nat) : ∃ d,
    x.merge (x.width port) (addr % x.depth (x.width port)) (x.portWord port addr) v = ⟨d, 0, true⟩ ∧
    bits d (x.portBit port addr) (x.width port) = v % 2 ^ x.width port := by
  have hn : x.wordBits = 64 := by simp [BmBlock.wordBits, hp.prot]
  simp only [BmBlock.merge, hn, hp.span_eq, hp.prot]
  obtain hw | hw : x.width port = 64 ∨ x.width port < 64 := by have := hp.width; omega
  · refine ⟨bits v 0 64, by simp [hw], ?_⟩
    simp [BmBlock.portBit, hw, bits]
  · exact ⟨_, by simp [Nat.not_le.mpr hw]; rfl, bits_replaceAt _ v _ _⟩

/-- The read a narrow write makes of its word first leaves the block its words (06 R147, R152). -/
theorem Chip.NarrowPort.preRead (hb : x.bad (x.word (x.portWord port addr)) ≤ 1) :
    ∃ d l, (if x.width port < 64 then (c.setBlock b x).bmJudge b (x.portWord port addr) else (c.setBlock b x, false)) = (d, false) ∧
      c.SameButBlock b d ∧ d.block b = { x with fixes := l } := by
  have hset := c.sameButBlock_setBlock b x
  have hblock := c.block_setBlock_same b x
  split
  · obtain ⟨d, l, hj, hd, hdb⟩ := (c.setBlock b x).bmJudge_correctable b (x.portWord port addr) (by rw [hblock, hp.prot])
      (by rwa [hblock])
    exact ⟨d, l, hj, hset.trans hd, by rw [hdb, hblock]⟩
  · exact ⟨_, _, rfl, hset, hblock⟩

/-- A write of a word that is not uncorrectable merges the port's data into it (06 R147, R152). -/
theorem Chip.NarrowPort.bmWrite_eq (v e : Nat) (hl : x.lastW = none) (hb : x.bad (x.word (x.portWord port addr)) ≤ 1) :
    let i := x.portWord port addr
    ∃ c' d l, c.SameButBlock b c' ∧ bits d (x.portBit port addr) (x.width port) = v % 2 ^ x.width port ∧
      c.bmWrite b port addr v e [] =
        c'.setBlock b { x.setWord i ⟨d, 0, true⟩ with lastW := some (port, e, [(i, x.word i)]), fixes := l } := by
  intro i
  obtain ⟨c', l, hj, hkeep, hblock⟩ := hp.preRead addr hb
  obtain ⟨d, hmerge, hbits⟩ := hp.merge_eq addr v
  replace hmerge : ({ x with fixes := l } : BmBlock).merge _ _ _ _ = _ := hmerge
  have hspan := hp.span_eq addr
  obtain ⟨hx, hc, hm, hs, -⟩ := hp
  refine ⟨c', d, l.filter fun k => !decide (k = i), hkeep, hbits, ?_⟩
  simp only [Chip.bmWrite, hx, hc, hm, hl, hs]
  cases x
  dsimp only at hm hs hl
  subst hm hs hl
  simp [i, hspan, BmBlock.upset, hj, hblock, BmBlock.setWord, BmBlock.word, hmerge, Chip.fifoFlags_of_not_fifo]

/-- What a write of a word that is not uncorrectable leaves: the port's data at the entry, and every other block (06 R147). -/
theorem Chip.NarrowPort.bmWrite (v e : Nat) (hl : x.lastW = none) (hb : x.bad (x.word (x.portWord port addr)) ≤ 1) :
    c.SameButBlock b (c.bmWrite b port addr v e []) ∧
      (c.bmWrite b port addr v e []).PortHolds b port addr (v % 2 ^ x.width port) := by
  obtain ⟨c', d, l, hkeep, hbits, hbm⟩ := hp.bmWrite_eq addr v e hl hb
  have hsame y := hkeep.trans (c'.sameButBlock_setBlock b y)
  rw [hbm]
  exact ⟨hsame _, _, d, e, _, ⟨Chip.block_setBlock_same _ b _, (hsame _).bmClocked_eq.trans hp.clocked, hp.mode, hp.prot, hp.width⟩,
    rfl, Tab.get_set_same _ _ _ _, hbits⟩

/-- A read, on the port that wrote last, of a word with no upset cell (06 R148, R150). -/
theorem Chip.NarrowPort.bmRead_eq {e' d : Nat} {old : List (Nat × BmWord)} (e : Nat) (hl : x.lastW = some (port, e', old))
    (hw : x.word (x.portWord port addr) = ⟨d, 0, true⟩) :
    c.bmRead b port addr e [] = (c.setBlock b x).bmPresent b port (bits d (x.portBit port addr) (x.width port)) 0 0 0 := by
  have hspan := hp.span_eq addr
  have hentry := hp.entry_eq addr d
  have hval := x.value_written d hp.prot
  obtain ⟨hx, hc, hm, hs, -⟩ := hp
  have hclean : (c.setBlock b x).bmJudge b (x.portWord port addr) = (c.setBlock b x, false) :=
    Chip.bmJudge_clean _ _ _ (by rw [Chip.block_setBlock_same, hw, BmBlock.bad_written])
  have hfifo (data : Nat) := Chip.fifoFlags_of_not_fifo ((c.setBlock b x).bmPresent b port data 0 0 0) b
    (by simp [Chip.bmPresent_mode, hm])
  simp [Chip.bmRead, hx, hc, hm, hs, hspan, BmBlock.upset, hclean, hw, hl, hval, hentry, Chip.doIf_false, ofBool, hfifo]
end

/-- A read on the port that wrote last presents what the entry holds, with no poison, no line error and no flag (06 R150). -/
theorem Chip.PortHolds.bmRead {c : Chip} {b port addr n : Nat} (h : c.PortHolds b port addr n) (e : Nat) :
    c.SameButBlock b (c.bmRead b port addr e []) ∧
      (c.bmRead b port addr e []).out = c.out ++ [.fabric (b / 160) 3 [b % 160, port, n, 0, 0, 0]] := by
  obtain ⟨x, d, e', old, hp, hl, hw, rfl⟩ := h
  rw [hp.bmRead_eq addr e hl hw]
  exact ⟨(c.sameButBlock_setBlock b x).trans (Chip.sameButBlock_bmPresent _ b port _ 0 0 0), rfl⟩

end Sys2Proof.Machine

namespace Sys2Proof

open Machine

/-- Settles O18: the write leaves the port's data at its entry in a word with no upset cell, which the read then presents. -/
theorem blockMemoryReadback : Obligations.BlockMemoryReadback := by
  intro s b port a e e' v x w hc hm hs hw hl hb
  have hle : ∀ n ∈ [1, 2, 4, 8, 16, 32, 64], n ≤ 64 := by decide
  have hp : s.chip.NarrowPort b port x := ⟨rfl, hc, hm, hs, hle w hw⟩
  obtain ⟨hwrite, hholds⟩ := hp.bmWrite a v.toNat e hl hb
  obtain ⟨hread, hout⟩ := hholds.bmRead e'
  have hboth := hwrite.trans hread
  exact ⟨_, rfl, fun _ => rfl, hwrite.lq, hwrite.block, _, rfl, hout, fun _ => rfl, hboth.lq, hboth.block⟩

end Sys2Proof
end
